-- ==== Sys2Proof/Word.lean ====
section
/-! DEFINITION. The word types of the device: bytes (R8) and the 64-bit registers (R31). -/

namespace Sys2Proof

/-- A byte. -/
abbrev Byte := BitVec 8

/-- A register, a semaphore word, a doorbell: 64 bits, little-endian in memory (R8). -/
abbrev Word64 := BitVec 64

end Sys2Proof
end

