-- ==== Sys2Proof/Syntax.lean ====
section
/-! DEFINITION. The commands: one constructor of `Instr` for each row of spec/opcode_table.json, with the operands the step
takes from outside (a request unit, a register value, a frame, an analog observation). A store, engine or sequencer step whose
operands lie in the device's own state takes none. -/

namespace Sys2Proof

/-- The header fields of a request unit that name its sender (R309). -/
structure ReqHdr where
  port : BitVec 3
  slot : BitVec 2
  tag : BitVec 12
  ord : Bool
  mgmt : Bool
  deriving DecidableEq, Repr

/-- Who makes a register access: an agent on a port, through the unprivileged (`unpriv`) or the privileged view, or the SC
(R35–R38). -/
inductive RegBy where
  | port (h : ReqHdr) (unpriv : Bool)
  | sc
  deriving DecidableEq, Repr

/-- The two Shexa sessions (R384, R385). -/
inductive Session where
  | console | chain
  deriving DecidableEq, Repr

/-- One eye of a receive lane: its vertical opening h and the nominal level spacing H (R272). -/
structure Eye where
  opening : Nat
  spacing : Nat
  deriving DecidableEq, Repr

/-- What the receiver of a lane observes beside a training block (R267, R272, R279): its eyes and equaliser settings, whether it wants a
tap of the partner moved, and, in ALIGN, whether markers, deskew, mapping and scramblers are good. -/
structure LaneReport where
  eyes : List Eye
  inverted : Bool
  aligned : Bool
  ctle : BitVec 5
  dfe : BitVec 8
  coefReq : BitVec 8
  deriving DecidableEq, Repr

/-- What a receive lane observes in a microsecond (R266, R267, R272, R288): its eyes, the settings that its adaptation has reached, whether its
phase-tracking loop tracks the data, and the symbol errors that the pattern checker found. -/
structure LaneObs where
  eyes : List Eye
  ctle : BitVec 5
  dfe : BitVec 8
  locked : Bool
  errors : BitVec 32
  deriving DecidableEq, Repr

/-- The fields of a HELLO unit (table "HELLO header"). -/
structure HelloFields where
  role : BitVec 2
  state : BitVec 3
  ports : Bool
  active : Bool
  full : Bool
  part : BitVec 16
  mirror : BitVec 8
  soloSince : Bool
  keepPrimary : Bool
  sourceCmd : BitVec 2
  epoch : BitVec 32
  bitmapCount : BitVec 32
  deriving DecidableEq, Repr

/-- What the hardware tests and calibrations of a start step reported (R360–R368): the step's own success, banks, spares and stores failing
the checker (S2), keep-store copies whose CRC fails, as (item, copy 0 or 1) (S0), cells that the march finds failing, as (unit, row segment, cell)
(S4), ports failing calibration (S7), engines failing
self-test (S10). -/
structure StepReport where
  ok : Bool
  badBanks : BitVec 64
  badSpares : BitVec 2
  badStores : BitVec 2
  badCopies : List (Nat × Nat)
  badCells : List (Nat × Nat × Nat)
  badPorts : BitVec 8
  badEngines : BitVec 16
  deriving DecidableEq, Repr

/-- A chain frame as it passes the device (R374): ADDR, LEN, payload, the CRC received, the whole bytes received after it, and
how many whole bytes were received before MSEL_N rose. TYPE is the command's. -/
structure ChainFrame where
  addr : Byte
  len : Byte
  payload : List Byte
  crc : BitVec 16
  rest : List Byte
  received : Nat
  deriving DecidableEq, Repr

/-- A control marker as a port receives it: the port, and the bytes of the marker on one lane (R270). -/
structure MarkerIn where
  port : BitVec 3
  bytes : List Byte
  deriving DecidableEq, Repr

/-- The commands. -/
inductive Instr where
  /-- READ (R45). -/
  | readReq (h : ReqHdr) (addr : BitVec 32) (len : BitVec 7)
  /-- WRITE (R45). -/
  | writeReq (h : ReqHdr) (addr : BitVec 32) (len : BitVec 7) (mask : BitVec 64) (data : List Byte)
  /-- READ_RUN (R311). -/
  | readRun (h : ReqHdr) (addr : BitVec 32) (len : BitVec 7) (run : BitVec 8)
  /-- WRITE_RUN (R311). -/
  | writeRun (h : ReqHdr) (addr : BitVec 32) (len : BitVec 7) (run : BitVec 8) (data : List Byte)
  /-- FADD (R71). -/
  | faddReq (h : ReqHdr) (addr : BitVec 32) (len : BitVec 7) (data : List Byte)
  /-- FAND (R71). -/
  | fandReq (h : ReqHdr) (addr : BitVec 32) (len : BitVec 7) (data : List Byte)
  /-- FOR (R71). -/
  | forReq (h : ReqHdr) (addr : BitVec 32) (len : BitVec 7) (data : List Byte)
  /-- FXOR (R71). -/
  | fxorReq (h : ReqHdr) (addr : BitVec 32) (len : BitVec 7) (data : List Byte)
  /-- SWAP (R71). -/
  | swapReq (h : ReqHdr) (addr : BitVec 32) (len : BitVec 7) (data : List Byte)
  /-- CAS (R71). -/
  | casReq (h : ReqHdr) (addr : BitVec 32) (len : BitVec 7) (data : List Byte)
  /-- FMINS (R71). -/
  | fminsReq (h : ReqHdr) (addr : BitVec 32) (len : BitVec 7) (data : List Byte)
  /-- FMINU (R71). -/
  | fminuReq (h : ReqHdr) (addr : BitVec 32) (len : BitVec 7) (data : List Byte)
  /-- FMAXS (R71). -/
  | fmaxsReq (h : ReqHdr) (addr : BitVec 32) (len : BitVec 7) (data : List Byte)
  /-- FMAXU (R71). -/
  | fmaxuReq (h : ReqHdr) (addr : BitVec 32) (len : BitVec 7) (data : List Byte)
  /-- ACC (R97). -/
  | accReq (h : ReqHdr) (addr : BitVec 32) (len : BitVec 7) (opfmt : BitVec 4) (tally : Bool) (data : List Byte)
  /-- RDCV (R102). -/
  | rdcvReq (h : ReqHdr) (addr : BitVec 32) (len : BitVec 7)
  /-- FENCE (R68). -/
  | fenceReq (h : ReqHdr)
  /-- MALFORMED_UNIT (R318). -/
  | malformedUnit (port : BitVec 3)
  /-- ORDERED_RELEASE (R67). -/
  | orderedRelease (port : BitVec 3) (slot : BitVec 2)
  /-- BANK_SLOT (R58). -/
  | bankSlot (bank : BitVec 6)
  /-- ARBITRATION_SETTING_APPLY (R439). -/
  | arbitrationSettingApply
  /-- TALLY_STEP (R110). -/
  | tallyStep
  /-- TRY (R83). -/
  | semTry
  /-- RELEASE (R84). -/
  | semRelease
  /-- TICKET (R85). -/
  | semTicket
  /-- SERVE (R85). -/
  | semServe
  /-- SEM_PEEK (R80). -/
  | semPeek
  /-- STATE_WRITE (R80). -/
  | stateWrite
  /-- NOTIFY_READ (R80). -/
  | notifyRead
  /-- NOTIFY_WRITE (R86). -/
  | notifyWrite
  /-- SEM_CLEAR (R93). -/
  | semClear (by_ : RegBy) (v : Word64)
  /-- SEM_CLEAR_STEP (R93). -/
  | semClearStep
  /-- SEM_STAT_CLEAR (R92). -/
  | semStatClear (by_ : RegBy) (v : Word64)
  /-- PAYLOAD_WRITE (R121). -/
  | payloadWrite
  /-- MAILBOX_READ (R121). -/
  | mailboxRead
  /-- DOORBELL (R123). -/
  | doorbell
  /-- MAILBOX_CLAIM (R125). -/
  | mailboxClaim
  /-- BINDING_WRITE (R126). -/
  | bindingWrite
  /-- MAILBOX_COMMIT (R128). -/
  | mailboxCommit
  /-- MBX_CLEAR (R132). -/
  | mbxClear (by_ : RegBy) (v : Word64)
  /-- MBX_CLEAR_STEP (R132). -/
  | mbxClearStep
  /-- MBX_STAT_CLEAR (R131). -/
  | mbxStatClear (by_ : RegBy) (v : Word64)
  /-- ARB_STAT_CLEAR (R70). -/
  | arbStatClear (by_ : RegBy) (v : Word64)
  /-- VAT_CTL_WRITE (R118). -/
  | vatCtlWrite (by_ : RegBy) (vat : BitVec 10) (v : Word64)
  /-- REARM (R113). -/
  | vatRearm (by_ : RegBy) (vat : BitVec 10) (v : Word64)
  /-- VAT_STAT_CLEAR (R116). -/
  | vatStatClear (by_ : RegBy) (vat : BitVec 10) (v : Word64)
  /-- REGISTER_WRITE (R31). -/
  | registerWrite (by_ : RegBy) (key : BitVec 23) (v : Word64)
  /-- RESPONSE_SEND (R315). -/
  | responseSend (port : BitVec 3) (mgmt : Bool)
  /-- ENGINE_ISSUE (R142). -/
  | engineIssue (e : BitVec 4)
  /-- NOP (R165). -/
  | nopDesc (e : BitVec 4) (q : BitVec 2)
  /-- COPY (R152). -/
  | copyDesc (e : BitVec 4) (q : BitVec 2)
  /-- FILL (R152). -/
  | fillDesc (e : BitVec 4) (q : BitVec 2)
  /-- GATHER (R153). -/
  | gatherDesc (e : BitVec 4) (q : BitVec 2)
  /-- SCATTER (R153). -/
  | scatterDesc (e : BitVec 4) (q : BitVec 2)
  /-- ACCUM (R156). -/
  | accumDesc (e : BitVec 4) (q : BitVec 2)
  /-- CRC32C (R154). -/
  | crcDesc (e : BitVec 4) (q : BitVec 2)
  /-- COMPARE (R155). -/
  | compareDesc (e : BitVec 4) (q : BitVec 2)
  /-- SEMA_TRY (R158). -/
  | semaTry (e : BitVec 4) (q : BitVec 2)
  /-- SEMA_RELEASE (R158). -/
  | semaRelease (e : BitVec 4) (q : BitVec 2)
  /-- SEMA_TICKET (R158). -/
  | semaTicket (e : BitVec 4) (q : BitVec 2)
  /-- SEMA_SERVE (R158). -/
  | semaServe (e : BitVec 4) (q : BitVec 2)
  /-- SEMA_PEEK (R158). -/
  | semaPeek (e : BitVec 4) (q : BitVec 2)
  /-- SEMA_NOTIFY (R158). -/
  | semaNotify (e : BitVec 4) (q : BitVec 2)
  /-- POST (R159). -/
  | postDesc (e : BitVec 4) (q : BitVec 2)
  /-- WAIT_TALLY (R160). -/
  | waitTally (e : BitVec 4) (q : BitVec 2)
  /-- WAIT_COMPLETIONS (R160). -/
  | waitCompletions (e : BitVec 4) (q : BitVec 2)
  /-- WAIT_FREE (R160). -/
  | waitFree (e : BitVec 4) (q : BitVec 2)
  /-- WAIT_TAKE (R160). -/
  | waitTake (e : BitVec 4) (q : BitVec 2)
  /-- WAIT_REEVALUATE (R161). -/
  | waitReevaluate (e : BitVec 4) (q : BitVec 2)
  /-- WAIT_TIMEOUT (R161). -/
  | waitTimeout (e : BitVec 4) (q : BitVec 2)
  /-- PUSH (R163). -/
  | pushDesc (e : BitVec 4) (q : BitVec 2)
  /-- DESCRIPTOR_FENCE (R165). -/
  | descriptorFence (e : BitVec 4) (q : BitVec 2)
  /-- MATCH_ARRIVE (R187). -/
  | matchArrive (e : BitVec 4) (q : BitVec 2)
  /-- MATCH_POST (R188). -/
  | matchPost (e : BitVec 4) (q : BitVec 2)
  /-- MATCH_PROBE (R189). -/
  | matchProbe (e : BitVec 4) (q : BitVec 2)
  /-- MATCH_CANCEL (R189). -/
  | matchCancel (e : BitVec 4) (q : BitVec 2)
  /-- ACCESS_REISSUE (R145). -/
  | accessReissue (e : BitVec 4) (q : BitVec 2)
  /-- DESCRIPTOR_RETIRE (R145). -/
  | descriptorRetire (e : BitVec 4) (q : BitVec 2)
  /-- Q_TAIL_WRITE (R137). -/
  | qTailWrite (by_ : RegBy) (e : BitVec 4) (q : BitVec 2) (v : Word64)
  /-- Q_CFG_WRITE (R141). -/
  | qCfgWrite (by_ : RegBy) (e : BitVec 4) (q : BitVec 2) (v : Word64)
  /-- STOP (R169). -/
  | stopQueue (by_ : RegBy) (e : BitVec 4) (q : BitVec 2) (v : Word64)
  /-- GO (R169). -/
  | goQueue (by_ : RegBy) (e : BitVec 4) (q : BitVec 2) (v : Word64)
  /-- RESUME_RETRY (R168). -/
  | resumeRetry (by_ : RegBy) (e : BitVec 4) (q : BitVec 2) (v : Word64)
  /-- RESUME_SKIP (R168). -/
  | resumeSkip (by_ : RegBy) (e : BitVec 4) (q : BitVec 2) (v : Word64)
  /-- OFFLINE (R170). -/
  | offlineWrite (by_ : RegBy) (e : BitVec 4) (v : Word64)
  /-- ENGINE_OFFLINE_DONE (R170). -/
  | engineOfflineDone (e : BitVec 4)
  /-- ENGINE_RESET (R171). -/
  | engineReset (by_ : RegBy) (e : BitVec 4) (v : Word64)
  /-- RACK_COPY_LINE (R173). -/
  | rackCopyLine (e : BitVec 4)
  /-- MC_CTL_WRITE (R194). -/
  | mcCtlWrite (by_ : RegBy) (ctx : BitVec 8) (v : Word64)
  /-- MC_STAT_CLEAR (R193). -/
  | mcStatClear (by_ : RegBy) (v : Word64)
  /-- INTC_CYCLE (R206). -/
  | intcCycle
  /-- SET_PEND (R199). -/
  | setPend (by_ : RegBy) (src : BitVec 13) (v : Word64)
  /-- PENDING_CLEAR (R199). -/
  | pendingClear (by_ : RegBy) (src : BitVec 13) (v : Word64)
  /-- TARGET_WRITE (R212). -/
  | targetWrite (by_ : RegBy) (src : BitVec 13) (v : Word64)
  /-- TGT_CLAIM (R208). -/
  | tgtClaim (by_ : RegBy) (t : BitVec 6)
  /-- TGT_EOI (R210). -/
  | tgtEoi (by_ : RegBy) (t : BitVec 6) (v : Word64)
  /-- ASLEEP_WRITE (R204). -/
  | asleepWrite (by_ : RegBy) (t : BitVec 6) (v : Word64)
  /-- MESSAGE_SEND (R207). -/
  | messageSend (port : BitVec 3)
  /-- SCRUB_VISIT (R232). -/
  | scrubVisit
  /-- LOG_WRITE (R230). -/
  | logWrite
  /-- REMAP_COPY (R235). -/
  | remapCopy
  /-- LOG_CLEAR (R229). -/
  | logClear (by_ : RegBy) (v : Word64)
  /-- INT_STAT_CLEAR (R240). -/
  | intStatClear (by_ : RegBy) (v : Word64)
  /-- INT_INJECT_WRITE (R239). -/
  | intInjectWrite (by_ : RegBy) (v : Word64)
  /-- BG_GROUP_BEGIN (R247). -/
  | bgGroupBegin (bank : BitVec 6)
  /-- HOLD_TIMEOUT (R248). -/
  | holdTimeout (bank : BitVec 6)
  /-- TST_CMD_START (R252). -/
  | tstCmdStart (by_ : RegBy) (v : Word64)
  /-- FOREGROUND_TEST_END (R252). -/
  | foregroundTestEnd
  /-- ABORT (R252). -/
  | abortTest (by_ : RegBy) (v : Word64)
  /-- TST_STAT_CLEAR (R261). -/
  | tstStatClear (by_ : RegBy) (v : Word64)
  /-- RMP_CMD_GO (R254). -/
  | rmpCmdGo (by_ : RegBy) (v : Word64)
  /-- RET_CMD_START (R255). -/
  | retCmdStart (by_ : RegBy) (v : Word64)
  /-- TST_ENG_GO (R260). -/
  | tstEngGo (by_ : RegBy) (v : Word64)
  /-- ENGINE_SELFTEST_END (R260). -/
  | engineSelftestEnd (e : BitVec 4) (passed : Bool)
  /-- FLIT_RECEIVE (R295). -/
  | flitReceive (port : BitVec 3) (symbols : List (List (BitVec 2)))
  /-- NAK_TIMEOUT (R301). -/
  | nakTimeout (port : BitVec 3)
  /-- ACK_TIMEOUT (R300). -/
  | ackTimeout (port : BitVec 3)
  /-- FLIT_SEND (R302). -/
  | flitSend (port : BitVec 3)
  /-- REPLAY (R302). -/
  | replayFlits (port : BitVec 3)
  /-- PT_STAT_CLEAR (R323). -/
  | ptStatClear (by_ : RegBy) (p : BitVec 3) (v : Word64)
  /-- EMF_UPDATE (R272). -/
  | emfUpdate (port : BitVec 3) (lane : BitVec 4) (rx : LaneObs)
  /-- READAPT_TIMEOUT (R273). -/
  | readaptTimeout (port : BitVec 3) (lane : BitVec 4)
  /-- MARKER_MISSING (R270). -/
  | markerMissing (port : BitVec 3) (lane : BitVec 4)
  /-- EI_IDLE_TIMEOUT (R275). -/
  | eiIdleTimeout (port : BitVec 3)
  /-- EI_REQ (R275). -/
  | eiReq (marker : MarkerIn)
  /-- EI_ACK (R275). -/
  | eiAck (marker : MarkerIn)
  /-- EI_NAK (R275). -/
  | eiNak (marker : MarkerIn)
  /-- EI_EXIT (R276). -/
  | eiExit (port : BitVec 3)
  /-- WAKE_BURST (R276). -/
  | wakeBurst (port : BitVec 3)
  /-- EI_EXIT_TIMEOUT (R276). -/
  | eiExitTimeout (port : BitVec 3)
  /-- RETRAIN_REQ (R283). -/
  | retrainReq (marker : MarkerIn)
  /-- RETRAIN_TIMEOUT (R283). -/
  | retrainTimeout (port : BitVec 3)
  /-- TRAINING_BLOCK (R279). -/
  | trainingBlock (port : BitVec 3) (lane : BitVec 4) (rx : LaneReport) (block : List Byte)
  /-- TRAINING_TIMEOUT (R280). -/
  | trainingTimeout (port : BitVec 3)
  /-- SIGNAL_LOSS (R281). -/
  | signalLoss (port : BitVec 3)
  /-- DOWN_BACKOFF_END (R281). -/
  | downBackoffEnd (port : BitVec 3)
  /-- UNANSWERED_BACKOFF_END (R282). -/
  | unansweredBackoffEnd (port : BitVec 3)
  /-- LPH_RETRAIN (R283). -/
  | lphRetrain (by_ : RegBy) (p : BitVec 3) (v : Word64)
  /-- SPARE_NOW (R286). -/
  | spareNowWrite (by_ : RegBy) (p : BitVec 3) (v : Word64)
  /-- UNSPARE (R287). -/
  | unspareWrite (by_ : RegBy) (p : BitVec 3) (v : Word64)
  /-- LOOP_WRITE (R288). -/
  | loopWrite (by_ : RegBy) (p : BitVec 3) (v : Word64)
  /-- MIN_CLEAR (R289). -/
  | minClear (by_ : RegBy) (p : BitVec 3) (lane : BitVec 4) (v : Word64)
  /-- LN_STAT_CLEAR (R289). -/
  | lnStatClear (by_ : RegBy) (v : Word64)
  /-- LINES (R333). -/
  | linesUnit (port : BitVec 3) (utag : BitVec 12) (base : BitVec 32) (lmask : BitVec 16) (data : List Byte)
  /-- SEM (R333). -/
  | semUnit (port : BitVec 3) (utag : BitVec 12) (n : BitVec 16) (state : Word64) (binding : Word64)
  /-- MBX (R333). -/
  | mbxUnit (port : BitVec 3) (utag : BitVec 12) (n : BitVec 16) (parts : BitVec 7) (isOpen : Bool) (data : List Byte)
  /-- VAT (R333). -/
  | vatUnit (port : BitVec 3) (utag : BitVec 12) (n : BitVec 16) (data : List Byte)
  /-- ACCEPT (R334). -/
  | acceptUnit (port : BitVec 3) (utags : List (BitVec 12))
  /-- HELLO (R342). -/
  | helloUnit (port : BitVec 3) (f : HelloFields)
  /-- HELLO_SEND (R330). -/
  | helloSend
  /-- PAIR_PORT_LOSS (R338). -/
  | pairPortLoss (port : BitVec 3)
  /-- PROMOTE (R340). -/
  | promoteWrite (by_ : RegBy) (v : Word64)
  /-- AUTO_PROMOTE (R340). -/
  | autoPromote
  /-- JOIN (R342). -/
  | joinWrite (by_ : RegBy) (v : Word64)
  /-- LEAVE (R345). -/
  | leaveWrite (by_ : RegBy) (v : Word64)
  /-- SYNC_COPY (R344). -/
  | syncCopy
  /-- HEAL_REQ (R346). -/
  | healReq (port : BitVec 3) (utag : BitVec 12) (addr : BitVec 32)
  /-- HEAL_DATA (R346). -/
  | healData (port : BitVec 3) (utag : BitVec 12) (addr : BitVec 32) (good : Bool) (data : List Byte)
  /-- PWR_REGION_WRITE (R351). -/
  | pwrRegionWrite (by_ : RegBy) (v : Word64)
  /-- RETAIN_WAKE_DONE (R349). -/
  | retainWakeDone (region : BitVec 3)
  /-- RETAIN_IDLE_TIMEOUT (R349). -/
  | retainIdleTimeout (region : BitVec 3)
  /-- OFF_WAKE_DONE (R350). -/
  | offWakeDone (region : BitVec 3)
  /-- DEV_STATE_WRITE (R353). -/
  | devStateWrite (by_ : RegBy) (v : Word64)
  /-- HOLD_ENTRY (R358). -/
  | holdEntry (mv : BitVec 16)
  /-- HOLD_END (R359). -/
  | holdEnd (minMv : BitVec 16)
  /-- BROWNOUT_RESET (R359). -/
  | brownoutReset
  /-- POWER_ON (R427). -/
  | powerOn
  /-- RAIL_FAIL (R428). -/
  | railFail (vio : Bool)
  /-- PIN_RESET (R435). -/
  | pinReset
  /-- WARM (R355). -/
  | warmReset (by_ : RegBy) (v : Word64)
  /-- PORT_RESET (R356). -/
  | portReset (by_ : RegBy) (v : Word64)
  /-- START_STEP (R360). -/
  | startStep (rep : StepReport)
  /-- S8_TIMEOUT (R365). -/
  | s8Timeout
  /-- S9_TIMEOUT (R366). -/
  | s9Timeout
  /-- REFCLK_LOSS (R430). -/
  | refclkLoss
  /-- REFCLK_RETURN (R430). -/
  | refclkReturn
  /-- SC_HALT (R23). -/
  | scHalt
  /-- FATAL_ERROR (R416). -/
  | fatalError (cause : BitVec 8) (detail : BitVec 32)
  /-- CELLAR_RECORD_DONE (R416). -/
  | cellarRecordDone
  /-- FATAL_WATCHDOG (R417). -/
  | fatalWatchdog
  /-- ENUM (R381). -/
  | enumFrame (f : ChainFrame)
  /-- LINE (R385). -/
  | lineFrame (f : ChainFrame)
  /-- POLL (R377). -/
  | pollFrame (f : ChainFrame)
  /-- STATUS (R379). -/
  | statusFrame (f : ChainFrame)
  /-- PEEK (R380). -/
  | peekFrame (f : ChainFrame)
  /-- PEEK_DONE (R380). -/
  | peekDone
  /-- CONSOLE_CHARACTER (R383). -/
  | consoleCharacter (c : Byte)
  /-- BREAK (R384). -/
  | consoleBreak
  /-- HELP (R393). -/
  | helpCmd (sess : Session)
  /-- SHOW (R393). -/
  | showCmd (sess : Session)
  /-- GET (R394). -/
  | getCmd (sess : Session)
  /-- SET (R394). -/
  | setCmd (sess : Session)
  /-- MODE_HUMAN (R390). -/
  | modeHuman (sess : Session)
  /-- MODE_MACHINE (R390). -/
  | modeMachine (sess : Session)
  /-- UNLOCK (R396). -/
  | unlockCmd (sess : Session)
  /-- LOCK (R395). -/
  | lockCmd (sess : Session)
  /-- PHRASE (R397). -/
  | phraseCmd (sess : Session)
  /-- GRANT_PRIV (R398). -/
  | grantPriv (sess : Session)
  /-- GRANT_UNPRIV (R398). -/
  | grantUnpriv (sess : Session)
  /-- PORT_ENABLE (R398). -/
  | portEnable (sess : Session)
  /-- PORT_DISABLE (R398). -/
  | portDisable (sess : Session)
  /-- PORT_RESET_COMMAND (R393). -/
  | portResetCommand (sess : Session)
  /-- PORT_RETRAIN (R393). -/
  | portRetrain (sess : Session)
  /-- PORT_SPARE (R393). -/
  | portSpare (sess : Session)
  /-- PORT_UNSPARE (R393). -/
  | portUnspare (sess : Session)
  /-- PORT_RATES (R393). -/
  | portRates (sess : Session)
  /-- BANK_RETIRE (R393). -/
  | bankRetire (sess : Session)
  /-- BANK_REMAP (R393). -/
  | bankRemap (sess : Session)
  /-- ENGINE_OFFLINE (R393). -/
  | engineOffline (sess : Session)
  /-- ENGINE_ONLINE (R393). -/
  | engineOnline (sess : Session)
  /-- ENGINE_RESET_COMMAND (R393). -/
  | engineResetCommand (sess : Session)
  /-- ENGINE_TEST (R393). -/
  | engineTest (sess : Session)
  /-- TEST (R393). -/
  | testCmd (sess : Session)
  /-- SCRUB_ON (R393). -/
  | scrubOn (sess : Session)
  /-- SCRUB_OFF (R393). -/
  | scrubOff (sess : Session)
  /-- SCRUB_PERIOD (R393). -/
  | scrubPeriod (sess : Session)
  /-- PAIR_ROLE (R347). -/
  | pairRole (sess : Session)
  /-- PAIR_PORTS (R347). -/
  | pairPorts (sess : Session)
  /-- PAIR_MIRROR (R347). -/
  | pairMirror (sess : Session)
  /-- PAIR_JOIN (R347). -/
  | pairJoin (sess : Session)
  /-- PAIR_PROMOTE (R347). -/
  | pairPromote (sess : Session)
  /-- PAIR_LEAVE (R347). -/
  | pairLeave (sess : Session)
  /-- RECORD_START (R393). -/
  | recordStart (sess : Session)
  /-- RECORD_CELLAR (R393). -/
  | recordCellar (sess : Session)
  /-- RESET_WARM (R393). -/
  | resetWarm (sess : Session)
  /-- RESET_PORT (R393). -/
  | resetPort (sess : Session)
  /-- CONSOLE_BAUD (R383). -/
  | consoleBaud (sess : Session)
  /-- KEEPER_TIMEOUT (R395). -/
  | keeperTimeout (sess : Session)
  /-- LOCKOUT_TICK (R396). -/
  | lockoutTick
  /-- MG_STAT_CLEAR (R400). -/
  | mgStatClear (by_ : RegBy) (v : Word64)
  /-- PC_CFG_WRITE (R407). -/
  | pcCfgWrite (by_ : RegBy) (i : BitVec 6) (v : Word64)
  /-- FREEZE (R408). -/
  | freezeCounters (by_ : RegBy) (v : Word64)
  /-- CLEAR_ALL (R407). -/
  | clearAll (by_ : RegBy) (v : Word64)
  /-- SMP_CTL_WRITE (R409). -/
  | smpCtlWrite (by_ : RegBy) (v : Word64)
  /-- SMP_CLEAR (R411). -/
  | smpClear (by_ : RegBy) (v : Word64)
  /-- SMP_IDX_WRITE (R412). -/
  | smpIdxWrite (by_ : RegBy) (v : Word64)
  /-- TR_IDX_WRITE (R412). -/
  | trIdxWrite (by_ : RegBy) (v : Word64)
  /-- TR_CLEAR (R415). -/
  | trClear (by_ : RegBy) (v : Word64)
  /-- CEL_CTL_WRITE (R418). -/
  | celCtlWrite (by_ : RegBy) (v : Word64)
  /-- RESET_N_RISE (R435). -/
  | resetNRise
  /-- UNDEFINED_TYPE_FRAME (R376). -/
  | undefinedTypeFrame (f : ChainFrame) (typ : Byte)
  /-- UNKNOWN_COMMAND (R391). -/
  | unknownCommand (sess : Session)
  /-- LOSS_OF_LOCK (R267). -/
  | lossOfLock (port : BitVec 3) (lane : BitVec 4)
  /-- RETAIN_ENTRY_DONE (R349). -/
  | retainEntryDone (region : BitVec 3)
  /-- S4_TIMEOUT (R364). -/
  | s4Timeout
  /-- SPARE_TEST_PASS_BEGIN (R247). -/
  | spareTestPassBegin (spare : BitVec 1)
  /-- SC_REPAIR_POLICY (R255). -/
  | scRepairPolicy (bank : BitVec 6)
  deriving DecidableEq, Repr

end Sys2Proof
end

