-- ==== Sys2Proof/Config.lean ====
section
/-! DEFINITION. What an implementation fixes: the variant (R1, R2), and the values the spec leaves to the device or does not
state, as opaque constants that no proof can evaluate (log entries 3 and 4). -/

namespace Sys2Proof

/-- The three variants of R2. -/
inductive Variant where
  | jz8x256 | jz8x128 | jz4x128
  deriving DecidableEq, Repr

namespace Config

/-- STEP_MAJOR and STEP_MINOR of ID_DEVICE: "silicon" (R40). -/
opaque stepping : BitVec 8

/-- ID_SERIAL: "per device" (R40). -/
opaque serial : Word64

/-- ID_FIRMWARE as the SC sets it at step S1 (R40, R360). -/
opaque firmware : Word64

/-- Free value: whether VDD is at or above 0.70 V at a time at which no command tells (R379). -/
opaque vddGood : Nat → Bool

/-- Free value: whether VDD is at or above 0.65 V at a time at which no command tells (R379). -/
opaque vddAboveReset : Nat → Bool

/-- Free value: the keep-store word at a byte offset, given the registers and triple-kept words that the keep store backs; the spec gives no
keep-store layout (R400). -/
opaque keepWord : Nat → List (Nat × Word64) → List (Nat × Word64 × Word64 × Word64) → Word64

/-- Free value: where in the keep store the keeper phrase begins (R400). -/
opaque keepPhrase : Nat

/-- Free value: the data bits of codeword `cw` of a physical line of a unit that an aborted destructive test left undefined
(R252); the first argument is the free-value counter. -/
opaque freeData : Nat → Nat → Nat → Nat → BitVec 256

/-- Free value: the check field of such a codeword. -/
opaque freeCheck : Nat → Nat → Nat → Nat → BitVec 19

/-- Free value: a word whose value the spec does not state, such as the RESULT of a COMPARE that ends OK (R150, R155); the
argument is the free-value counter. -/
opaque freeWord : Nat → Word64

/-- Which of the mirrored segments the partner's bitmap names (R344): for a draw and the number of segments still to come, a place among
those left. -/
opaque partnerPick : Nat → Nat → Nat

/-- Free value: the text after "start:" of a console line about a decision: step, unit and code (R362). -/
opaque startText : Nat → Nat → Nat → List Byte

/-- Free value: the data lines of a help or show reply, whose format the spec does not give (R393). -/
opaque replyText : Nat → Nat → List (List Byte)

/-- Free value: an FFE tap word of a lane after adaptation (R266), an analog result the spec does not give. -/
opaque ffeTaps : Nat → Nat → Nat → Word64

end Config
end Sys2Proof
end

