-- ==== Sys2Proof/Machine/Bits.lean ====
section
/-! DEFINITION. Fields of words, byte order (R8), saturating counters and the CRCs of the chapters: CRC-32C (R154),
CRC-64 (R295), CRC-16 of markers and chain frames (R270, R375). -/

namespace Sys2Proof.Machine

/-- The place of a field in a 64-bit word: its lowest bit and its width. -/
structure Fld where
  lo : Nat
  width : Nat
  deriving DecidableEq, Repr

/-- The ones of a field. -/
def fldMask (f : Fld) : Word64 := BitVec.ofNat 64 ((2 ^ f.width - 1) <<< f.lo)

/-- The value of a field. -/
def getF (w : Word64) (f : Fld) : Nat := (w.toNat >>> f.lo) % 2 ^ f.width

/-- The word with a field replaced, the value cut to the field's width. -/
def setF (w : Word64) (f : Fld) (v : Nat) : Word64 :=
  (w &&& ~~~(fldMask f)) ||| (BitVec.ofNat 64 ((v % 2 ^ f.width) <<< f.lo) &&& fldMask f)

/-- Whether a one-bit field is set. -/
def hasF (w : Word64) (f : Fld) : Bool := getF w f != 0

/-- Bit `i` of a number. -/
def bitOf (n i : Nat) : Bool := (n >>> i) % 2 == 1

/-- Bits [hi:lo] of a number. -/
def bitsOf (n hi lo : Nat) : Nat := (n >>> lo) % 2 ^ (hi + 1 - lo)

/-- A word of a number. -/
def w64 (n : Nat) : Word64 := BitVec.ofNat 64 n

/-- One, or zero. -/
def b01 (b : Bool) : Nat := if b then 1 else 0

/-- The `n` bytes of a number, byte 0 first (R8). -/
def leBytes : Nat → Nat → List Byte
  | 0, _ => []
  | n + 1, v => BitVec.ofNat 8 v :: leBytes n (v / 256)

/-- The number that bytes hold, byte 0 first (R8). -/
def leNat : List Byte → Nat
  | [] => 0
  | b :: bs => b.toNat + 256 * leNat bs

/-- `n` bytes of a list from an offset, zeros past its end. -/
def sliceBytes (bs : List Byte) (off n : Nat) : List Byte :=
  let t := (bs.drop off).take n
  t ++ List.replicate (n - t.length) 0

/-- A two's-complement reading of the low `w` bits. -/
def toSigned (w v : Nat) : Int :=
  let u := v % 2 ^ w
  if u < 2 ^ (w - 1) then (u : Int) else (u : Int) - (2 ^ w : Nat)

/-- The low `w` bits of an integer. -/
def ofSigned (w : Nat) (i : Int) : Nat := (i % ((2 ^ w : Nat) : Int)).toNat

/-- One bit of a reflected CRC register. -/
def crcReflBit (poly r : Nat) : Nat := if r % 2 = 1 then (r / 2) ^^^ poly else r / 2

/-- One byte into a reflected CRC register. -/
def crcReflByte (poly r : Nat) (b : Byte) : Nat :=
  let s := crcReflBit poly
  s (s (s (s (s (s (s (s (r ^^^ b.toNat))))))))

/-- CRC-32C register over bytes: Castagnoli 0x1EDC_6F41, bit-reflected (R154). -/
def crc32cReg (r : Nat) (bs : List Byte) : Nat := bs.foldl (crcReflByte 0x82F63B78) r

/-- CRC-32C with seed D: the register starts at D XOR ones and ends XOR ones (R154). -/
def crc32c (d : Nat) (bs : List Byte) : Nat := crc32cReg ((d % 2 ^ 32) ^^^ 0xFFFFFFFF) bs ^^^ 0xFFFFFFFF

/-- CRC-64 of a flit: ECMA-182 polynomial, bit-reflected, all ones in and out (R295). -/
def crc64 (bs : List Byte) : Nat := bs.foldl (crcReflByte 0xC96C5795D7870F42) (2 ^ 64 - 1) ^^^ (2 ^ 64 - 1)

/-- One bit of a CRC-16 register, most significant bit first (R375). -/
def crc16Bit (r : Nat) : Nat := if r < 0x8000 then r * 2 else ((r * 2) % 0x10000) ^^^ 0x1021

/-- One byte into the CRC-16 register (R375). -/
def crc16Byte (r : Nat) (b : Byte) : Nat :=
  let s := crc16Bit
  s (s (s (s (s (s (s (s (r ^^^ (b.toNat * 256)))))))))

/-- CRC-16, polynomial x^16 + x^12 + x^5 + 1, from 0xFFFF (R270, R375). -/
def crc16 (bs : List Byte) : Nat := bs.foldl crc16Byte 0xFFFF

/-- Replace the entry at an index, when there is one. -/
def setAt {α : Type} : List α → Nat → α → List α
  | [], _, _ => []
  | _ :: t, 0, v => v :: t
  | h :: t, n + 1, v => h :: setAt t n v

/-- Write bytes over a list of bytes from an offset. -/
def overlay : List Byte → Nat → List Byte → List Byte
  | l, _, [] => l
  | l, off, b :: bs => overlay (setAt l off b) (off + 1) bs

end Sys2Proof.Machine
end

