-- ==== Sys2Proof/Machine/Ecc.lean ====
section
/-! DEFINITION. The code of the array and stores: 275-bit codewords, encoding, decoding and poison (R217–R222, R226). -/

namespace Sys2Proof.Machine

/-- A stored codeword: 256 data bits d(i) and the check field C[18:0] (R217). -/
structure Cw where
  data : BitVec 256
  check : BitVec 19
  deriving DecidableEq, Repr

/-- g(x) of R218. -/
def genPoly : Nat := 0x495C9

/-- m1(x), the minimal polynomial of α (R218). -/
def m1Poly : Nat := 0x211

/-- m3(x), the minimal polynomial of α^3 (R218). -/
def m3Poly : Nat := 0x259

/-- Remainder over GF(2) of `r`, of degree below `deg + n`, by a polynomial of degree `deg`. -/
def polyRem (p deg : Nat) : Nat → Nat → Nat
  | 0, r => r
  | n + 1, r => polyRem p deg n (if bitOf r (deg + n) then r ^^^ (p <<< n) else r)

/-- XOR of the bits below 512. -/
def parity512 (r : Nat) : Nat :=
  let f (x k : Nat) := x ^^^ (x >>> k)
  (f (f (f (f (f (f (f (f (f r 256) 128) 64) 32) 16) 8) 4) 2) 1) % 2

/-- C[17:0] of the data bits: x^18 d(x) mod g(x) (R218). -/
def bchCheck (d : Nat) : Nat := polyRem genPoly 18 256 (d <<< 18)

/-- Systematic encoding with the overall parity bit P (R218). -/
def encodeCw (data : BitVec 256) : Cw :=
  let c := bchCheck data.toNat
  { data := data, check := BitVec.ofNat 19 (c + (parity512 (data.toNat <<< 18 + c)) <<< 18) }

/-- The poison pattern, covering C0, C4, C9 and C18 (R222). -/
def poisonPattern : BitVec 19 := 0x40211

/-- Poison a codeword, its data bits as they stand (R222). -/
def poisonCw (data : BitVec 256) : Cw :=
  let c := encodeCw data
  { c with check := c.check ^^^ poisonPattern }

/-- Times α in GF(2^9) (R218). -/
def gfStep (x : Nat) : Nat := if x < 256 then x * 2 else (x * 2) ^^^ m1Poly

/-- Product in GF(2^9). -/
def gfMulAux : Nat → Nat → Nat → Nat
  | 0, _, _ => 0
  | n + 1, a, b => (if b % 2 = 1 then a else 0) ^^^ gfMulAux n (gfStep a) (b / 2)

/-- Product in GF(2^9). -/
def gfMul (a b : Nat) : Nat := gfMulAux 9 a b

/-- α to a power. -/
def gfPow : Nat → Nat
  | 0 => 1
  | n + 1 => gfStep (gfPow n)

/-- Search from exponent `j`, with `x` = α^j, for the exponents of a list whose power meets a test. -/
def gfFind (test : Nat → Bool) : Nat → Nat → Nat → List Nat
  | 0, _, _ => []
  | n + 1, j, x => (if test x then [j] else []) ++ gfFind test n (j + 1) (gfStep x)

/-- The exponents j in 0–510 whose power α^j meets a test. -/
def gfRoots (test : Nat → Bool) : List Nat := gfFind test 511 0 1

/-- S1 (R219): the positions 0–273 at α, which is the remainder by m1. -/
def synS1 (r : Nat) : Nat := polyRem m1Poly 9 265 r

/-- A polynomial of degree below 9 at α^3. -/
def evalA3 : Nat → Nat → Nat → Nat
  | 0, _, _ => 0
  | n + 1, c, p => (if c % 2 = 1 then p else 0) ^^^ evalA3 n (c / 2) (gfStep (gfStep (gfStep p)))

/-- S3 (R219): the positions 0–273 at α^3. -/
def synS3 (r : Nat) : Nat := evalA3 9 (polyRem m3Poly 9 265 r) 1

/-- Outcomes of the decoder (R219). -/
inductive DecodeOutcome where
  | poisoned
  | clean
  | corrected
  | uncorrectable
  deriving DecidableEq, Repr

/-- What the decoder reports of a codeword: outcome, corrected codeword, syndromes and the corrected positions. -/
structure Decoded where
  outcome : DecodeOutcome
  cw : Cw
  s1 : Nat
  s3 : Nat
  par : Nat
  pos : List Nat
  deriving DecidableEq, Repr

/-- Invert one position of a codeword (R217); positions above 274 name none. -/
def flipPos (c : Cw) (p : Nat) : Cw :=
  if p ≤ 17 then { c with check := c.check ^^^ BitVec.ofNat 19 (1 <<< p) }
  else if p ≤ 273 then { c with data := c.data ^^^ BitVec.ofNat 256 (1 <<< (p - 18)) }
  else if p = 274 then { c with check := c.check ^^^ BitVec.ofNat 19 (1 <<< 18) }
  else c

/-- Positions 0–273 as one number. -/
def cwBits (c : Cw) : Nat := (c.data.toNat <<< 18) + c.check.toNat % 2 ^ 18

/-- The table "Decoder outcomes" of R219; the first row whose condition holds. -/
def decodeCw (c : Cw) : Decoded :=
  let r := cwBits c
  let s1 := synS1 r
  let s3 := synS3 r
  let pi := parity512 (r + (c.check.toNat >>> 18) <<< 274)
  let mk (o : DecodeOutcome) (ps : List Nat) : Decoded :=
    { outcome := o, cw := ps.foldl flipPos c, s1 := s1, s3 := s3, par := pi, pos := ps }
  if s1 = 0 && s3 = 0x110 && pi = 0 then mk .poisoned []
  else if s1 = 0 && s3 = 0 && pi = 0 then mk .clean []
  else if s1 = 0 && s3 = 0 && pi = 1 then mk .corrected [274]
  else if s1 ≠ 0 && s3 = gfMul s1 (gfMul s1 s1) then
    match gfRoots (· == s1) with
    | j :: _ => if j ≤ 273 then (if pi = 1 then mk .corrected [j] else mk .corrected [j, 274]) else mk .uncorrectable []
    | [] => mk .uncorrectable []
  else if s1 ≠ 0 && pi = 0 then
    match gfRoots (fun x => gfMul s1 (gfMul x x ^^^ gfMul s1 x ^^^ gfMul s1 s1) ^^^ s3 == 0) with
    | [j1, j2] => if j1 ≤ 273 && j2 ≤ 273 then mk .corrected [j1, j2] else mk .uncorrectable []
    | _ => mk .uncorrectable []
  else mk .uncorrectable []

/-- Decoding of a store codeword (R226): never poisoned, and a correction at a position that is not stored is
uncorrectable. Positions 146–273 of a semaphore codeword are not stored. -/
def decodeStoreCw (sem : Bool) (c : Cw) : Decoded :=
  let d := decodeCw c
  match d.outcome with
  | .poisoned => { d with outcome := .uncorrectable }
  | .corrected =>
    if sem && d.pos.any (fun p => 146 ≤ p && p ≤ 273) then { d with outcome := .uncorrectable, cw := c, pos := [] } else d
  | _ => d

end Sys2Proof.Machine
end

