-- ==== Sys2Proof/Machine/RegTable.lean ====
section
/-! DEFINITION. The register space of R30: for every register the spec defines, its address in the block
(key = block × 0x1_0000 + offset), its fields with width, access code (R11) and reset value (R10), transcribed from the
register tables of the chapters (R39, R40, R70, R92, R116, R131, R175, R193, R215, R240, R261, R289, R323, R347, R369,
R400, R420). `R_<REGISTER>` is a register's key, `<REGISTER>_<FIELD>` a field's place. -/

namespace Sys2Proof.Machine

/-- The access codes of R11 that some register carries. -/
inductive Access where
  | ro | rw | wo | w1c | w1s
  deriving DecidableEq, Repr

/-- One field of a register table; `nv`: backed by the keep store, `tk`: triple-kept (R11). -/
structure FieldRow where
  name : String
  fld : Fld
  access : Access
  nv : Bool
  tk : Bool
  reset : Nat
  deriving DecidableEq, Repr

/-- One register of a table, repeated `n1` times at stride `s1` and within that `n2` times at stride `s2`;
`idx` is how many indices its name takes in Shexa (R387). -/
structure RegRow where
  name : String
  idx : Nat
  base : Nat
  n1 : Nat
  s1 : Nat
  n2 : Nat
  s2 : Nat
  fields : List FieldRow
  deriving DecidableEq, Repr

def R_GLB_TIME : Nat := 0x10000
def GLB_TIME_TIME : Fld := ⟨0, 64⟩
def R_GLB_SCRATCH : Nat := 0x10008
def GLB_SCRATCH_DATA : Fld := ⟨0, 64⟩
def R_ID_DEVICE : Nat := 0x0
def ID_DEVICE_VENDOR : Fld := ⟨48, 16⟩
def ID_DEVICE_FAMILY : Fld := ⟨32, 16⟩
def ID_DEVICE_PART : Fld := ⟨16, 16⟩
def ID_DEVICE_STEP_MAJOR : Fld := ⟨12, 4⟩
def ID_DEVICE_STEP_MINOR : Fld := ⟨8, 4⟩
def R_ID_FIRMWARE : Nat := 0x8
def ID_FIRMWARE_BUILD : Fld := ⟨32, 32⟩
def ID_FIRMWARE_MAJOR : Fld := ⟨16, 16⟩
def ID_FIRMWARE_MINOR : Fld := ⟨0, 16⟩
def R_ID_SERIAL : Nat := 0x10
def ID_SERIAL_SERIAL : Fld := ⟨0, 64⟩
def R_ID_CAP_ARRAY : Nat := 0x20
def ID_CAP_ARRAY_PORTS : Fld := ⟨0, 8⟩
def ID_CAP_ARRAY_REGIONS : Fld := ⟨8, 8⟩
def ID_CAP_ARRAY_BANKS_PER_REGION : Fld := ⟨16, 4⟩
def ID_CAP_ARRAY_SPARE_BANKS : Fld := ⟨20, 4⟩
def ID_CAP_ARRAY_REGION_MIB : Fld := ⟨24, 8⟩
def ID_CAP_ARRAY_ARRAY_MIB : Fld := ⟨32, 16⟩
def R_ID_CAP_UNITS : Nat := 0x28
def ID_CAP_UNITS_ENGINES : Fld := ⟨0, 16⟩
def ID_CAP_UNITS_MATCH : Fld := ⟨16, 1⟩
def ID_CAP_UNITS_FW128 : Fld := ⟨17, 1⟩
def ID_CAP_UNITS_PAIR : Fld := ⟨18, 1⟩
def ID_CAP_UNITS_MATCH_CONTEXTS : Fld := ⟨32, 16⟩
def ID_CAP_UNITS_VATS : Fld := ⟨48, 16⟩
def R_ID_CAP_STORES : Nat := 0x30
def ID_CAP_STORES_SEMAPHORES : Fld := ⟨0, 32⟩
def ID_CAP_STORES_MAILBOXES : Fld := ⟨32, 16⟩
def R_ID_CAP_INTR : Nat := 0x38
def ID_CAP_INTR_TARGETS : Fld := ⟨0, 36⟩
def ID_CAP_INTR_PRIVATE_SOURCES : Fld := ⟨40, 13⟩
def R_ID_CAP_CELLAR : Nat := 0x40
def ID_CAP_CELLAR_BASE : Fld := ⟨0, 32⟩
def ID_CAP_CELLAR_SIZE_KIB : Fld := ⟨32, 16⟩
def R_ID_CAP_LINK : Nat := 0x48
def ID_CAP_LINK_RATES : Fld := ⟨0, 3⟩
def ID_CAP_LINK_LANES : Fld := ⟨4, 4⟩
def ID_CAP_LINK_SPARE_LANE : Fld := ⟨8, 1⟩
def R_ID_CAP_OBS : Nat := 0x50
def ID_CAP_OBS_COUNTERS : Fld := ⟨0, 16⟩
def ID_CAP_OBS_SAMPLER : Fld := ⟨16, 16⟩
def ID_CAP_OBS_TRACE : Fld := ⟨32, 16⟩
def R_ARB_SHARE : Nat := 0x100000
def ARB_SHARE_H0 : Fld := ⟨0, 2⟩
def ARB_SHARE_H1 : Fld := ⟨2, 2⟩
def ARB_SHARE_H2 : Fld := ⟨4, 2⟩
def ARB_SHARE_H3 : Fld := ⟨6, 2⟩
def ARB_SHARE_H4 : Fld := ⟨8, 2⟩
def ARB_SHARE_H5 : Fld := ⟨10, 2⟩
def ARB_SHARE_H6 : Fld := ⟨12, 2⟩
def ARB_SHARE_H7 : Fld := ⟨14, 2⟩
def R_ARB_WEIGHT : Nat := 0x100008
def ARB_WEIGHT_E (e : Nat) : Fld := ⟨2 * e, 2⟩
def ARB_WEIGHT_PAIR : Fld := ⟨32, 2⟩
def R_ARB_CTL : Nat := 0x100010
def ARB_CTL_STAT_CLEAR : Fld := ⟨0, 1⟩
def R_ARB_SPLITS : Nat := 0x100018
def ARB_SPLITS_COUNT : Fld := ⟨0, 48⟩
def R_ARB_BANKSTAT (n : Nat) : Nat := 0x100100 + n * 0x8
def ARB_BANKSTAT_COLLISIONS : Fld := ⟨0, 32⟩
def ARB_BANKSTAT_COMBINED : Fld := ⟨32, 32⟩
def R_SEM_CLEAR : Nat := 0x140000
def SEM_CLEAR_FIRST : Fld := ⟨0, 16⟩
def SEM_CLEAR_START : Fld := ⟨16, 1⟩
def SEM_CLEAR_COUNT : Fld := ⟨32, 17⟩
def SEM_CLEAR_BUSY : Fld := ⟨63, 1⟩
def R_SEM_FORCED : Nat := 0x140008
def SEM_FORCED_COUNT : Fld := ⟨0, 32⟩
def R_SEM_DENIED : Nat := 0x140010
def SEM_DENIED_COUNT : Fld := ⟨0, 32⟩
def R_SEM_LAST_FORCED : Nat := 0x140018
def SEM_LAST_FORCED_SEM : Fld := ⟨0, 16⟩
def SEM_LAST_FORCED_BY : Fld := ⟨16, 5⟩
def SEM_LAST_FORCED_BY_SLOT : Fld := ⟨21, 2⟩
def SEM_LAST_FORCED_PRIOR_OWNER : Fld := ⟨32, 24⟩
def SEM_LAST_FORCED_VALID : Fld := ⟨63, 1⟩
def R_SEM_TRYSTAT : Nat := 0x140020
def SEM_TRYSTAT_TAKEN : Fld := ⟨0, 32⟩
def SEM_TRYSTAT_REFUSED : Fld := ⟨32, 32⟩
def R_SEM_NOTIFIED : Nat := 0x140028
def SEM_NOTIFIED_COUNT : Fld := ⟨0, 32⟩
def R_SEM_CTL : Nat := 0x140030
def SEM_CTL_STAT_CLEAR : Fld := ⟨0, 1⟩
def R_VAT_CTL (n : Nat) : Nat := 0x160000 + n * 0x40
def VAT_CTL_VALID : Fld := ⟨0, 1⟩
def VAT_CTL_AUTO_REARM : Fld := ⟨1, 1⟩
def VAT_CTL_REARM : Fld := ⟨2, 1⟩
def VAT_CTL_DONE : Fld := ⟨3, 1⟩
def VAT_CTL_FMT : Fld := ⟨4, 4⟩
def VAT_CTL_OP : Fld := ⟨8, 3⟩
def VAT_CTL_STAT_CLEAR : Fld := ⟨11, 1⟩
def VAT_CTL_SCALE : Fld := ⟨16, 12⟩
def R_VAT_RANGE (n : Nat) : Nat := 0x160008 + n * 0x40
def VAT_RANGE_BASE : Fld := ⟨12, 20⟩
def VAT_RANGE_LEN4K : Fld := ⟨32, 13⟩
def R_VAT_COUNT (n : Nat) : Nat := 0x160010 + n * 0x40
def VAT_COUNT_EXPECTED : Fld := ⟨0, 32⟩
def VAT_COUNT_TALLY : Fld := ⟨32, 32⟩
def R_VAT_MBX (n : Nat) : Nat := 0x160018 + n * 0x40
def VAT_MBX_MAILBOX : Fld := ⟨0, 12⟩
def VAT_MBX_BIND : Fld := ⟨63, 1⟩
def R_VAT_FLAGS (n : Nat) : Nat := 0x160020 + n * 0x40
def VAT_FLAGS_OVF : Fld := ⟨0, 1⟩
def VAT_FLAGS_EARLY : Fld := ⟨32, 32⟩
def R_VAT_LOSS (n : Nat) : Nat := 0x160028 + n * 0x40
def VAT_LOSS_LOSS : Fld := ⟨0, 32⟩
def VAT_LOSS_MISMATCH : Fld := ⟨32, 32⟩
def R_VAT_EVENTS (n : Nat) : Nat := 0x160030 + n * 0x40
def VAT_EVENTS_NONFINITE : Fld := ⟨0, 32⟩
def VAT_EVENTS_COMPLETIONS : Fld := ⟨32, 32⟩
def R_VAT_REJECT (n : Nat) : Nat := 0x160038 + n * 0x40
def VAT_REJECT_CODE : Fld := ⟨0, 4⟩
def VAT_REJECT_OTHER : Fld := ⟨16, 10⟩
def R_MBX_CTL (n : Nat) : Nat := 0x150000 + n * 0x8
def MBX_CTL_OPEN : Fld := ⟨0, 1⟩
def MBX_CTL_OVERRUN : Fld := ⟨8, 1⟩
def MBX_CTL_EVENTS : Fld := ⟨16, 16⟩
def MBX_CTL_WRITER_ID : Fld := ⟨32, 5⟩
def MBX_CTL_WRITER_SLOT : Fld := ⟨37, 2⟩
def R_MBX_CLEAR : Nat := 0x158000
def MBX_CLEAR_FIRST : Fld := ⟨0, 12⟩
def MBX_CLEAR_START : Fld := ⟨16, 1⟩
def MBX_CLEAR_COUNT : Fld := ⟨32, 13⟩
def MBX_CLEAR_BUSY : Fld := ⟨63, 1⟩
def R_MBX_DOORBELLS : Nat := 0x158008
def MBX_DOORBELLS_COUNT : Fld := ⟨0, 48⟩
def R_MBX_OVERRUNS : Nat := 0x158010
def MBX_OVERRUNS_COUNT : Fld := ⟨0, 32⟩
def R_MBX_DENIED : Nat := 0x158018
def MBX_DENIED_COUNT : Fld := ⟨0, 32⟩
def R_MBX_GCTL : Nat := 0x158020
def MBX_GCTL_STAT_CLEAR : Fld := ⟨0, 1⟩
def R_ENG_CTL (n : Nat) : Nat := 0x180000 + n * 0x1000
def ENG_CTL_OFFLINE : Fld := ⟨0, 1⟩
def ENG_CTL_RESET : Fld := ⟨1, 1⟩
def R_ENG_STAT (n : Nat) : Nat := 0x180008 + n * 0x1000
def ENG_STAT_STATE : Fld := ⟨0, 3⟩
def ENG_STAT_RACKING : Fld := ⟨3, 1⟩
def ENG_STAT_FAULTQ : Fld := ⟨8, 4⟩
def ENG_STAT_BADTAIL : Fld := ⟨12, 4⟩
def ENG_STAT_RACK_DONE : Fld := ⟨16, 1⟩
def R_ENG_ACCESSES (n : Nat) : Nat := 0x180010 + n * 0x1000
def ENG_ACCESSES_COUNT : Fld := ⟨0, 48⟩
def R_ENG_RACK (n : Nat) : Nat := 0x180018 + n * 0x1000
def ENG_RACK_LINE : Fld := ⟨0, 17⟩
def ENG_RACK_BANK : Fld := ⟨17, 6⟩
def ENG_RACK_SPARE : Fld := ⟨23, 1⟩
def ENG_RACK_ACTIVE : Fld := ⟨24, 1⟩
def ENG_RACK_POISONED : Fld := ⟨32, 16⟩
def R_Q_RING (n i : Nat) : Nat := 0x180100 + n * 0x1000 + i * 0x80
def Q_RING_SIZE : Fld := ⟨0, 4⟩
def Q_RING_BASE : Fld := ⟨12, 20⟩
def R_Q_CFG (n i : Nat) : Nat := 0x180108 + n * 0x1000 + i * 0x80
def Q_CFG_ENABLE : Fld := ⟨0, 1⟩
def Q_CFG_PORT : Fld := ⟨1, 3⟩
def Q_CFG_STEP : Fld := ⟨8, 8⟩
def R_Q_HEAD (n i : Nat) : Nat := 0x180110 + n * 0x1000 + i * 0x80
def Q_HEAD_HEAD : Fld := ⟨0, 32⟩
def R_Q_TAIL (n i : Nat) : Nat := 0x180118 + n * 0x1000 + i * 0x80
def Q_TAIL_TAIL : Fld := ⟨0, 32⟩
def R_Q_STATE (n i : Nat) : Nat := 0x180120 + n * 0x1000 + i * 0x80
def Q_STATE_STATE : Fld := ⟨0, 3⟩
def Q_STATE_LAST : Fld := ⟨3, 1⟩
def R_Q_CTL (n i : Nat) : Nat := 0x180128 + n * 0x1000 + i * 0x80
def Q_CTL_STOP : Fld := ⟨0, 1⟩
def Q_CTL_GO : Fld := ⟨1, 1⟩
def Q_CTL_RESUME_RETRY : Fld := ⟨2, 1⟩
def Q_CTL_RESUME_SKIP : Fld := ⟨3, 1⟩
def R_Q_FAULT (n i : Nat) : Nat := 0x180130 + n * 0x1000 + i * 0x80
def Q_FAULT_INDEX : Fld := ⟨0, 32⟩
def Q_FAULT_OPCODE : Fld := ⟨32, 8⟩
def Q_FAULT_STATUS : Fld := ⟨40, 8⟩
def R_Q_FAULTADDR (n i : Nat) : Nat := 0x180138 + n * 0x1000 + i * 0x80
def Q_FAULTADDR_ADDR : Fld := ⟨0, 32⟩
def R_Q_COUNT (n i : Nat) : Nat := 0x180140 + n * 0x1000 + i * 0x80
def Q_COUNT_DONE : Fld := ⟨0, 32⟩
def Q_COUNT_FAILED : Fld := ⟨32, 32⟩
def R_Q_STARTS (n i : Nat) : Nat := 0x180148 + n * 0x1000 + i * 0x80
def Q_STARTS_STARTS : Fld := ⟨0, 32⟩
def Q_STARTS_BADTAIL : Fld := ⟨32, 16⟩
def Q_STARTS_DROPPED : Fld := ⟨48, 16⟩
def R_MC_CTL (n : Nat) : Nat := 0x190000 + n * 0x40
def MC_CTL_ENABLE : Fld := ⟨0, 1⟩
def MC_CTL_K : Fld := ⟨1, 4⟩
def MC_CTL_PORTS : Fld := ⟨8, 8⟩
def MC_CTL_LOCKSEM : Fld := ⟨16, 16⟩
def R_MC_BASE (n : Nat) : Nat := 0x190008 + n * 0x40
def MC_BASE_BASE : Fld := ⟨6, 26⟩
def R_MC_POOL (n : Nat) : Nat := 0x190010 + n * 0x40
def MC_POOL_BASE : Fld := ⟨6, 26⟩
def MC_POOL_COUNT : Fld := ⟨32, 19⟩
def R_MC_STAT (n : Nat) : Nat := 0x190018 + n * 0x40
def MC_STAT_OPS : Fld := ⟨0, 32⟩
def MC_STAT_MATCHED : Fld := ⟨32, 32⟩
def R_MC_WALK (n : Nat) : Nat := 0x190020 + n * 0x40
def MC_WALK_STEPS : Fld := ⟨0, 32⟩
def MC_WALK_MAXRUN : Fld := ⟨32, 16⟩
def R_MC_ERR (n : Nat) : Nat := 0x190028 + n * 0x40
def MC_ERR_BADLIST : Fld := ⟨0, 32⟩
def MC_ERR_LOCKWAIT : Fld := ⟨32, 32⟩
def R_MC_GCTL : Nat := 0x194000
def MC_GCTL_STAT_CLEAR : Fld := ⟨0, 1⟩
def R_SRC_ENTRY (n : Nat) : Nat := 0x200000 + n * 0x8
def SRC_ENTRY_ENABLE : Fld := ⟨0, 1⟩
def SRC_ENTRY_PRIORITY : Fld := ⟨1, 4⟩
def SRC_ENTRY_TRIGGER : Fld := ⟨5, 1⟩
def SRC_ENTRY_PENDING : Fld := ⟨6, 1⟩
def SRC_ENTRY_ACTIVE : Fld := ⟨7, 1⟩
def SRC_ENTRY_SET_PEND : Fld := ⟨8, 1⟩
def SRC_ENTRY_RAW : Fld := ⟨9, 1⟩
def SRC_ENTRY_COUNT : Fld := ⟨16, 8⟩
def SRC_ENTRY_COUNT_OVF : Fld := ⟨24, 1⟩
def SRC_ENTRY_TARGET : Fld := ⟨32, 6⟩
def R_TGT_CTL (n : Nat) : Nat := 0x210000 + n * 0x100
def TGT_CTL_THRESHOLD : Fld := ⟨0, 4⟩
def TGT_CTL_DELIVER : Fld := ⟨4, 1⟩
def TGT_CTL_ASLEEP : Fld := ⟨5, 1⟩
def R_TGT_CLAIM (n : Nat) : Nat := 0x210008 + n * 0x100
def TGT_CLAIM_SOURCE : Fld := ⟨0, 13⟩
def TGT_CLAIM_PRIORITY : Fld := ⟨16, 4⟩
def TGT_CLAIM_COUNT : Fld := ⟨24, 8⟩
def TGT_CLAIM_COUNT_OVF : Fld := ⟨32, 1⟩
def TGT_CLAIM_LEVEL : Fld := ⟨33, 1⟩
def TGT_CLAIM_RAW : Fld := ⟨34, 1⟩
def TGT_CLAIM_VALID : Fld := ⟨63, 1⟩
def R_TGT_EOI (n : Nat) : Nat := 0x210010 + n * 0x100
def TGT_EOI_SOURCE : Fld := ⟨0, 13⟩
def R_TGT_STACK (n : Nat) : Nat := 0x210018 + n * 0x100
def TGT_STACK_DEPTH : Fld := ⟨0, 4⟩
def TGT_STACK_TOP : Fld := ⟨4, 4⟩
def TGT_STACK_TOP_SOURCE : Fld := ⟨8, 13⟩
def R_TGT_BEST (n : Nat) : Nat := 0x210020 + n * 0x100
def TGT_BEST_SOURCE : Fld := ⟨0, 13⟩
def TGT_BEST_PRIORITY : Fld := ⟨16, 4⟩
def TGT_BEST_VALID : Fld := ⟨63, 1⟩
def R_TGT_OUT (n : Nat) : Nat := 0x210028 + n * 0x100
def TGT_OUT_SOURCE : Fld := ⟨0, 13⟩
def TGT_OUT_PRIORITY : Fld := ⟨16, 4⟩
def TGT_OUT_VALID : Fld := ⟨63, 1⟩
def R_TGT_MSGS (n : Nat) : Nat := 0x210030 + n * 0x100
def TGT_MSGS_INTRS : Fld := ⟨0, 32⟩
def TGT_MSGS_WAKES : Fld := ⟨32, 16⟩
def TGT_MSGS_WITHDRAWS : Fld := ⟨48, 16⟩
def R_TGT_ERR (n : Nat) : Nat := 0x210038 + n * 0x100
def TGT_ERR_BADEOI : Fld := ⟨0, 16⟩
def TGT_ERR_EMPTY_CLAIMS : Fld := ⟨16, 16⟩
def TGT_ERR_HELD : Fld := ⟨32, 16⟩
def R_TGT_STACKI (n i : Nat) : Nat := 0x210040 + n * 0x100 + i * 0x8
def TGT_STACKI_SOURCE : Fld := ⟨0, 13⟩
def TGT_STACKI_PRIORITY : Fld := ⟨16, 4⟩
def TGT_STACKI_VALID : Fld := ⟨63, 1⟩
def R_INT_CTL : Nat := 0x110000
def INT_CTL_AUTO_REMAP : Fld := ⟨0, 1⟩
def INT_CTL_LEES_LOCK : Fld := ⟨1, 1⟩
def INT_CTL_UE_LOCK : Fld := ⟨2, 1⟩
def INT_CTL_SCRUB_EN : Fld := ⟨3, 1⟩
def INT_CTL_LOG_CLEAR : Fld := ⟨4, 1⟩
def INT_CTL_STAT_CLEAR : Fld := ⟨5, 1⟩
def R_INT_STAT : Nat := 0x110008
def INT_STAT_SCRUB_UE : Fld := ⟨0, 1⟩
def INT_STAT_HARDFAULT : Fld := ⟨1, 1⟩
def INT_STAT_REMAP : Fld := ⟨2, 1⟩
def INT_STAT_LEES_FULL : Fld := ⟨3, 1⟩
def INT_STAT_REMAP_FULL : Fld := ⟨4, 1⟩
def INT_STAT_TK_DISAGREE : Fld := ⟨5, 1⟩
def R_INT_TOTALS : Nat := 0x110010
def INT_TOTALS_CE : Fld := ⟨0, 32⟩
def INT_TOTALS_UE : Fld := ⟨32, 32⟩
def R_INT_POISON : Nat := 0x110018
def INT_POISON_POISONED : Fld := ⟨0, 32⟩
def INT_POISON_ANSWERS : Fld := ⟨32, 32⟩
def R_INT_SCRUB_CFG : Nat := 0x110020
def INT_SCRUB_CFG_PERIOD_MIN : Fld := ⟨0, 16⟩
def R_INT_SCRUB_POS : Nat := 0x110028
def INT_SCRUB_POS_LINE : Fld := ⟨0, 17⟩
def INT_SCRUB_POS_BANK : Fld := ⟨17, 6⟩
def INT_SCRUB_POS_STORES : Fld := ⟨23, 1⟩
def INT_SCRUB_POS_PASSES : Fld := ⟨32, 32⟩
def R_INT_SCRUB_STAT : Nat := 0x110030
def INT_SCRUB_STAT_SKIPPED : Fld := ⟨0, 32⟩
def INT_SCRUB_STAT_LATE : Fld := ⟨32, 16⟩
def R_INT_HF_CFG : Nat := 0x110038
def INT_HF_CFG_WINDOW_S : Fld := ⟨0, 16⟩
def R_INT_HF : Nat := 0x110040
def INT_HF_ADDR : Fld := ⟨0, 32⟩
def INT_HF_LINE : Fld := ⟨32, 17⟩
def INT_HF_PHYS : Fld := ⟨49, 7⟩
def INT_HF_FULL : Fld := ⟨56, 1⟩
def INT_HF_REMAPPED : Fld := ⟨57, 1⟩
def INT_HF_VALID : Fld := ⟨63, 1⟩
def R_INT_HFCOUNT : Nat := 0x110048
def INT_HFCOUNT_CANDIDATES : Fld := ⟨0, 32⟩
def INT_HFCOUNT_REMAPS : Fld := ⟨32, 32⟩
def R_INT_LEES_CTL : Nat := 0x110050
def INT_LEES_CTL_HEAD : Fld := ⟨0, 5⟩
def INT_LEES_CTL_COUNT : Fld := ⟨8, 6⟩
def INT_LEES_CTL_LOST : Fld := ⟨32, 32⟩
def R_INT_UE_CTL : Nat := 0x110058
def INT_UE_CTL_HEAD : Fld := ⟨0, 4⟩
def INT_UE_CTL_COUNT : Fld := ⟨8, 5⟩
def INT_UE_CTL_LOST : Fld := ⟨32, 32⟩
def R_INT_TK_STAT : Nat := 0x110060
def INT_TK_STAT_DISAGREE : Fld := ⟨0, 32⟩
def INT_TK_STAT_LAST : Fld := ⟨32, 7⟩
def R_INT_INJECT : Nat := 0x110068
def INT_INJECT_ADDR : Fld := ⟨5, 27⟩
def INT_INJECT_POS_A : Fld := ⟨32, 9⟩
def INT_INJECT_POS_B : Fld := ⟨41, 9⟩
def INT_INJECT_POS_C : Fld := ⟨50, 9⟩
def INT_INJECT_ARM : Fld := ⟨63, 1⟩
def R_INT_SELFTEST : Nat := 0x110070
def INT_SELFTEST_BANKS : Fld := ⟨0, 64⟩
def R_INT_SELFTEST_X : Nat := 0x110078
def INT_SELFTEST_X_BS0 : Fld := ⟨0, 1⟩
def INT_SELFTEST_X_BS1 : Fld := ⟨1, 1⟩
def INT_SELFTEST_X_SEMSTORE : Fld := ⟨2, 1⟩
def INT_SELFTEST_X_MBXSTORE : Fld := ⟨3, 1⟩
def R_INT_UNITERR (n : Nat) : Nat := 0x110100 + n * 0x8
def INT_UNITERR_CE : Fld := ⟨0, 16⟩
def INT_UNITERR_UE : Fld := ⟨16, 16⟩
def INT_UNITERR_REMAPS : Fld := ⟨32, 4⟩
def INT_UNITERR_SUSPECT : Fld := ⟨36, 1⟩
def R_INT_LEES (n i : Nat) : Nat := 0x111000 + n * 0x20 + i * 0x8
def INT_LEES_ENTRY : Fld := ⟨0, 64⟩
def R_INT_UELOG (n i : Nat) : Nat := 0x111400 + n * 0x20 + i * 0x8
def INT_UELOG_ENTRY : Fld := ⟨0, 64⟩
def R_TST_BG : Nat := 0x120000
def TST_BG_BG_EN : Fld := ⟨0, 1⟩
def TST_BG_YIELD : Fld := ⟨1, 1⟩
def TST_BG_ALGO : Fld := ⟨2, 1⟩
def TST_BG_SPARES : Fld := ⟨3, 1⟩
def TST_BG_GAP_US : Fld := ⟨16, 16⟩
def R_TST_BG_BANKS : Nat := 0x120008
def TST_BG_BANKS_BANKS : Fld := ⟨0, 64⟩
def R_TST_CMD : Nat := 0x120010
def TST_CMD_UNIT : Fld := ⟨0, 7⟩
def TST_CMD_MODE : Fld := ⟨8, 2⟩
def TST_CMD_ALGO : Fld := ⟨10, 1⟩
def TST_CMD_EMPTY : Fld := ⟨11, 1⟩
def TST_CMD_GROUP : Fld := ⟨16, 11⟩
def TST_CMD_START : Fld := ⟨63, 1⟩
def R_TST_STAT : Nat := 0x120018
def TST_STAT_STATE : Fld := ⟨0, 2⟩
def TST_STAT_CODE : Fld := ⟨4, 4⟩
def TST_STAT_GROUPS : Fld := ⟨16, 11⟩
def R_TST_RESULT : Nat := 0x120020
def TST_RESULT_LINE : Fld := ⟨0, 17⟩
def TST_RESULT_CELL : Fld := ⟨17, 11⟩
def TST_RESULT_UNIT : Fld := ⟨28, 7⟩
def TST_RESULT_FAILS : Fld := ⟨48, 15⟩
def TST_RESULT_VALID : Fld := ⟨63, 1⟩
def R_TST_HOLDS : Nat := 0x120028
def TST_HOLDS_HELD : Fld := ⟨0, 24⟩
def TST_HOLDS_BUSY : Fld := ⟨24, 24⟩
def TST_HOLDS_YIELDS : Fld := ⟨48, 16⟩
def R_TST_CTL : Nat := 0x120030
def TST_CTL_STAT_CLEAR : Fld := ⟨0, 1⟩
def TST_CTL_ABORT : Fld := ⟨1, 1⟩
def R_RET_MAP : Nat := 0x120040
def RET_MAP_MAP : Fld := ⟨0, 64⟩
def R_RET_CMD : Nat := 0x120048
def RET_CMD_BANK : Fld := ⟨0, 6⟩
def RET_CMD_ENGINE : Fld := ⟨8, 4⟩
def RET_CMD_ENG_SEL : Fld := ⟨12, 1⟩
def RET_CMD_START : Fld := ⟨63, 1⟩
def R_RET_STAT : Nat := 0x120050
def RET_STAT_FREE : Fld := ⟨0, 2⟩
def RET_STAT_CODE : Fld := ⟨4, 4⟩
def RET_STAT_PENDING : Fld := ⟨8, 1⟩
def R_RMP_CMD : Nat := 0x120058
def RMP_CMD_UNIT : Fld := ⟨0, 7⟩
def RMP_CMD_LINE : Fld := ⟨16, 16⟩
def RMP_CMD_GO : Fld := ⟨63, 1⟩
def R_RMP_STAT : Nat := 0x120060
def RMP_STAT_BUSY : Fld := ⟨0, 1⟩
def RMP_STAT_CODE : Fld := ⟨4, 4⟩
def R_TST_ENG : Nat := 0x120068
def TST_ENG_ENGINE : Fld := ⟨0, 4⟩
def TST_ENG_GO : Fld := ⟨63, 1⟩
def R_TST_ENGRES : Nat := 0x120070
def TST_ENGRES_PASSED : Fld := ⟨0, 16⟩
def TST_ENGRES_FAILED : Fld := ⟨16, 16⟩
def TST_ENGRES_RUNNING : Fld := ⟨32, 16⟩
def R_TST_BGPOS (n : Nat) : Nat := 0x120100 + n * 0x8
def TST_BGPOS_GROUP : Fld := ⟨0, 11⟩
def TST_BGPOS_PASSES : Fld := ⟨32, 32⟩
def R_RMP_ENTRY (n i : Nat) : Nat := 0x121000 + n * 0x40 + i * 0x8
def RMP_ENTRY_LINE : Fld := ⟨0, 16⟩
def RMP_ENTRY_STATE : Fld := ⟨16, 2⟩
def R_LPH_CTL (n : Nat) : Nat := 0xa0000 + n * 0x1000
def LPH_CTL_RATES : Fld := ⟨0, 3⟩
def LPH_CTL_PRECODE_REQ : Fld := ⟨3, 1⟩
def LPH_CTL_AUTO_SPARE : Fld := ⟨4, 1⟩
def LPH_CTL_FREEZE_EN : Fld := ⟨5, 1⟩
def LPH_CTL_EI_EN : Fld := ⟨6, 1⟩
def LPH_CTL_ALLOW_FE : Fld := ⟨7, 1⟩
def LPH_CTL_LOOP : Fld := ⟨8, 2⟩
def LPH_CTL_PATTERN : Fld := ⟨10, 2⟩
def LPH_CTL_RETRAIN : Fld := ⟨12, 1⟩
def LPH_CTL_UNSPARE : Fld := ⟨13, 1⟩
def LPH_CTL_SPARE_NOW : Fld := ⟨14, 1⟩
def LPH_CTL_SPARE_LANE : Fld := ⟨15, 3⟩
def LPH_CTL_EI_IDLE_US : Fld := ⟨32, 16⟩
def R_LPH_STAT (n : Nat) : Nat := 0xa0008 + n * 0x1000
def LPH_STAT_STATE : Fld := ⟨0, 4⟩
def LPH_STAT_RATE : Fld := ⟨4, 2⟩
def LPH_STAT_PRECODE_TX : Fld := ⟨6, 1⟩
def LPH_STAT_PRECODE_RX : Fld := ⟨7, 1⟩
def LPH_STAT_EI : Fld := ⟨8, 1⟩
def LPH_STAT_RETRAINING : Fld := ⟨9, 1⟩
def LPH_STAT_REVERSED : Fld := ⟨10, 1⟩
def LPH_STAT_RX_SPARED : Fld := ⟨11, 3⟩
def LPH_STAT_RX_SPARE_USED : Fld := ⟨14, 1⟩
def LPH_STAT_TX_SPARED : Fld := ⟨15, 3⟩
def LPH_STAT_TX_SPARE_USED : Fld := ⟨18, 1⟩
def LPH_STAT_ATTEMPT : Fld := ⟨19, 2⟩
def LPH_STAT_FAIL_CAUSE : Fld := ⟨24, 4⟩
def R_LPH_CNT_A (n : Nat) : Nat := 0xa0010 + n * 0x1000
def LPH_CNT_A_DOWNS : Fld := ⟨0, 16⟩
def LPH_CNT_A_RETRAINS : Fld := ⟨16, 16⟩
def LPH_CNT_A_READAPTS : Fld := ⟨32, 16⟩
def LPH_CNT_A_SPARES : Fld := ⟨48, 16⟩
def R_LPH_CNT_B (n : Nat) : Nat := 0xa0018 + n * 0x1000
def LPH_CNT_B_FAILED_ATTEMPTS : Fld := ⟨0, 16⟩
def LPH_CNT_B_UNANSWERED : Fld := ⟨16, 16⟩
def LPH_CNT_B_EI_ENTRIES : Fld := ⟨32, 16⟩
def LPH_CNT_B_EI_REFUSED : Fld := ⟨48, 16⟩
def R_LPH_UPTIME (n : Nat) : Nat := 0xa0020 + n * 0x1000
def LPH_UPTIME_UP_AT : Fld := ⟨0, 64⟩
def R_LRX_STAT (n i : Nat) : Nat := 0xa0100 + n * 0x1000 + i * 0x40
def LRX_STAT_EMF : Fld := ⟨0, 8⟩
def LRX_STAT_EMF_MIN : Fld := ⟨8, 8⟩
def LRX_STAT_MODE : Fld := ⟨16, 2⟩
def LRX_STAT_SIGNAL : Fld := ⟨18, 1⟩
def LRX_STAT_LOCKED : Fld := ⟨19, 1⟩
def LRX_STAT_LOGICAL : Fld := ⟨20, 4⟩
def LRX_STAT_INVERTED : Fld := ⟨24, 1⟩
def LRX_STAT_UNUSABLE : Fld := ⟨25, 1⟩
def LRX_STAT_MIN_CLEAR : Fld := ⟨32, 1⟩
def R_LRX_EQ (n i : Nat) : Nat := 0xa0108 + n * 0x1000 + i * 0x40
def LRX_EQ_CTLE : Fld := ⟨0, 5⟩
def LRX_EQ_DFE : Fld := ⟨8, 8⟩
def R_LRX_FFE0 (n i : Nat) : Nat := 0xa0110 + n * 0x1000 + i * 0x40
def LRX_FFE0_TAPS0_7 : Fld := ⟨0, 64⟩
def R_LRX_FFE1 (n i : Nat) : Nat := 0xa0118 + n * 0x1000 + i * 0x40
def LRX_FFE1_TAPS8_11 : Fld := ⟨0, 32⟩
def R_LRX_ERR (n i : Nat) : Nat := 0xa0120 + n * 0x1000 + i * 0x40
def LRX_ERR_PATTERN_ERR : Fld := ⟨0, 32⟩
def LRX_ERR_LOCK_LOSS : Fld := ⟨32, 16⟩
def R_LTX_FIR (n i : Nat) : Nat := 0xa0400 + n * 0x1000 + i * 0x10
def LTX_FIR_PRE2 : Fld := ⟨0, 6⟩
def LTX_FIR_PRE1 : Fld := ⟨8, 6⟩
def LTX_FIR_MAIN : Fld := ⟨16, 6⟩
def LTX_FIR_POST1 : Fld := ⟨24, 6⟩
def LTX_FIR_POST2 : Fld := ⟨32, 6⟩
def R_LTX_FIX (n i : Nat) : Nat := 0xa0408 + n * 0x1000 + i * 0x10
def LTX_FIX_TAPS : Fld := ⟨0, 38⟩
def LTX_FIX_ENABLE : Fld := ⟨48, 1⟩
def R_LN_GCFG : Nat := 0xa8000
def LN_GCFG_FLOOR : Fld := ⟨0, 8⟩
def LN_GCFG_HARD_FLOOR : Fld := ⟨8, 8⟩
def LN_GCFG_EQ_TARGET : Fld := ⟨16, 8⟩
def LN_GCFG_BAND : Fld := ⟨24, 8⟩
def LN_GCFG_FREEZE_US : Fld := ⟨32, 16⟩
def LN_GCFG_FLOOR_US : Fld := ⟨48, 8⟩
def R_LN_GCFG2 : Nat := 0xa8008
def LN_GCFG2_READAPT_US : Fld := ⟨0, 16⟩
def LN_GCFG2_HYST : Fld := ⟨16, 8⟩
def LN_GCFG2_HARD_UPDATES : Fld := ⟨24, 8⟩
def R_LN_GCTL : Nat := 0xa8010
def LN_GCTL_STAT_CLEAR : Fld := ⟨0, 1⟩
def R_PT_CTL (n : Nat) : Nat := 0x20000 + n * 0x10000
def PT_CTL_REPLAY_NS : Fld := ⟨0, 16⟩
def PT_CTL_STAT_CLEAR : Fld := ⟨16, 1⟩
def R_PT_STAT (n : Nat) : Nat := 0x20008 + n * 0x10000
def PT_STAT_EV_UP : Fld := ⟨0, 1⟩
def PT_STAT_EV_DOWN : Fld := ⟨1, 1⟩
def PT_STAT_EV_UNANSWERED : Fld := ⟨2, 1⟩
def PT_STAT_EV_LOOPBACK : Fld := ⟨3, 1⟩
def PT_STAT_EV_RETRAIN : Fld := ⟨4, 1⟩
def PT_STAT_EV_SPARE : Fld := ⟨5, 1⟩
def PT_STAT_SESSION : Fld := ⟨8, 1⟩
def PT_STAT_CREDITED : Fld := ⟨9, 1⟩
def PT_STAT_RX_WAIT : Fld := ⟨10, 1⟩
def PT_STAT_TX_REPLAY : Fld := ⟨11, 1⟩
def PT_STAT_SESSIONS : Fld := ⟨16, 16⟩
def R_PT_TXSEQ (n : Nat) : Nat := 0x20010 + n * 0x10000
def PT_TXSEQ_NEXT : Fld := ⟨0, 9⟩
def PT_TXSEQ_ACKED : Fld := ⟨16, 9⟩
def PT_TXSEQ_ACKED_V : Fld := ⟨25, 1⟩
def PT_TXSEQ_UNACKED : Fld := ⟨32, 9⟩
def R_PT_RXSEQ (n : Nat) : Nat := 0x20018 + n * 0x10000
def PT_RXSEQ_EXPECTED : Fld := ⟨0, 9⟩
def R_PT_CREDIT_RX (n : Nat) : Nat := 0x20020 + n * 0x10000
def PT_CREDIT_RX_VC0 : Fld := ⟨0, 16⟩
def PT_CREDIT_RX_VC1 : Fld := ⟨16, 16⟩
def PT_CREDIT_RX_VC2 : Fld := ⟨32, 16⟩
def PT_CREDIT_RX_VC3 : Fld := ⟨48, 16⟩
def R_PT_CREDIT_TX (n : Nat) : Nat := 0x20028 + n * 0x10000
def PT_CREDIT_TX_VC0 : Fld := ⟨0, 16⟩
def PT_CREDIT_TX_VC1 : Fld := ⟨16, 16⟩
def PT_CREDIT_TX_VC2 : Fld := ⟨32, 16⟩
def PT_CREDIT_TX_VC3 : Fld := ⟨48, 16⟩
def R_PT_FLITS (n : Nat) : Nat := 0x20030 + n * 0x10000
def PT_FLITS_FEC_FIXED : Fld := ⟨0, 32⟩
def PT_FLITS_BAD : Fld := ⟨32, 32⟩
def R_PT_REPLAY (n : Nat) : Nat := 0x20038 + n * 0x10000
def PT_REPLAY_REPLAYED : Fld := ⟨0, 32⟩
def PT_REPLAY_NAKS : Fld := ⟨32, 16⟩
def PT_REPLAY_LIMITS : Fld := ⟨48, 16⟩
def R_PT_REQS (n : Nat) : Nat := 0x20040 + n * 0x10000
def PT_REQS_ACCEPTED : Fld := ⟨0, 48⟩
def R_PT_ERR (n : Nat) : Nat := 0x20048 + n * 0x10000
def PT_ERR_MALFORMED : Fld := ⟨0, 16⟩
def PT_ERR_TAGDUP : Fld := ⟨16, 16⟩
def PT_ERR_OVERRUN : Fld := ⟨32, 16⟩
def PT_ERR_RESYNC : Fld := ⟨48, 16⟩
def R_PT_LOST (n : Nat) : Nat := 0x20050 + n * 0x10000
def PT_LOST_RESP_LOST : Fld := ⟨0, 32⟩
def PT_LOST_UNITS_LOST : Fld := ⟨32, 32⟩
def R_PT_TAGS (n : Nat) : Nat := 0x20058 + n * 0x10000
def PT_TAGS_OUTSTANDING : Fld := ⟨0, 13⟩
def PT_TAGS_PEAK : Fld := ⟨16, 13⟩
def R_PR_ROLE : Nat := 0x290000
def PR_ROLE_ROLE : Fld := ⟨0, 2⟩
def PR_ROLE_PORTS : Fld := ⟨2, 1⟩
def R_PR_MIRROR : Nat := 0x290008
def PR_MIRROR_REGIONS : Fld := ⟨0, 8⟩
def R_PR_EPOCH : Nat := 0x290010
def PR_EPOCH_EPOCH : Fld := ⟨0, 32⟩
def PR_EPOCH_SOLO_SINCE_JOIN : Fld := ⟨32, 1⟩
def PR_EPOCH_UNCLEAN : Fld := ⟨33, 1⟩
def R_PR_CFG : Nat := 0x290018
def PR_CFG_LOSS_US : Fld := ⟨0, 16⟩
def PR_CFG_AUTO_PROMOTE : Fld := ⟨16, 1⟩
def PR_CFG_KEEP_PRIMARY : Fld := ⟨17, 1⟩
def PR_CFG_HEAL : Fld := ⟨18, 1⟩
def PR_CFG_ENG_SEL : Fld := ⟨19, 1⟩
def PR_CFG_ENGINE : Fld := ⟨20, 4⟩
def PR_CFG_PROMOTE_MS : Fld := ⟨32, 16⟩
def R_PR_CMD : Nat := 0x290020
def PR_CMD_JOIN : Fld := ⟨0, 1⟩
def PR_CMD_SOURCE : Fld := ⟨1, 1⟩
def PR_CMD_PROMOTE : Fld := ⟨2, 1⟩
def PR_CMD_LEAVE : Fld := ⟨3, 1⟩
def R_PR_STAT : Nat := 0x290028
def PR_STAT_STATE : Fld := ⟨0, 3⟩
def PR_STAT_ACTIVE : Fld := ⟨3, 1⟩
def PR_STAT_DIVERGED : Fld := ⟨4, 1⟩
def PR_STAT_SOURCE : Fld := ⟨5, 1⟩
def PR_STAT_PORTS_UP : Fld := ⟨6, 2⟩
def PR_STAT_EV_LOST : Fld := ⟨8, 1⟩
def PR_STAT_EV_REJOINED : Fld := ⟨9, 1⟩
def PR_STAT_EV_DIVERGED : Fld := ⟨10, 1⟩
def PR_STAT_EV_PORT : Fld := ⟨11, 1⟩
def PR_STAT_JOIN_CODE : Fld := ⟨16, 4⟩
def R_PR_DIRTY : Nat := 0x290030
def PR_DIRTY_COUNT : Fld := ⟨0, 13⟩
def PR_DIRTY_SYNC_LEFT : Fld := ⟨32, 13⟩
def R_PR_FWD : Nat := 0x290038
def PR_FWD_UNITS : Fld := ⟨0, 48⟩
def PR_FWD_PENDING : Fld := ⟨48, 14⟩
def R_PR_COUNTS : Nat := 0x290040
def PR_COUNTS_DENIED : Fld := ⟨0, 32⟩
def PR_COUNTS_HEALS : Fld := ⟨32, 16⟩
def PR_COUNTS_HEAL_FAILS : Fld := ⟨48, 16⟩
def R_PR_BREAK : Nat := 0x290048
def PR_BREAK_TIME : Fld := ⟨0, 64⟩
def R_PR_BITMAP (n : Nat) : Nat := 0x290100 + n * 0x8
def PR_BITMAP_DIRTY : Fld := ⟨0, 64⟩
def R_PWR_CTL : Nat := 0x280000
def PWR_CTL_DEV_STATE : Fld := ⟨0, 2⟩
def PWR_CTL_RETAIN_IDLE_US : Fld := ⟨16, 16⟩
def R_PWR_REGION : Nat := 0x280008
def PWR_REGION_TARGET_H (h : Nat) : Fld := ⟨2 * h, 2⟩
def R_PWR_REGSTAT : Nat := 0x280010
def PWR_REGSTAT_STATE_H (h : Nat) : Fld := ⟨3 * h, 3⟩
def PWR_REGSTAT_WAKES : Fld := ⟨32, 16⟩
def R_PWR_DEVSTAT : Nat := 0x280018
def PWR_DEVSTAT_STATE : Fld := ⟨0, 2⟩
def PWR_DEVSTAT_HOLD : Fld := ⟨2, 1⟩
def PWR_DEVSTAT_READY : Fld := ⟨3, 1⟩
def PWR_DEVSTAT_REFCLK_LOST : Fld := ⟨4, 1⟩
def R_PWR_RESET : Nat := 0x280020
def PWR_RESET_WARM : Fld := ⟨0, 1⟩
def PWR_RESET_PORT : Fld := ⟨8, 8⟩
def PWR_RESET_KEY : Fld := ⟨16, 16⟩
def R_PWR_BROWN : Nat := 0x280028
def PWR_BROWN_HOLDS : Fld := ⟨0, 16⟩
def PWR_BROWN_RESETS : Fld := ⟨16, 16⟩
def PWR_BROWN_MIN_MV : Fld := ⟨32, 16⟩
def R_PWR_HOLDTIME : Nat := 0x280030
def PWR_HOLDTIME_LAST_US : Fld := ⟨0, 32⟩
def PWR_HOLDTIME_TOTAL_US : Fld := ⟨32, 32⟩
def R_PWR_START : Nat := 0x280038
def PWR_START_REACHED : Fld := ⟨0, 4⟩
def PWR_START_FAILED : Fld := ⟨4, 4⟩
def PWR_START_KIND : Fld := ⟨8, 3⟩
def PWR_START_KEEP_LOST : Fld := ⟨11, 1⟩
def PWR_START_QUICK_MARCH : Fld := ⟨12, 1⟩
def PWR_START_S8_MS : Fld := ⟨16, 16⟩
def PWR_START_S9_MS : Fld := ⟨32, 16⟩
def R_PWR_STEPREC : Nat := 0x280040
def PWR_STEPREC_MIRROR : Fld := ⟨0, 64⟩
def R_PWR_DECIDE : Nat := 0x280048
def PWR_DECIDE_CODE_S (h : Nat) : Fld := ⟨4 * h, 4⟩
def R_PWR_ATTEMPT : Nat := 0x280050
def PWR_ATTEMPT_ATT_S (h : Nat) : Fld := ⟨4 * h, 4⟩
def R_PWR_SREC (n : Nat) : Nat := 0x280060 + n * 0x8
def PWR_SREC_BYTES : Fld := ⟨0, 64⟩
def R_MG_CHAINADDR : Nat := 0x2a0000
def MG_CHAINADDR_ADDRESS : Fld := ⟨0, 6⟩
def R_MG_GRANT : Nat := 0x2a0008
def MG_GRANT_PRIV : Fld := ⟨0, 8⟩
def R_MG_PORTEN : Nat := 0x2a0010
def MG_PORTEN_ENABLE : Fld := ⟨0, 8⟩
def R_MG_KEEPLOCK : Nat := 0x2a0018
def MG_KEEPLOCK_FAILS : Fld := ⟨0, 3⟩
def MG_KEEPLOCK_LOCKED : Fld := ⟨3, 1⟩
def MG_KEEPLOCK_LOCK_S : Fld := ⟨4, 6⟩
def MG_KEEPLOCK_TOTAL : Fld := ⟨32, 32⟩
def R_MG_CONSOLE : Nat := 0x2a0020
def MG_CONSOLE_BAUD : Fld := ⟨0, 3⟩
def MG_CONSOLE_MACHINE : Fld := ⟨4, 1⟩
def MG_CONSOLE_KEEPER : Fld := ⟨5, 1⟩
def R_MG_CHAINSESS : Nat := 0x2a0028
def MG_CHAINSESS_KEEPER : Fld := ⟨0, 1⟩
def MG_CHAINSESS_BUSY : Fld := ⟨1, 1⟩
def MG_CHAINSESS_REPLY_READY : Fld := ⟨2, 1⟩
def MG_CHAINSESS_REPLY_BYTES : Fld := ⟨16, 16⟩
def R_MG_CHAINCNT : Nat := 0x2a0030
def MG_CHAINCNT_FRAMES : Fld := ⟨0, 32⟩
def MG_CHAINCNT_CRC_ERR : Fld := ⟨32, 16⟩
def MG_CHAINCNT_RUNT : Fld := ⟨48, 16⟩
def R_MG_CHAINERR : Nat := 0x2a0038
def MG_CHAINERR_BADTYPE : Fld := ⟨0, 16⟩
def MG_CHAINERR_DROPPED : Fld := ⟨16, 16⟩
def MG_CHAINERR_TRUNCATED : Fld := ⟨32, 16⟩
def R_MG_SHEXA : Nat := 0x2a0040
def MG_SHEXA_COMMANDS : Fld := ⟨0, 32⟩
def MG_SHEXA_ERRORS : Fld := ⟨32, 16⟩
def R_MG_KS_ADDR : Nat := 0x2a0048
def MG_KS_ADDR_OFFSET : Fld := ⟨3, 9⟩
def R_MG_KS_DATA : Nat := 0x2a0050
def MG_KS_DATA_DATA : Fld := ⟨0, 64⟩
def R_MG_CTL : Nat := 0x2a0058
def MG_CTL_STAT_CLEAR : Fld := ⟨0, 1⟩
def R_PC_GCTL : Nat := 0x300000
def PC_GCTL_FREEZE : Fld := ⟨0, 1⟩
def PC_GCTL_CLEAR_ALL : Fld := ⟨1, 1⟩
def R_PC_SNAPTIME : Nat := 0x300008
def PC_SNAPTIME_TIME : Fld := ⟨0, 64⟩
def R_PC_OVFSUM : Nat := 0x300010
def PC_OVFSUM_OVF : Fld := ⟨0, 64⟩
def R_PC_OVF_LOST : Nat := 0x300018
def PC_OVF_LOST_COUNT : Fld := ⟨0, 32⟩
def R_PC_CFG (n : Nat) : Nat := 0x300100 + n * 0x8
def PC_CFG_EVENT : Fld := ⟨0, 10⟩
def PC_CFG_IRQ : Fld := ⟨16, 1⟩
def R_PC_CNT (n : Nat) : Nat := 0x300300 + n * 0x8
def PC_CNT_COUNT : Fld := ⟨0, 48⟩
def PC_CNT_OVF : Fld := ⟨63, 1⟩
def R_PC_SNAP (n : Nat) : Nat := 0x300500 + n * 0x8
def PC_SNAP_COUNT : Fld := ⟨0, 48⟩
def PC_SNAP_OVF : Fld := ⟨63, 1⟩
def R_SMP_CTL : Nat := 0x300800
def SMP_CTL_ENABLE : Fld := ⟨0, 1⟩
def SMP_CTL_STOP_FULL : Fld := ⟨1, 1⟩
def SMP_CTL_CLEAR : Fld := ⟨2, 1⟩
def SMP_CTL_K : Fld := ⟨8, 5⟩
def SMP_CTL_SEED : Fld := ⟨32, 32⟩
def R_SMP_STAT : Nat := 0x300808
def SMP_STAT_NEXT : Fld := ⟨0, 10⟩
def SMP_STAT_COUNT : Fld := ⟨16, 11⟩
def SMP_STAT_SKIPPED : Fld := ⟨32, 16⟩
def SMP_STAT_LOST : Fld := ⟨48, 16⟩
def R_SMP_IDX : Nat := 0x300810
def SMP_IDX_INDEX : Fld := ⟨0, 10⟩
def R_SMP_REC (n : Nat) : Nat := 0x300840 + n * 0x8
def SMP_REC_BYTES : Fld := ⟨0, 64⟩
def R_TR_CTL : Nat := 0x300900
def TR_CTL_RUN : Fld := ⟨0, 1⟩
def TR_CTL_STOP_FULL : Fld := ⟨1, 1⟩
def TR_CTL_STOP_ON_FATAL : Fld := ⟨2, 1⟩
def TR_CTL_REFUSED : Fld := ⟨3, 1⟩
def TR_CTL_CLEAR : Fld := ⟨4, 1⟩
def R_TR_STAT : Nat := 0x300908
def TR_STAT_NEXT : Fld := ⟨0, 14⟩
def TR_STAT_COUNT : Fld := ⟨16, 15⟩
def TR_STAT_LOST : Fld := ⟨32, 32⟩
def R_TR_ADDR : Nat := 0x300910
def TR_ADDR_LO : Fld := ⟨0, 32⟩
def TR_ADDR_HI : Fld := ⟨32, 32⟩
def R_TR_MASK : Nat := 0x300918
def TR_MASK_REQS : Fld := ⟨0, 32⟩
def TR_MASK_CLASSES : Fld := ⟨32, 5⟩
def TR_MASK_DESTS : Fld := ⟨40, 4⟩
def R_TR_IDX : Nat := 0x300920
def TR_IDX_INDEX : Fld := ⟨0, 14⟩
def R_TR_ENT (n : Nat) : Nat := 0x300940 + n * 0x8
def TR_ENT_BYTES : Fld := ⟨0, 64⟩
def R_CEL_CTL : Nat := 0x300a00
def CEL_CTL_ENABLE : Fld := ⟨0, 1⟩
def R_CEL_STAT : Nat := 0x300a08
def CEL_STAT_RESULT : Fld := ⟨0, 2⟩
def CEL_STAT_CAUSE : Fld := ⟨8, 8⟩
def CEL_STAT_DETAIL : Fld := ⟨32, 32⟩
def R_CEL_TIME : Nat := 0x300a10
def CEL_TIME_TIME : Fld := ⟨0, 64⟩
def R_CEL_LAST : Nat := 0x300a18
def CEL_LAST_RESULT : Fld := ⟨0, 2⟩
def CEL_LAST_CAUSE : Fld := ⟨8, 8⟩
def CEL_LAST_STARTS : Fld := ⟨16, 32⟩
def CEL_LAST_COUNT : Fld := ⟨48, 16⟩

/-- The registers of block 0x01. -/
def regRows01 : List RegRow := [
  ⟨"glb_time", 0, 0x10000, 1, 0x8, 1, 0x8,
    [⟨"time", ⟨0, 64⟩, .ro, false, false, 0⟩]⟩,
  ⟨"glb_scratch", 0, 0x10008, 1, 0x8, 1, 0x8,
    [⟨"data", ⟨0, 64⟩, .rw, false, false, 0⟩]⟩]

/-- The registers of block 0x00. -/
def regRows00 : List RegRow := [
  ⟨"id_device", 0, 0x0, 1, 0x8, 1, 0x8,
    [⟨"vendor", ⟨48, 16⟩, .ro, false, false, 0x4e4c⟩, ⟨"family", ⟨32, 16⟩, .ro, false, false, 0x4a5a⟩, ⟨"part", ⟨16, 16⟩, .ro, false, false, 0⟩, ⟨"step_major", ⟨12, 4⟩, .ro, false, false, 0⟩, ⟨"step_minor", ⟨8, 4⟩, .ro, false, false, 0⟩]⟩,
  ⟨"id_firmware", 0, 0x8, 1, 0x8, 1, 0x8,
    [⟨"build", ⟨32, 32⟩, .ro, false, false, 0⟩, ⟨"major", ⟨16, 16⟩, .ro, false, false, 0⟩, ⟨"minor", ⟨0, 16⟩, .ro, false, false, 0⟩]⟩,
  ⟨"id_serial", 0, 0x10, 1, 0x8, 1, 0x8,
    [⟨"serial", ⟨0, 64⟩, .ro, true, false, 0⟩]⟩,
  ⟨"id_cap_array", 0, 0x20, 1, 0x8, 1, 0x8,
    [⟨"ports", ⟨0, 8⟩, .ro, false, false, 0⟩, ⟨"regions", ⟨8, 8⟩, .ro, false, false, 0⟩, ⟨"banks_per_region", ⟨16, 4⟩, .ro, false, false, 0⟩, ⟨"spare_banks", ⟨20, 4⟩, .ro, false, false, 0⟩, ⟨"region_mib", ⟨24, 8⟩, .ro, false, false, 0⟩, ⟨"array_mib", ⟨32, 16⟩, .ro, false, false, 0⟩]⟩,
  ⟨"id_cap_units", 0, 0x28, 1, 0x8, 1, 0x8,
    [⟨"engines", ⟨0, 16⟩, .ro, false, false, 0⟩, ⟨"match", ⟨16, 1⟩, .ro, false, false, 0⟩, ⟨"fw128", ⟨17, 1⟩, .ro, false, false, 0⟩, ⟨"pair", ⟨18, 1⟩, .ro, false, false, 0⟩, ⟨"match_contexts", ⟨32, 16⟩, .ro, false, false, 0⟩, ⟨"vats", ⟨48, 16⟩, .ro, false, false, 0x400⟩]⟩,
  ⟨"id_cap_stores", 0, 0x30, 1, 0x8, 1, 0x8,
    [⟨"semaphores", ⟨0, 32⟩, .ro, false, false, 0x10000⟩, ⟨"mailboxes", ⟨32, 16⟩, .ro, false, false, 0⟩]⟩,
  ⟨"id_cap_intr", 0, 0x38, 1, 0x8, 1, 0x8,
    [⟨"targets", ⟨0, 36⟩, .ro, false, false, 0⟩, ⟨"private_sources", ⟨40, 13⟩, .ro, false, false, 0⟩]⟩,
  ⟨"id_cap_cellar", 0, 0x40, 1, 0x8, 1, 0x8,
    [⟨"base", ⟨0, 32⟩, .ro, false, false, 0⟩, ⟨"size_kib", ⟨32, 16⟩, .ro, false, false, 0x400⟩]⟩,
  ⟨"id_cap_link", 0, 0x48, 1, 0x8, 1, 0x8,
    [⟨"rates", ⟨0, 3⟩, .ro, false, false, 7⟩, ⟨"lanes", ⟨4, 4⟩, .ro, false, false, 8⟩, ⟨"spare_lane", ⟨8, 1⟩, .ro, false, false, 1⟩]⟩,
  ⟨"id_cap_obs", 0, 0x50, 1, 0x8, 1, 0x8,
    [⟨"counters", ⟨0, 16⟩, .ro, false, false, 0x40⟩, ⟨"sampler", ⟨16, 16⟩, .ro, false, false, 0x400⟩, ⟨"trace", ⟨32, 16⟩, .ro, false, false, 0x4000⟩]⟩]

/-- The registers of block 0x10. -/
def regRows10 : List RegRow := [
  ⟨"arb_share", 0, 0x100000, 1, 0x8, 1, 0x8,
    [⟨"h0", ⟨0, 2⟩, .rw, false, false, 2⟩, ⟨"h1", ⟨2, 2⟩, .rw, false, false, 2⟩, ⟨"h2", ⟨4, 2⟩, .rw, false, false, 2⟩, ⟨"h3", ⟨6, 2⟩, .rw, false, false, 2⟩, ⟨"h4", ⟨8, 2⟩, .rw, false, false, 2⟩, ⟨"h5", ⟨10, 2⟩, .rw, false, false, 2⟩, ⟨"h6", ⟨12, 2⟩, .rw, false, false, 2⟩, ⟨"h7", ⟨14, 2⟩, .rw, false, false, 2⟩]⟩,
  ⟨"arb_weight", 0, 0x100008, 1, 0x8, 1, 0x8,
    [⟨"e0", ⟨0, 2⟩, .rw, false, false, 0⟩, ⟨"e1", ⟨2, 2⟩, .rw, false, false, 0⟩, ⟨"e2", ⟨4, 2⟩, .rw, false, false, 0⟩, ⟨"e3", ⟨6, 2⟩, .rw, false, false, 0⟩, ⟨"e4", ⟨8, 2⟩, .rw, false, false, 0⟩, ⟨"e5", ⟨10, 2⟩, .rw, false, false, 0⟩, ⟨"e6", ⟨12, 2⟩, .rw, false, false, 0⟩, ⟨"e7", ⟨14, 2⟩, .rw, false, false, 0⟩, ⟨"e8", ⟨16, 2⟩, .rw, false, false, 0⟩, ⟨"e9", ⟨18, 2⟩, .rw, false, false, 0⟩, ⟨"e10", ⟨20, 2⟩, .rw, false, false, 0⟩, ⟨"e11", ⟨22, 2⟩, .rw, false, false, 0⟩, ⟨"e12", ⟨24, 2⟩, .rw, false, false, 0⟩, ⟨"e13", ⟨26, 2⟩, .rw, false, false, 0⟩, ⟨"e14", ⟨28, 2⟩, .rw, false, false, 0⟩, ⟨"e15", ⟨30, 2⟩, .rw, false, false, 0⟩, ⟨"pair", ⟨32, 2⟩, .rw, false, false, 0⟩]⟩,
  ⟨"arb_ctl", 0, 0x100010, 1, 0x8, 1, 0x8,
    [⟨"stat_clear", ⟨0, 1⟩, .wo, false, false, 0⟩]⟩,
  ⟨"arb_splits", 0, 0x100018, 1, 0x8, 1, 0x8,
    [⟨"count", ⟨0, 48⟩, .ro, false, false, 0⟩]⟩,
  ⟨"arb_bankstat", 1, 0x100100, 64, 0x8, 1, 0x8,
    [⟨"collisions", ⟨0, 32⟩, .ro, false, false, 0⟩, ⟨"combined", ⟨32, 32⟩, .ro, false, false, 0⟩]⟩]

/-- The registers of block 0x14. -/
def regRows14 : List RegRow := [
  ⟨"sem_clear", 0, 0x140000, 1, 0x8, 1, 0x8,
    [⟨"first", ⟨0, 16⟩, .rw, false, false, 0⟩, ⟨"start", ⟨16, 1⟩, .w1s, false, false, 0⟩, ⟨"count", ⟨32, 17⟩, .rw, false, false, 0⟩, ⟨"busy", ⟨63, 1⟩, .ro, false, false, 0⟩]⟩,
  ⟨"sem_forced", 0, 0x140008, 1, 0x8, 1, 0x8,
    [⟨"count", ⟨0, 32⟩, .ro, false, false, 0⟩]⟩,
  ⟨"sem_denied", 0, 0x140010, 1, 0x8, 1, 0x8,
    [⟨"count", ⟨0, 32⟩, .ro, false, false, 0⟩]⟩,
  ⟨"sem_last_forced", 0, 0x140018, 1, 0x8, 1, 0x8,
    [⟨"sem", ⟨0, 16⟩, .ro, false, false, 0⟩, ⟨"by", ⟨16, 5⟩, .ro, false, false, 0⟩, ⟨"by_slot", ⟨21, 2⟩, .ro, false, false, 0⟩, ⟨"prior_owner", ⟨32, 24⟩, .ro, false, false, 0⟩, ⟨"valid", ⟨63, 1⟩, .w1c, false, false, 0⟩]⟩,
  ⟨"sem_trystat", 0, 0x140020, 1, 0x8, 1, 0x8,
    [⟨"taken", ⟨0, 32⟩, .ro, false, false, 0⟩, ⟨"refused", ⟨32, 32⟩, .ro, false, false, 0⟩]⟩,
  ⟨"sem_notified", 0, 0x140028, 1, 0x8, 1, 0x8,
    [⟨"count", ⟨0, 32⟩, .ro, false, false, 0⟩]⟩,
  ⟨"sem_ctl", 0, 0x140030, 1, 0x8, 1, 0x8,
    [⟨"stat_clear", ⟨0, 1⟩, .wo, false, false, 0⟩]⟩]

/-- The registers of block 0x16. -/
def regRows16 : List RegRow := [
  ⟨"vat_ctl", 1, 0x160000, 1024, 0x40, 1, 0x8,
    [⟨"valid", ⟨0, 1⟩, .rw, false, false, 0⟩, ⟨"auto_rearm", ⟨1, 1⟩, .rw, false, false, 0⟩, ⟨"rearm", ⟨2, 1⟩, .w1s, false, false, 0⟩, ⟨"done", ⟨3, 1⟩, .ro, false, false, 0⟩, ⟨"fmt", ⟨4, 4⟩, .rw, false, false, 0⟩, ⟨"op", ⟨8, 3⟩, .rw, false, false, 0⟩, ⟨"stat_clear", ⟨11, 1⟩, .wo, false, false, 0⟩, ⟨"scale", ⟨16, 12⟩, .rw, false, false, 0⟩]⟩,
  ⟨"vat_range", 1, 0x160008, 1024, 0x40, 1, 0x8,
    [⟨"base", ⟨12, 20⟩, .rw, false, false, 0⟩, ⟨"len4k", ⟨32, 13⟩, .rw, false, false, 0⟩]⟩,
  ⟨"vat_count", 1, 0x160010, 1024, 0x40, 1, 0x8,
    [⟨"expected", ⟨0, 32⟩, .rw, false, false, 0⟩, ⟨"tally", ⟨32, 32⟩, .rw, false, false, 0⟩]⟩,
  ⟨"vat_mbx", 1, 0x160018, 1024, 0x40, 1, 0x8,
    [⟨"mailbox", ⟨0, 12⟩, .rw, false, false, 0⟩, ⟨"bind", ⟨63, 1⟩, .rw, false, false, 0⟩]⟩,
  ⟨"vat_flags", 1, 0x160020, 1024, 0x40, 1, 0x8,
    [⟨"ovf", ⟨0, 1⟩, .w1c, false, false, 0⟩, ⟨"early", ⟨32, 32⟩, .ro, false, false, 0⟩]⟩,
  ⟨"vat_loss", 1, 0x160028, 1024, 0x40, 1, 0x8,
    [⟨"loss", ⟨0, 32⟩, .ro, false, false, 0⟩, ⟨"mismatch", ⟨32, 32⟩, .ro, false, false, 0⟩]⟩,
  ⟨"vat_events", 1, 0x160030, 1024, 0x40, 1, 0x8,
    [⟨"nonfinite", ⟨0, 32⟩, .ro, false, false, 0⟩, ⟨"completions", ⟨32, 32⟩, .ro, false, false, 0⟩]⟩,
  ⟨"vat_reject", 1, 0x160038, 1024, 0x40, 1, 0x8,
    [⟨"code", ⟨0, 4⟩, .ro, false, false, 0⟩, ⟨"other", ⟨16, 10⟩, .ro, false, false, 0⟩]⟩]

/-- The registers of block 0x15. -/
def regRows15 : List RegRow := [
  ⟨"mbx_ctl", 1, 0x150000, 4096, 0x8, 1, 0x8,
    [⟨"open", ⟨0, 1⟩, .rw, false, false, 0⟩, ⟨"overrun", ⟨8, 1⟩, .ro, false, false, 0⟩, ⟨"events", ⟨16, 16⟩, .ro, false, false, 0⟩, ⟨"writer_id", ⟨32, 5⟩, .ro, false, false, 0⟩, ⟨"writer_slot", ⟨37, 2⟩, .ro, false, false, 0⟩]⟩,
  ⟨"mbx_clear", 0, 0x158000, 1, 0x8, 1, 0x8,
    [⟨"first", ⟨0, 12⟩, .rw, false, false, 0⟩, ⟨"start", ⟨16, 1⟩, .w1s, false, false, 0⟩, ⟨"count", ⟨32, 13⟩, .rw, false, false, 0⟩, ⟨"busy", ⟨63, 1⟩, .ro, false, false, 0⟩]⟩,
  ⟨"mbx_doorbells", 0, 0x158008, 1, 0x8, 1, 0x8,
    [⟨"count", ⟨0, 48⟩, .ro, false, false, 0⟩]⟩,
  ⟨"mbx_overruns", 0, 0x158010, 1, 0x8, 1, 0x8,
    [⟨"count", ⟨0, 32⟩, .ro, false, false, 0⟩]⟩,
  ⟨"mbx_denied", 0, 0x158018, 1, 0x8, 1, 0x8,
    [⟨"count", ⟨0, 32⟩, .ro, false, false, 0⟩]⟩,
  ⟨"mbx_gctl", 0, 0x158020, 1, 0x8, 1, 0x8,
    [⟨"stat_clear", ⟨0, 1⟩, .wo, false, false, 0⟩]⟩]

/-- The registers of block 0x18. -/
def regRows18part0 : List RegRow := [
  ⟨"eng_ctl", 1, 0x180000, 16, 0x1000, 1, 0x8,
    [⟨"offline", ⟨0, 1⟩, .rw, false, false, 0⟩, ⟨"reset", ⟨1, 1⟩, .w1s, false, false, 0⟩]⟩,
  ⟨"eng_stat", 1, 0x180008, 16, 0x1000, 1, 0x8,
    [⟨"state", ⟨0, 3⟩, .ro, false, false, 0⟩, ⟨"racking", ⟨3, 1⟩, .ro, false, false, 0⟩, ⟨"faultq", ⟨8, 4⟩, .w1c, false, false, 0⟩, ⟨"badtail", ⟨12, 4⟩, .w1c, false, false, 0⟩, ⟨"rack_done", ⟨16, 1⟩, .w1c, false, false, 0⟩]⟩,
  ⟨"eng_accesses", 1, 0x180010, 16, 0x1000, 1, 0x8,
    [⟨"count", ⟨0, 48⟩, .ro, false, false, 0⟩]⟩,
  ⟨"eng_rack", 1, 0x180018, 16, 0x1000, 1, 0x8,
    [⟨"line", ⟨0, 17⟩, .ro, false, false, 0⟩, ⟨"bank", ⟨17, 6⟩, .ro, false, false, 0⟩, ⟨"spare", ⟨23, 1⟩, .ro, false, false, 0⟩, ⟨"active", ⟨24, 1⟩, .ro, false, false, 0⟩, ⟨"poisoned", ⟨32, 16⟩, .ro, false, false, 0⟩]⟩,
  ⟨"q_ring", 2, 0x180100, 16, 0x1000, 4, 0x80,
    [⟨"size", ⟨0, 4⟩, .rw, false, false, 0⟩, ⟨"base", ⟨12, 20⟩, .rw, false, false, 0⟩]⟩,
  ⟨"q_cfg", 2, 0x180108, 16, 0x1000, 4, 0x80,
    [⟨"enable", ⟨0, 1⟩, .rw, false, false, 0⟩, ⟨"port", ⟨1, 3⟩, .rw, false, false, 0⟩, ⟨"step", ⟨8, 8⟩, .rw, false, false, 0⟩]⟩,
  ⟨"q_head", 2, 0x180110, 16, 0x1000, 4, 0x80,
    [⟨"head", ⟨0, 32⟩, .rw, false, false, 0⟩]⟩,
  ⟨"q_tail", 2, 0x180118, 16, 0x1000, 4, 0x80,
    [⟨"tail", ⟨0, 32⟩, .rw, false, false, 0⟩]⟩,
  ⟨"q_state", 2, 0x180120, 16, 0x1000, 4, 0x80,
    [⟨"state", ⟨0, 3⟩, .ro, false, false, 0⟩, ⟨"last", ⟨3, 1⟩, .ro, false, false, 0⟩]⟩,
  ⟨"q_ctl", 2, 0x180128, 16, 0x1000, 4, 0x80,
    [⟨"stop", ⟨0, 1⟩, .w1s, false, false, 0⟩, ⟨"go", ⟨1, 1⟩, .w1s, false, false, 0⟩, ⟨"resume_retry", ⟨2, 1⟩, .w1s, false, false, 0⟩, ⟨"resume_skip", ⟨3, 1⟩, .w1s, false, false, 0⟩]⟩]
def regRows18part1 : List RegRow := [
  ⟨"q_fault", 2, 0x180130, 16, 0x1000, 4, 0x80,
    [⟨"index", ⟨0, 32⟩, .ro, false, false, 0⟩, ⟨"opcode", ⟨32, 8⟩, .ro, false, false, 0⟩, ⟨"status", ⟨40, 8⟩, .ro, false, false, 0⟩]⟩,
  ⟨"q_faultaddr", 2, 0x180138, 16, 0x1000, 4, 0x80,
    [⟨"addr", ⟨0, 32⟩, .ro, false, false, 0⟩]⟩,
  ⟨"q_count", 2, 0x180140, 16, 0x1000, 4, 0x80,
    [⟨"done", ⟨0, 32⟩, .ro, false, false, 0⟩, ⟨"failed", ⟨32, 32⟩, .ro, false, false, 0⟩]⟩,
  ⟨"q_starts", 2, 0x180148, 16, 0x1000, 4, 0x80,
    [⟨"starts", ⟨0, 32⟩, .ro, false, false, 0⟩, ⟨"badtail", ⟨32, 16⟩, .ro, false, false, 0⟩, ⟨"dropped", ⟨48, 16⟩, .ro, false, false, 0⟩]⟩]
/-- The registers of block 0x18. -/
def regRows18 : List RegRow := regRows18part0 ++ regRows18part1

/-- The registers of block 0x19. -/
def regRows19 : List RegRow := [
  ⟨"mc_ctl", 1, 0x190000, 256, 0x40, 1, 0x8,
    [⟨"enable", ⟨0, 1⟩, .rw, false, false, 0⟩, ⟨"k", ⟨1, 4⟩, .rw, false, false, 0⟩, ⟨"ports", ⟨8, 8⟩, .rw, false, false, 0⟩, ⟨"locksem", ⟨16, 16⟩, .rw, false, false, 0⟩]⟩,
  ⟨"mc_base", 1, 0x190008, 256, 0x40, 1, 0x8,
    [⟨"base", ⟨6, 26⟩, .rw, false, false, 0⟩]⟩,
  ⟨"mc_pool", 1, 0x190010, 256, 0x40, 1, 0x8,
    [⟨"base", ⟨6, 26⟩, .rw, false, false, 0⟩, ⟨"count", ⟨32, 19⟩, .rw, false, false, 0⟩]⟩,
  ⟨"mc_stat", 1, 0x190018, 256, 0x40, 1, 0x8,
    [⟨"ops", ⟨0, 32⟩, .ro, false, false, 0⟩, ⟨"matched", ⟨32, 32⟩, .ro, false, false, 0⟩]⟩,
  ⟨"mc_walk", 1, 0x190020, 256, 0x40, 1, 0x8,
    [⟨"steps", ⟨0, 32⟩, .ro, false, false, 0⟩, ⟨"maxrun", ⟨32, 16⟩, .ro, false, false, 0⟩]⟩,
  ⟨"mc_err", 1, 0x190028, 256, 0x40, 1, 0x8,
    [⟨"badlist", ⟨0, 32⟩, .ro, false, false, 0⟩, ⟨"lockwait", ⟨32, 32⟩, .ro, false, false, 0⟩]⟩,
  ⟨"mc_gctl", 0, 0x194000, 1, 0x8, 1, 0x8,
    [⟨"stat_clear", ⟨0, 1⟩, .wo, false, false, 0⟩]⟩]

/-- The registers of block 0x20. -/
def regRows20 : List RegRow := [
  ⟨"src_entry", 1, 0x200000, 4608, 0x8, 1, 0x8,
    [⟨"enable", ⟨0, 1⟩, .rw, false, false, 0⟩, ⟨"priority", ⟨1, 4⟩, .rw, false, false, 0⟩, ⟨"trigger", ⟨5, 1⟩, .rw, false, false, 0⟩, ⟨"pending", ⟨6, 1⟩, .w1c, false, false, 0⟩, ⟨"active", ⟨7, 1⟩, .ro, false, false, 0⟩, ⟨"set_pend", ⟨8, 1⟩, .w1s, false, false, 0⟩, ⟨"raw", ⟨9, 1⟩, .ro, false, false, 0⟩, ⟨"count", ⟨16, 8⟩, .ro, false, false, 0⟩, ⟨"count_ovf", ⟨24, 1⟩, .w1c, false, false, 0⟩, ⟨"target", ⟨32, 6⟩, .rw, false, false, 0x20⟩]⟩]

/-- The registers of block 0x21. -/
def regRows21 : List RegRow := [
  ⟨"tgt_ctl", 1, 0x210000, 36, 0x100, 1, 0x8,
    [⟨"threshold", ⟨0, 4⟩, .rw, false, false, 0⟩, ⟨"deliver", ⟨4, 1⟩, .rw, false, false, 0⟩, ⟨"asleep", ⟨5, 1⟩, .rw, false, false, 0⟩]⟩,
  ⟨"tgt_claim", 1, 0x210008, 36, 0x100, 1, 0x8,
    [⟨"source", ⟨0, 13⟩, .ro, false, false, 0⟩, ⟨"priority", ⟨16, 4⟩, .ro, false, false, 0⟩, ⟨"count", ⟨24, 8⟩, .ro, false, false, 0⟩, ⟨"count_ovf", ⟨32, 1⟩, .ro, false, false, 0⟩, ⟨"level", ⟨33, 1⟩, .ro, false, false, 0⟩, ⟨"raw", ⟨34, 1⟩, .ro, false, false, 0⟩, ⟨"valid", ⟨63, 1⟩, .ro, false, false, 0⟩]⟩,
  ⟨"tgt_eoi", 1, 0x210010, 36, 0x100, 1, 0x8,
    [⟨"source", ⟨0, 13⟩, .wo, false, false, 0⟩]⟩,
  ⟨"tgt_stack", 1, 0x210018, 36, 0x100, 1, 0x8,
    [⟨"depth", ⟨0, 4⟩, .ro, false, false, 0⟩, ⟨"top", ⟨4, 4⟩, .ro, false, false, 0⟩, ⟨"top_source", ⟨8, 13⟩, .ro, false, false, 0⟩]⟩,
  ⟨"tgt_best", 1, 0x210020, 36, 0x100, 1, 0x8,
    [⟨"source", ⟨0, 13⟩, .ro, false, false, 0⟩, ⟨"priority", ⟨16, 4⟩, .ro, false, false, 0⟩, ⟨"valid", ⟨63, 1⟩, .ro, false, false, 0⟩]⟩,
  ⟨"tgt_out", 1, 0x210028, 36, 0x100, 1, 0x8,
    [⟨"source", ⟨0, 13⟩, .ro, false, false, 0⟩, ⟨"priority", ⟨16, 4⟩, .ro, false, false, 0⟩, ⟨"valid", ⟨63, 1⟩, .ro, false, false, 0⟩]⟩,
  ⟨"tgt_msgs", 1, 0x210030, 36, 0x100, 1, 0x8,
    [⟨"intrs", ⟨0, 32⟩, .ro, false, false, 0⟩, ⟨"wakes", ⟨32, 16⟩, .ro, false, false, 0⟩, ⟨"withdraws", ⟨48, 16⟩, .ro, false, false, 0⟩]⟩,
  ⟨"tgt_err", 1, 0x210038, 36, 0x100, 1, 0x8,
    [⟨"badeoi", ⟨0, 16⟩, .ro, false, false, 0⟩, ⟨"empty_claims", ⟨16, 16⟩, .ro, false, false, 0⟩, ⟨"held", ⟨32, 16⟩, .ro, false, false, 0⟩]⟩,
  ⟨"tgt_stack", 2, 0x210040, 36, 0x100, 15, 0x8,
    [⟨"source", ⟨0, 13⟩, .ro, false, false, 0⟩, ⟨"priority", ⟨16, 4⟩, .ro, false, false, 0⟩, ⟨"valid", ⟨63, 1⟩, .ro, false, false, 0⟩]⟩]

/-- The registers of block 0x11. -/
def regRows11part0 : List RegRow := [
  ⟨"int_ctl", 0, 0x110000, 1, 0x8, 1, 0x8,
    [⟨"auto_remap", ⟨0, 1⟩, .rw, true, false, 0⟩, ⟨"lees_lock", ⟨1, 1⟩, .rw, false, false, 0⟩, ⟨"ue_lock", ⟨2, 1⟩, .rw, false, false, 0⟩, ⟨"scrub_en", ⟨3, 1⟩, .rw, false, false, 1⟩, ⟨"log_clear", ⟨4, 1⟩, .wo, false, false, 0⟩, ⟨"stat_clear", ⟨5, 1⟩, .wo, false, false, 0⟩]⟩,
  ⟨"int_stat", 0, 0x110008, 1, 0x8, 1, 0x8,
    [⟨"scrub_ue", ⟨0, 1⟩, .w1c, false, false, 0⟩, ⟨"hardfault", ⟨1, 1⟩, .w1c, false, false, 0⟩, ⟨"remap", ⟨2, 1⟩, .w1c, false, false, 0⟩, ⟨"lees_full", ⟨3, 1⟩, .w1c, false, false, 0⟩, ⟨"remap_full", ⟨4, 1⟩, .w1c, false, false, 0⟩, ⟨"tk_disagree", ⟨5, 1⟩, .w1c, false, false, 0⟩]⟩,
  ⟨"int_totals", 0, 0x110010, 1, 0x8, 1, 0x8,
    [⟨"ce", ⟨0, 32⟩, .ro, false, false, 0⟩, ⟨"ue", ⟨32, 32⟩, .ro, false, false, 0⟩]⟩,
  ⟨"int_poison", 0, 0x110018, 1, 0x8, 1, 0x8,
    [⟨"poisoned", ⟨0, 32⟩, .ro, false, false, 0⟩, ⟨"answers", ⟨32, 32⟩, .ro, false, false, 0⟩]⟩,
  ⟨"int_scrub_cfg", 0, 0x110020, 1, 0x8, 1, 0x8,
    [⟨"period_min", ⟨0, 16⟩, .rw, false, false, 0x5a0⟩]⟩,
  ⟨"int_scrub_pos", 0, 0x110028, 1, 0x8, 1, 0x8,
    [⟨"line", ⟨0, 17⟩, .ro, false, false, 0⟩, ⟨"bank", ⟨17, 6⟩, .ro, false, false, 0⟩, ⟨"stores", ⟨23, 1⟩, .ro, false, false, 0⟩, ⟨"passes", ⟨32, 32⟩, .ro, false, false, 0⟩]⟩,
  ⟨"int_scrub_stat", 0, 0x110030, 1, 0x8, 1, 0x8,
    [⟨"skipped", ⟨0, 32⟩, .ro, false, false, 0⟩, ⟨"late", ⟨32, 16⟩, .ro, false, false, 0⟩]⟩,
  ⟨"int_hf_cfg", 0, 0x110038, 1, 0x8, 1, 0x8,
    [⟨"window_s", ⟨0, 16⟩, .rw, false, false, 0xe10⟩]⟩,
  ⟨"int_hf", 0, 0x110040, 1, 0x8, 1, 0x8,
    [⟨"addr", ⟨0, 32⟩, .ro, false, false, 0⟩, ⟨"line", ⟨32, 17⟩, .ro, false, false, 0⟩, ⟨"phys", ⟨49, 7⟩, .ro, false, false, 0⟩, ⟨"full", ⟨56, 1⟩, .ro, false, false, 0⟩, ⟨"remapped", ⟨57, 1⟩, .ro, false, false, 0⟩, ⟨"valid", ⟨63, 1⟩, .w1c, false, false, 0⟩]⟩,
  ⟨"int_hfcount", 0, 0x110048, 1, 0x8, 1, 0x8,
    [⟨"candidates", ⟨0, 32⟩, .ro, false, false, 0⟩, ⟨"remaps", ⟨32, 32⟩, .ro, false, false, 0⟩]⟩]
def regRows11part1 : List RegRow := [
  ⟨"int_lees_ctl", 0, 0x110050, 1, 0x8, 1, 0x8,
    [⟨"head", ⟨0, 5⟩, .ro, false, false, 0⟩, ⟨"count", ⟨8, 6⟩, .ro, false, false, 0⟩, ⟨"lost", ⟨32, 32⟩, .ro, false, false, 0⟩]⟩,
  ⟨"int_ue_ctl", 0, 0x110058, 1, 0x8, 1, 0x8,
    [⟨"head", ⟨0, 4⟩, .ro, false, false, 0⟩, ⟨"count", ⟨8, 5⟩, .ro, false, false, 0⟩, ⟨"lost", ⟨32, 32⟩, .ro, false, false, 0⟩]⟩,
  ⟨"int_tk_stat", 0, 0x110060, 1, 0x8, 1, 0x8,
    [⟨"disagree", ⟨0, 32⟩, .ro, false, false, 0⟩, ⟨"last", ⟨32, 7⟩, .ro, false, false, 0⟩]⟩,
  ⟨"int_inject", 0, 0x110068, 1, 0x8, 1, 0x8,
    [⟨"addr", ⟨5, 27⟩, .rw, false, false, 0⟩, ⟨"pos_a", ⟨32, 9⟩, .rw, false, false, 0x1ff⟩, ⟨"pos_b", ⟨41, 9⟩, .rw, false, false, 0x1ff⟩, ⟨"pos_c", ⟨50, 9⟩, .rw, false, false, 0x1ff⟩, ⟨"arm", ⟨63, 1⟩, .rw, false, false, 0⟩]⟩,
  ⟨"int_selftest", 0, 0x110070, 1, 0x8, 1, 0x8,
    [⟨"banks", ⟨0, 64⟩, .ro, false, false, 0⟩]⟩,
  ⟨"int_selftest_x", 0, 0x110078, 1, 0x8, 1, 0x8,
    [⟨"bs0", ⟨0, 1⟩, .ro, false, false, 0⟩, ⟨"bs1", ⟨1, 1⟩, .ro, false, false, 0⟩, ⟨"semstore", ⟨2, 1⟩, .ro, false, false, 0⟩, ⟨"mbxstore", ⟨3, 1⟩, .ro, false, false, 0⟩]⟩,
  ⟨"int_uniterr", 1, 0x110100, 68, 0x8, 1, 0x8,
    [⟨"ce", ⟨0, 16⟩, .ro, false, false, 0⟩, ⟨"ue", ⟨16, 16⟩, .ro, false, false, 0⟩, ⟨"remaps", ⟨32, 4⟩, .ro, false, true, 0⟩, ⟨"suspect", ⟨36, 1⟩, .ro, false, true, 0⟩]⟩,
  ⟨"int_lees", 2, 0x111000, 32, 0x20, 4, 0x8,
    [⟨"entry", ⟨0, 64⟩, .ro, false, false, 0⟩]⟩,
  ⟨"int_uelog", 2, 0x111400, 16, 0x20, 4, 0x8,
    [⟨"entry", ⟨0, 64⟩, .ro, false, false, 0⟩]⟩]
/-- The registers of block 0x11. -/
def regRows11 : List RegRow := regRows11part0 ++ regRows11part1

/-- The registers of block 0x12. -/
def regRows12part0 : List RegRow := [
  ⟨"tst_bg", 0, 0x120000, 1, 0x8, 1, 0x8,
    [⟨"bg_en", ⟨0, 1⟩, .rw, false, false, 0⟩, ⟨"yield", ⟨1, 1⟩, .rw, false, false, 1⟩, ⟨"algo", ⟨2, 1⟩, .rw, false, false, 0⟩, ⟨"spares", ⟨3, 1⟩, .rw, false, false, 1⟩, ⟨"gap_us", ⟨16, 16⟩, .rw, false, false, 0x3e8⟩]⟩,
  ⟨"tst_bg_banks", 0, 0x120008, 1, 0x8, 1, 0x8,
    [⟨"banks", ⟨0, 64⟩, .rw, false, false, 0xffffffffffffffff⟩]⟩,
  ⟨"tst_cmd", 0, 0x120010, 1, 0x8, 1, 0x8,
    [⟨"unit", ⟨0, 7⟩, .rw, false, false, 0⟩, ⟨"mode", ⟨8, 2⟩, .rw, false, false, 0⟩, ⟨"algo", ⟨10, 1⟩, .rw, false, false, 0⟩, ⟨"empty", ⟨11, 1⟩, .rw, false, false, 0⟩, ⟨"group", ⟨16, 11⟩, .rw, false, false, 0⟩, ⟨"start", ⟨63, 1⟩, .w1s, false, false, 0⟩]⟩,
  ⟨"tst_stat", 0, 0x120018, 1, 0x8, 1, 0x8,
    [⟨"state", ⟨0, 2⟩, .ro, false, false, 0⟩, ⟨"code", ⟨4, 4⟩, .ro, false, false, 0⟩, ⟨"groups", ⟨16, 11⟩, .ro, false, false, 0⟩]⟩,
  ⟨"tst_result", 0, 0x120020, 1, 0x8, 1, 0x8,
    [⟨"line", ⟨0, 17⟩, .ro, false, false, 0⟩, ⟨"cell", ⟨17, 11⟩, .ro, false, false, 0⟩, ⟨"unit", ⟨28, 7⟩, .ro, false, false, 0⟩, ⟨"fails", ⟨48, 15⟩, .ro, false, false, 0⟩, ⟨"valid", ⟨63, 1⟩, .w1c, false, false, 0⟩]⟩,
  ⟨"tst_holds", 0, 0x120028, 1, 0x8, 1, 0x8,
    [⟨"held", ⟨0, 24⟩, .ro, false, false, 0⟩, ⟨"busy", ⟨24, 24⟩, .ro, false, false, 0⟩, ⟨"yields", ⟨48, 16⟩, .ro, false, false, 0⟩]⟩,
  ⟨"tst_ctl", 0, 0x120030, 1, 0x8, 1, 0x8,
    [⟨"stat_clear", ⟨0, 1⟩, .wo, false, false, 0⟩, ⟨"abort", ⟨1, 1⟩, .w1s, false, false, 0⟩]⟩,
  ⟨"ret_map", 0, 0x120040, 1, 0x8, 1, 0x8,
    [⟨"map", ⟨0, 64⟩, .ro, true, true, 0⟩]⟩,
  ⟨"ret_cmd", 0, 0x120048, 1, 0x8, 1, 0x8,
    [⟨"bank", ⟨0, 6⟩, .rw, false, false, 0⟩, ⟨"engine", ⟨8, 4⟩, .rw, false, false, 0⟩, ⟨"eng_sel", ⟨12, 1⟩, .rw, false, false, 0⟩, ⟨"start", ⟨63, 1⟩, .w1s, false, false, 0⟩]⟩,
  ⟨"ret_stat", 0, 0x120050, 1, 0x8, 1, 0x8,
    [⟨"free", ⟨0, 2⟩, .ro, false, false, 0⟩, ⟨"code", ⟨4, 4⟩, .ro, false, false, 0⟩, ⟨"pending", ⟨8, 1⟩, .ro, false, false, 0⟩]⟩]
def regRows12part1 : List RegRow := [
  ⟨"rmp_cmd", 0, 0x120058, 1, 0x8, 1, 0x8,
    [⟨"unit", ⟨0, 7⟩, .rw, false, false, 0⟩, ⟨"line", ⟨16, 16⟩, .rw, false, false, 0⟩, ⟨"go", ⟨63, 1⟩, .w1s, false, false, 0⟩]⟩,
  ⟨"rmp_stat", 0, 0x120060, 1, 0x8, 1, 0x8,
    [⟨"busy", ⟨0, 1⟩, .ro, false, false, 0⟩, ⟨"code", ⟨4, 4⟩, .ro, false, false, 0⟩]⟩,
  ⟨"tst_eng", 0, 0x120068, 1, 0x8, 1, 0x8,
    [⟨"engine", ⟨0, 4⟩, .rw, false, false, 0⟩, ⟨"go", ⟨63, 1⟩, .w1s, false, false, 0⟩]⟩,
  ⟨"tst_engres", 0, 0x120070, 1, 0x8, 1, 0x8,
    [⟨"passed", ⟨0, 16⟩, .ro, false, false, 0⟩, ⟨"failed", ⟨16, 16⟩, .ro, false, false, 0⟩, ⟨"running", ⟨32, 16⟩, .ro, false, false, 0⟩]⟩,
  ⟨"tst_bgpos", 1, 0x120100, 66, 0x8, 1, 0x8,
    [⟨"group", ⟨0, 11⟩, .ro, false, false, 0⟩, ⟨"passes", ⟨32, 32⟩, .ro, false, false, 0⟩]⟩,
  ⟨"rmp_entry", 2, 0x121000, 66, 0x40, 8, 0x8,
    [⟨"line", ⟨0, 16⟩, .ro, true, false, 0⟩, ⟨"state", ⟨16, 2⟩, .ro, true, false, 0⟩]⟩]
/-- The registers of block 0x12. -/
def regRows12 : List RegRow := regRows12part0 ++ regRows12part1

/-- The registers of block 0x0A. -/
def regRows0Apart0 : List RegRow := [
  ⟨"lph_ctl", 1, 0xa0000, 8, 0x1000, 1, 0x8,
    [⟨"rates", ⟨0, 3⟩, .rw, false, false, 7⟩, ⟨"precode_req", ⟨3, 1⟩, .rw, false, false, 0⟩, ⟨"auto_spare", ⟨4, 1⟩, .rw, false, false, 1⟩, ⟨"freeze_en", ⟨5, 1⟩, .rw, false, false, 1⟩, ⟨"ei_en", ⟨6, 1⟩, .rw, false, false, 1⟩, ⟨"allow_fe", ⟨7, 1⟩, .rw, false, false, 0⟩, ⟨"loop", ⟨8, 2⟩, .rw, false, false, 0⟩, ⟨"pattern", ⟨10, 2⟩, .rw, false, false, 0⟩, ⟨"retrain", ⟨12, 1⟩, .w1s, false, false, 0⟩, ⟨"unspare", ⟨13, 1⟩, .w1s, false, false, 0⟩, ⟨"spare_now", ⟨14, 1⟩, .w1s, false, false, 0⟩, ⟨"spare_lane", ⟨15, 3⟩, .rw, false, false, 0⟩, ⟨"ei_idle_us", ⟨32, 16⟩, .rw, false, false, 0x14⟩]⟩,
  ⟨"lph_stat", 1, 0xa0008, 8, 0x1000, 1, 0x8,
    [⟨"state", ⟨0, 4⟩, .ro, false, false, 0⟩, ⟨"rate", ⟨4, 2⟩, .ro, false, false, 0⟩, ⟨"precode_tx", ⟨6, 1⟩, .ro, false, false, 0⟩, ⟨"precode_rx", ⟨7, 1⟩, .ro, false, false, 0⟩, ⟨"ei", ⟨8, 1⟩, .ro, false, false, 0⟩, ⟨"retraining", ⟨9, 1⟩, .ro, false, false, 0⟩, ⟨"reversed", ⟨10, 1⟩, .ro, false, false, 0⟩, ⟨"rx_spared", ⟨11, 3⟩, .ro, false, false, 0⟩, ⟨"rx_spare_used", ⟨14, 1⟩, .ro, false, false, 0⟩, ⟨"tx_spared", ⟨15, 3⟩, .ro, false, false, 0⟩, ⟨"tx_spare_used", ⟨18, 1⟩, .ro, false, false, 0⟩, ⟨"attempt", ⟨19, 2⟩, .ro, false, false, 0⟩, ⟨"fail_cause", ⟨24, 4⟩, .ro, false, false, 0⟩]⟩,
  ⟨"lph_cnt_a", 1, 0xa0010, 8, 0x1000, 1, 0x8,
    [⟨"downs", ⟨0, 16⟩, .ro, false, false, 0⟩, ⟨"retrains", ⟨16, 16⟩, .ro, false, false, 0⟩, ⟨"readapts", ⟨32, 16⟩, .ro, false, false, 0⟩, ⟨"spares", ⟨48, 16⟩, .ro, false, false, 0⟩]⟩,
  ⟨"lph_cnt_b", 1, 0xa0018, 8, 0x1000, 1, 0x8,
    [⟨"failed_attempts", ⟨0, 16⟩, .ro, false, false, 0⟩, ⟨"unanswered", ⟨16, 16⟩, .ro, false, false, 0⟩, ⟨"ei_entries", ⟨32, 16⟩, .ro, false, false, 0⟩, ⟨"ei_refused", ⟨48, 16⟩, .ro, false, false, 0⟩]⟩,
  ⟨"lph_uptime", 1, 0xa0020, 8, 0x1000, 1, 0x8,
    [⟨"up_at", ⟨0, 64⟩, .ro, false, false, 0⟩]⟩,
  ⟨"lrx_stat", 2, 0xa0100, 8, 0x1000, 9, 0x40,
    [⟨"emf", ⟨0, 8⟩, .ro, false, false, 0⟩, ⟨"emf_min", ⟨8, 8⟩, .ro, false, false, 0xff⟩, ⟨"mode", ⟨16, 2⟩, .ro, false, false, 3⟩, ⟨"signal", ⟨18, 1⟩, .ro, false, false, 0⟩, ⟨"locked", ⟨19, 1⟩, .ro, false, false, 0⟩, ⟨"logical", ⟨20, 4⟩, .ro, false, false, 0xf⟩, ⟨"inverted", ⟨24, 1⟩, .ro, false, false, 0⟩, ⟨"unusable", ⟨25, 1⟩, .ro, false, false, 0⟩, ⟨"min_clear", ⟨32, 1⟩, .wo, false, false, 0⟩]⟩,
  ⟨"lrx_eq", 2, 0xa0108, 8, 0x1000, 9, 0x40,
    [⟨"ctle", ⟨0, 5⟩, .ro, false, false, 0⟩, ⟨"dfe", ⟨8, 8⟩, .ro, false, false, 0⟩]⟩,
  ⟨"lrx_ffe0", 2, 0xa0110, 8, 0x1000, 9, 0x40,
    [⟨"taps0_7", ⟨0, 64⟩, .ro, false, false, 0⟩]⟩,
  ⟨"lrx_ffe1", 2, 0xa0118, 8, 0x1000, 9, 0x40,
    [⟨"taps8_11", ⟨0, 32⟩, .ro, false, false, 0⟩]⟩,
  ⟨"lrx_err", 2, 0xa0120, 8, 0x1000, 9, 0x40,
    [⟨"pattern_err", ⟨0, 32⟩, .ro, false, false, 0⟩, ⟨"lock_loss", ⟨32, 16⟩, .ro, false, false, 0⟩]⟩]
def regRows0Apart1 : List RegRow := [
  ⟨"ltx_fir", 2, 0xa0400, 8, 0x1000, 9, 0x10,
    [⟨"pre2", ⟨0, 6⟩, .ro, false, false, 0⟩, ⟨"pre1", ⟨8, 6⟩, .ro, false, false, 0x3a⟩, ⟨"main", ⟨16, 6⟩, .ro, false, false, 0x30⟩, ⟨"post1", ⟨24, 6⟩, .ro, false, false, 0x37⟩, ⟨"post2", ⟨32, 6⟩, .ro, false, false, 0⟩]⟩,
  ⟨"ltx_fix", 2, 0xa0408, 8, 0x1000, 9, 0x10,
    [⟨"taps", ⟨0, 38⟩, .rw, false, false, 0⟩, ⟨"enable", ⟨48, 1⟩, .rw, false, false, 0⟩]⟩,
  ⟨"ln_gcfg", 0, 0xa8000, 1, 0x8, 1, 0x8,
    [⟨"floor", ⟨0, 8⟩, .rw, false, false, 0x60⟩, ⟨"hard_floor", ⟨8, 8⟩, .rw, false, false, 0x40⟩, ⟨"eq_target", ⟨16, 8⟩, .rw, false, false, 0x80⟩, ⟨"band", ⟨24, 8⟩, .rw, false, false, 4⟩, ⟨"freeze_us", ⟨32, 16⟩, .rw, false, false, 0x64⟩, ⟨"floor_us", ⟨48, 8⟩, .rw, false, false, 0xa⟩]⟩,
  ⟨"ln_gcfg2", 0, 0xa8008, 1, 0x8, 1, 0x8,
    [⟨"readapt_us", ⟨0, 16⟩, .rw, false, false, 0x3e8⟩, ⟨"hyst", ⟨16, 8⟩, .rw, false, false, 0x10⟩, ⟨"hard_updates", ⟨24, 8⟩, .rw, false, false, 2⟩]⟩,
  ⟨"ln_gctl", 0, 0xa8010, 1, 0x8, 1, 0x8,
    [⟨"stat_clear", ⟨0, 1⟩, .wo, false, false, 0⟩]⟩]
/-- The registers of block 0x0A. -/
def regRows0A : List RegRow := regRows0Apart0 ++ regRows0Apart1

/-- The registers of block 0x02 + p. -/
def regRows02part0 : List RegRow := [
  ⟨"pt_ctl", 1, 0x20000, 8, 0x10000, 1, 0x8,
    [⟨"replay_ns", ⟨0, 16⟩, .rw, false, false, 0x3e8⟩, ⟨"stat_clear", ⟨16, 1⟩, .wo, false, false, 0⟩]⟩,
  ⟨"pt_stat", 1, 0x20008, 8, 0x10000, 1, 0x8,
    [⟨"ev_up", ⟨0, 1⟩, .w1c, false, false, 0⟩, ⟨"ev_down", ⟨1, 1⟩, .w1c, false, false, 0⟩, ⟨"ev_unanswered", ⟨2, 1⟩, .w1c, false, false, 0⟩, ⟨"ev_loopback", ⟨3, 1⟩, .w1c, false, false, 0⟩, ⟨"ev_retrain", ⟨4, 1⟩, .w1c, false, false, 0⟩, ⟨"ev_spare", ⟨5, 1⟩, .w1c, false, false, 0⟩, ⟨"session", ⟨8, 1⟩, .ro, false, false, 0⟩, ⟨"credited", ⟨9, 1⟩, .ro, false, false, 0⟩, ⟨"rx_wait", ⟨10, 1⟩, .ro, false, false, 0⟩, ⟨"tx_replay", ⟨11, 1⟩, .ro, false, false, 0⟩, ⟨"sessions", ⟨16, 16⟩, .ro, false, false, 0⟩]⟩,
  ⟨"pt_txseq", 1, 0x20010, 8, 0x10000, 1, 0x8,
    [⟨"next", ⟨0, 9⟩, .ro, false, false, 0⟩, ⟨"acked", ⟨16, 9⟩, .ro, false, false, 0⟩, ⟨"acked_v", ⟨25, 1⟩, .ro, false, false, 0⟩, ⟨"unacked", ⟨32, 9⟩, .ro, false, false, 0⟩]⟩,
  ⟨"pt_rxseq", 1, 0x20018, 8, 0x10000, 1, 0x8,
    [⟨"expected", ⟨0, 9⟩, .ro, false, false, 0⟩]⟩,
  ⟨"pt_credit_rx", 1, 0x20020, 8, 0x10000, 1, 0x8,
    [⟨"vc0", ⟨0, 16⟩, .ro, false, false, 0x400⟩, ⟨"vc1", ⟨16, 16⟩, .ro, false, false, 0⟩, ⟨"vc2", ⟨32, 16⟩, .ro, false, false, 0⟩, ⟨"vc3", ⟨48, 16⟩, .ro, false, false, 0x40⟩]⟩,
  ⟨"pt_credit_tx", 1, 0x20028, 8, 0x10000, 1, 0x8,
    [⟨"vc0", ⟨0, 16⟩, .ro, false, false, 0⟩, ⟨"vc1", ⟨16, 16⟩, .ro, false, false, 0⟩, ⟨"vc2", ⟨32, 16⟩, .ro, false, false, 0⟩, ⟨"vc3", ⟨48, 16⟩, .ro, false, false, 0⟩]⟩,
  ⟨"pt_flits", 1, 0x20030, 8, 0x10000, 1, 0x8,
    [⟨"fec_fixed", ⟨0, 32⟩, .ro, false, false, 0⟩, ⟨"bad", ⟨32, 32⟩, .ro, false, false, 0⟩]⟩,
  ⟨"pt_replay", 1, 0x20038, 8, 0x10000, 1, 0x8,
    [⟨"replayed", ⟨0, 32⟩, .ro, false, false, 0⟩, ⟨"naks", ⟨32, 16⟩, .ro, false, false, 0⟩, ⟨"limits", ⟨48, 16⟩, .ro, false, false, 0⟩]⟩,
  ⟨"pt_reqs", 1, 0x20040, 8, 0x10000, 1, 0x8,
    [⟨"accepted", ⟨0, 48⟩, .ro, false, false, 0⟩]⟩,
  ⟨"pt_err", 1, 0x20048, 8, 0x10000, 1, 0x8,
    [⟨"malformed", ⟨0, 16⟩, .ro, false, false, 0⟩, ⟨"tagdup", ⟨16, 16⟩, .ro, false, false, 0⟩, ⟨"overrun", ⟨32, 16⟩, .ro, false, false, 0⟩, ⟨"resync", ⟨48, 16⟩, .ro, false, false, 0⟩]⟩]
def regRows02part1 : List RegRow := [
  ⟨"pt_lost", 1, 0x20050, 8, 0x10000, 1, 0x8,
    [⟨"resp_lost", ⟨0, 32⟩, .ro, false, false, 0⟩, ⟨"units_lost", ⟨32, 32⟩, .ro, false, false, 0⟩]⟩,
  ⟨"pt_tags", 1, 0x20058, 8, 0x10000, 1, 0x8,
    [⟨"outstanding", ⟨0, 13⟩, .ro, false, false, 0⟩, ⟨"peak", ⟨16, 13⟩, .ro, false, false, 0⟩]⟩]
/-- The registers of block 0x02. -/
def regRows02 : List RegRow := regRows02part0 ++ regRows02part1

/-- The registers of block 0x29. -/
def regRows29part0 : List RegRow := [
  ⟨"pr_role", 0, 0x290000, 1, 0x8, 1, 0x8,
    [⟨"role", ⟨0, 2⟩, .rw, true, true, 0⟩, ⟨"ports", ⟨2, 1⟩, .rw, true, true, 0⟩]⟩,
  ⟨"pr_mirror", 0, 0x290008, 1, 0x8, 1, 0x8,
    [⟨"regions", ⟨0, 8⟩, .rw, true, true, 0⟩]⟩,
  ⟨"pr_epoch", 0, 0x290010, 1, 0x8, 1, 0x8,
    [⟨"epoch", ⟨0, 32⟩, .ro, true, true, 0⟩, ⟨"solo_since_join", ⟨32, 1⟩, .ro, true, true, 0⟩, ⟨"unclean", ⟨33, 1⟩, .ro, true, true, 0⟩]⟩,
  ⟨"pr_cfg", 0, 0x290018, 1, 0x8, 1, 0x8,
    [⟨"loss_us", ⟨0, 16⟩, .rw, true, false, 0x32⟩, ⟨"auto_promote", ⟨16, 1⟩, .rw, true, false, 0⟩, ⟨"keep_primary", ⟨17, 1⟩, .rw, true, false, 1⟩, ⟨"heal", ⟨18, 1⟩, .rw, true, false, 1⟩, ⟨"eng_sel", ⟨19, 1⟩, .rw, false, false, 0⟩, ⟨"engine", ⟨20, 4⟩, .rw, false, false, 0⟩, ⟨"promote_ms", ⟨32, 16⟩, .rw, true, false, 0x64⟩]⟩,
  ⟨"pr_cmd", 0, 0x290020, 1, 0x8, 1, 0x8,
    [⟨"join", ⟨0, 1⟩, .w1s, false, false, 0⟩, ⟨"source", ⟨1, 1⟩, .rw, false, false, 0⟩, ⟨"promote", ⟨2, 1⟩, .w1s, false, false, 0⟩, ⟨"leave", ⟨3, 1⟩, .w1s, false, false, 0⟩]⟩,
  ⟨"pr_stat", 0, 0x290028, 1, 0x8, 1, 0x8,
    [⟨"state", ⟨0, 3⟩, .ro, false, false, 0⟩, ⟨"active", ⟨3, 1⟩, .ro, false, false, 0⟩, ⟨"diverged", ⟨4, 1⟩, .ro, false, false, 0⟩, ⟨"source", ⟨5, 1⟩, .ro, false, false, 0⟩, ⟨"ports_up", ⟨6, 2⟩, .ro, false, false, 0⟩, ⟨"ev_lost", ⟨8, 1⟩, .w1c, false, false, 0⟩, ⟨"ev_rejoined", ⟨9, 1⟩, .w1c, false, false, 0⟩, ⟨"ev_diverged", ⟨10, 1⟩, .w1c, false, false, 0⟩, ⟨"ev_port", ⟨11, 1⟩, .w1c, false, false, 0⟩, ⟨"join_code", ⟨16, 4⟩, .ro, false, false, 0⟩]⟩,
  ⟨"pr_dirty", 0, 0x290030, 1, 0x8, 1, 0x8,
    [⟨"count", ⟨0, 13⟩, .ro, true, false, 0⟩, ⟨"sync_left", ⟨32, 13⟩, .ro, false, false, 0⟩]⟩,
  ⟨"pr_fwd", 0, 0x290038, 1, 0x8, 1, 0x8,
    [⟨"units", ⟨0, 48⟩, .ro, false, false, 0⟩, ⟨"pending", ⟨48, 14⟩, .ro, false, false, 0⟩]⟩,
  ⟨"pr_counts", 0, 0x290040, 1, 0x8, 1, 0x8,
    [⟨"denied", ⟨0, 32⟩, .ro, false, false, 0⟩, ⟨"heals", ⟨32, 16⟩, .ro, false, false, 0⟩, ⟨"heal_fails", ⟨48, 16⟩, .ro, false, false, 0⟩]⟩,
  ⟨"pr_break", 0, 0x290048, 1, 0x8, 1, 0x8,
    [⟨"time", ⟨0, 64⟩, .ro, false, false, 0⟩]⟩]
def regRows29part1 : List RegRow := [
  ⟨"pr_bitmap", 1, 0x290100, 64, 0x8, 1, 0x8,
    [⟨"dirty", ⟨0, 64⟩, .ro, true, false, 0⟩]⟩]
/-- The registers of block 0x29. -/
def regRows29 : List RegRow := regRows29part0 ++ regRows29part1

/-- The registers of block 0x28. -/
def regRows28part0 : List RegRow := [
  ⟨"pwr_ctl", 0, 0x280000, 1, 0x8, 1, 0x8,
    [⟨"dev_state", ⟨0, 2⟩, .rw, false, false, 0⟩, ⟨"retain_idle_us", ⟨16, 16⟩, .rw, false, false, 0x64⟩]⟩,
  ⟨"pwr_region", 0, 0x280008, 1, 0x8, 1, 0x8,
    [⟨"target_h0", ⟨0, 2⟩, .rw, false, false, 0⟩, ⟨"target_h1", ⟨2, 2⟩, .rw, false, false, 0⟩, ⟨"target_h2", ⟨4, 2⟩, .rw, false, false, 0⟩, ⟨"target_h3", ⟨6, 2⟩, .rw, false, false, 0⟩, ⟨"target_h4", ⟨8, 2⟩, .rw, false, false, 0⟩, ⟨"target_h5", ⟨10, 2⟩, .rw, false, false, 0⟩, ⟨"target_h6", ⟨12, 2⟩, .rw, false, false, 0⟩, ⟨"target_h7", ⟨14, 2⟩, .rw, false, false, 0⟩]⟩,
  ⟨"pwr_regstat", 0, 0x280010, 1, 0x8, 1, 0x8,
    [⟨"state_h0", ⟨0, 3⟩, .ro, false, false, 0⟩, ⟨"state_h1", ⟨3, 3⟩, .ro, false, false, 0⟩, ⟨"state_h2", ⟨6, 3⟩, .ro, false, false, 0⟩, ⟨"state_h3", ⟨9, 3⟩, .ro, false, false, 0⟩, ⟨"state_h4", ⟨12, 3⟩, .ro, false, false, 0⟩, ⟨"state_h5", ⟨15, 3⟩, .ro, false, false, 0⟩, ⟨"state_h6", ⟨18, 3⟩, .ro, false, false, 0⟩, ⟨"state_h7", ⟨21, 3⟩, .ro, false, false, 0⟩, ⟨"wakes", ⟨32, 16⟩, .ro, false, false, 0⟩]⟩,
  ⟨"pwr_devstat", 0, 0x280018, 1, 0x8, 1, 0x8,
    [⟨"state", ⟨0, 2⟩, .ro, false, false, 0⟩, ⟨"hold", ⟨2, 1⟩, .ro, false, false, 0⟩, ⟨"ready", ⟨3, 1⟩, .ro, false, false, 0⟩, ⟨"refclk_lost", ⟨4, 1⟩, .w1c, false, false, 0⟩]⟩,
  ⟨"pwr_reset", 0, 0x280020, 1, 0x8, 1, 0x8,
    [⟨"warm", ⟨0, 1⟩, .w1s, false, false, 0⟩, ⟨"port", ⟨8, 8⟩, .w1s, false, false, 0⟩, ⟨"key", ⟨16, 16⟩, .wo, false, false, 0⟩]⟩,
  ⟨"pwr_brown", 0, 0x280028, 1, 0x8, 1, 0x8,
    [⟨"holds", ⟨0, 16⟩, .ro, false, false, 0⟩, ⟨"resets", ⟨16, 16⟩, .ro, true, false, 0⟩, ⟨"min_mv", ⟨32, 16⟩, .ro, false, false, 0⟩]⟩,
  ⟨"pwr_holdtime", 0, 0x280030, 1, 0x8, 1, 0x8,
    [⟨"last_us", ⟨0, 32⟩, .ro, false, false, 0⟩, ⟨"total_us", ⟨32, 32⟩, .ro, false, false, 0⟩]⟩,
  ⟨"pwr_start", 0, 0x280038, 1, 0x8, 1, 0x8,
    [⟨"reached", ⟨0, 4⟩, .ro, false, false, 0xf⟩, ⟨"failed", ⟨4, 4⟩, .ro, false, false, 0xf⟩, ⟨"kind", ⟨8, 3⟩, .ro, false, false, 0⟩, ⟨"keep_lost", ⟨11, 1⟩, .ro, false, false, 0⟩, ⟨"quick_march", ⟨12, 1⟩, .rw, true, false, 1⟩, ⟨"s8_ms", ⟨16, 16⟩, .rw, true, false, 0x64⟩, ⟨"s9_ms", ⟨32, 16⟩, .rw, true, false, 0x1f4⟩]⟩,
  ⟨"pwr_steprec", 0, 0x280040, 1, 0x8, 1, 0x8,
    [⟨"mirror", ⟨0, 64⟩, .ro, true, true, 0⟩]⟩,
  ⟨"pwr_decide", 0, 0x280048, 1, 0x8, 1, 0x8,
    [⟨"code_s0", ⟨0, 4⟩, .ro, false, false, 0⟩, ⟨"code_s1", ⟨4, 4⟩, .ro, false, false, 0⟩, ⟨"code_s2", ⟨8, 4⟩, .ro, false, false, 0⟩, ⟨"code_s3", ⟨12, 4⟩, .ro, false, false, 0⟩, ⟨"code_s4", ⟨16, 4⟩, .ro, false, false, 0⟩, ⟨"code_s5", ⟨20, 4⟩, .ro, false, false, 0⟩, ⟨"code_s6", ⟨24, 4⟩, .ro, false, false, 0⟩, ⟨"code_s7", ⟨28, 4⟩, .ro, false, false, 0⟩, ⟨"code_s8", ⟨32, 4⟩, .ro, false, false, 0⟩, ⟨"code_s9", ⟨36, 4⟩, .ro, false, false, 0⟩, ⟨"code_s10", ⟨40, 4⟩, .ro, false, false, 0⟩, ⟨"code_s11", ⟨44, 4⟩, .ro, false, false, 0⟩]⟩]
def regRows28part1 : List RegRow := [
  ⟨"pwr_attempt", 0, 0x280050, 1, 0x8, 1, 0x8,
    [⟨"att_s0", ⟨0, 4⟩, .ro, false, false, 0⟩, ⟨"att_s1", ⟨4, 4⟩, .ro, false, false, 0⟩, ⟨"att_s2", ⟨8, 4⟩, .ro, false, false, 0⟩, ⟨"att_s3", ⟨12, 4⟩, .ro, false, false, 0⟩, ⟨"att_s4", ⟨16, 4⟩, .ro, false, false, 0⟩, ⟨"att_s5", ⟨20, 4⟩, .ro, false, false, 0⟩, ⟨"att_s6", ⟨24, 4⟩, .ro, false, false, 0⟩, ⟨"att_s7", ⟨28, 4⟩, .ro, false, false, 0⟩, ⟨"att_s8", ⟨32, 4⟩, .ro, false, false, 0⟩, ⟨"att_s9", ⟨36, 4⟩, .ro, false, false, 0⟩, ⟨"att_s10", ⟨40, 4⟩, .ro, false, false, 0⟩, ⟨"att_s11", ⟨44, 4⟩, .ro, false, false, 0⟩]⟩,
  ⟨"pwr_srec", 1, 0x280060, 4, 0x8, 1, 0x8,
    [⟨"bytes", ⟨0, 64⟩, .ro, true, false, 0⟩]⟩]
/-- The registers of block 0x28. -/
def regRows28 : List RegRow := regRows28part0 ++ regRows28part1

/-- The registers of block 0x2A. -/
def regRows2Apart0 : List RegRow := [
  ⟨"mg_chainaddr", 0, 0x2a0000, 1, 0x8, 1, 0x8,
    [⟨"address", ⟨0, 6⟩, .rw, false, true, 0⟩]⟩,
  ⟨"mg_grant", 0, 0x2a0008, 1, 0x8, 1, 0x8,
    [⟨"priv", ⟨0, 8⟩, .rw, true, true, 0⟩]⟩,
  ⟨"mg_porten", 0, 0x2a0010, 1, 0x8, 1, 0x8,
    [⟨"enable", ⟨0, 8⟩, .rw, true, true, 0xff⟩]⟩,
  ⟨"mg_keeplock", 0, 0x2a0018, 1, 0x8, 1, 0x8,
    [⟨"fails", ⟨0, 3⟩, .ro, false, true, 0⟩, ⟨"locked", ⟨3, 1⟩, .ro, false, true, 0⟩, ⟨"lock_s", ⟨4, 6⟩, .ro, false, true, 0⟩, ⟨"total", ⟨32, 32⟩, .ro, false, true, 0⟩]⟩,
  ⟨"mg_console", 0, 0x2a0020, 1, 0x8, 1, 0x8,
    [⟨"baud", ⟨0, 3⟩, .rw, true, false, 0⟩, ⟨"machine", ⟨4, 1⟩, .ro, false, false, 0⟩, ⟨"keeper", ⟨5, 1⟩, .ro, false, false, 0⟩]⟩,
  ⟨"mg_chainsess", 0, 0x2a0028, 1, 0x8, 1, 0x8,
    [⟨"keeper", ⟨0, 1⟩, .ro, false, false, 0⟩, ⟨"busy", ⟨1, 1⟩, .ro, false, false, 0⟩, ⟨"reply_ready", ⟨2, 1⟩, .ro, false, false, 0⟩, ⟨"reply_bytes", ⟨16, 16⟩, .ro, false, false, 0⟩]⟩,
  ⟨"mg_chaincnt", 0, 0x2a0030, 1, 0x8, 1, 0x8,
    [⟨"frames", ⟨0, 32⟩, .ro, false, false, 0⟩, ⟨"crc_err", ⟨32, 16⟩, .ro, false, false, 0⟩, ⟨"runt", ⟨48, 16⟩, .ro, false, false, 0⟩]⟩,
  ⟨"mg_chainerr", 0, 0x2a0038, 1, 0x8, 1, 0x8,
    [⟨"badtype", ⟨0, 16⟩, .ro, false, false, 0⟩, ⟨"dropped", ⟨16, 16⟩, .ro, false, false, 0⟩, ⟨"truncated", ⟨32, 16⟩, .ro, false, false, 0⟩]⟩,
  ⟨"mg_shexa", 0, 0x2a0040, 1, 0x8, 1, 0x8,
    [⟨"commands", ⟨0, 32⟩, .ro, false, false, 0⟩, ⟨"errors", ⟨32, 16⟩, .ro, false, false, 0⟩]⟩,
  ⟨"mg_ks_addr", 0, 0x2a0048, 1, 0x8, 1, 0x8,
    [⟨"offset", ⟨3, 9⟩, .rw, false, false, 0⟩]⟩]
def regRows2Apart1 : List RegRow := [
  ⟨"mg_ks_data", 0, 0x2a0050, 1, 0x8, 1, 0x8,
    [⟨"data", ⟨0, 64⟩, .ro, true, false, 0⟩]⟩,
  ⟨"mg_ctl", 0, 0x2a0058, 1, 0x8, 1, 0x8,
    [⟨"stat_clear", ⟨0, 1⟩, .wo, false, false, 0⟩]⟩]
/-- The registers of block 0x2A. -/
def regRows2A : List RegRow := regRows2Apart0 ++ regRows2Apart1

/-- The registers of block 0x30. -/
def regRows30part0 : List RegRow := [
  ⟨"pc_gctl", 0, 0x300000, 1, 0x8, 1, 0x8,
    [⟨"freeze", ⟨0, 1⟩, .w1s, false, false, 0⟩, ⟨"clear_all", ⟨1, 1⟩, .wo, false, false, 0⟩]⟩,
  ⟨"pc_snaptime", 0, 0x300008, 1, 0x8, 1, 0x8,
    [⟨"time", ⟨0, 64⟩, .ro, false, false, 0⟩]⟩,
  ⟨"pc_ovfsum", 0, 0x300010, 1, 0x8, 1, 0x8,
    [⟨"ovf", ⟨0, 64⟩, .ro, false, false, 0⟩]⟩,
  ⟨"pc_ovf_lost", 0, 0x300018, 1, 0x8, 1, 0x8,
    [⟨"count", ⟨0, 32⟩, .ro, false, false, 0⟩]⟩,
  ⟨"pc_cfg", 1, 0x300100, 64, 0x8, 1, 0x8,
    [⟨"event", ⟨0, 10⟩, .rw, false, false, 0⟩, ⟨"irq", ⟨16, 1⟩, .rw, false, false, 0⟩]⟩,
  ⟨"pc_cnt", 1, 0x300300, 64, 0x8, 1, 0x8,
    [⟨"count", ⟨0, 48⟩, .ro, false, false, 0⟩, ⟨"ovf", ⟨63, 1⟩, .w1c, false, false, 0⟩]⟩,
  ⟨"pc_snap", 1, 0x300500, 64, 0x8, 1, 0x8,
    [⟨"count", ⟨0, 48⟩, .ro, false, false, 0⟩, ⟨"ovf", ⟨63, 1⟩, .ro, false, false, 0⟩]⟩,
  ⟨"smp_ctl", 0, 0x300800, 1, 0x8, 1, 0x8,
    [⟨"enable", ⟨0, 1⟩, .rw, false, false, 1⟩, ⟨"stop_full", ⟨1, 1⟩, .rw, false, false, 0⟩, ⟨"clear", ⟨2, 1⟩, .wo, false, false, 0⟩, ⟨"k", ⟨8, 5⟩, .rw, false, false, 0xc⟩, ⟨"seed", ⟨32, 32⟩, .rw, false, false, 1⟩]⟩,
  ⟨"smp_stat", 0, 0x300808, 1, 0x8, 1, 0x8,
    [⟨"next", ⟨0, 10⟩, .ro, false, false, 0⟩, ⟨"count", ⟨16, 11⟩, .ro, false, false, 0⟩, ⟨"skipped", ⟨32, 16⟩, .ro, false, false, 0⟩, ⟨"lost", ⟨48, 16⟩, .ro, false, false, 0⟩]⟩,
  ⟨"smp_idx", 0, 0x300810, 1, 0x8, 1, 0x8,
    [⟨"index", ⟨0, 10⟩, .rw, false, false, 0⟩]⟩]
def regRows30part1 : List RegRow := [
  ⟨"smp_rec", 1, 0x300840, 8, 0x8, 1, 0x8,
    [⟨"bytes", ⟨0, 64⟩, .ro, false, false, 0⟩]⟩,
  ⟨"tr_ctl", 0, 0x300900, 1, 0x8, 1, 0x8,
    [⟨"run", ⟨0, 1⟩, .rw, false, false, 1⟩, ⟨"stop_full", ⟨1, 1⟩, .rw, false, false, 0⟩, ⟨"stop_on_fatal", ⟨2, 1⟩, .rw, false, false, 1⟩, ⟨"refused", ⟨3, 1⟩, .rw, false, false, 0⟩, ⟨"clear", ⟨4, 1⟩, .wo, false, false, 0⟩]⟩,
  ⟨"tr_stat", 0, 0x300908, 1, 0x8, 1, 0x8,
    [⟨"next", ⟨0, 14⟩, .ro, false, false, 0⟩, ⟨"count", ⟨16, 15⟩, .ro, false, false, 0⟩, ⟨"lost", ⟨32, 32⟩, .ro, false, false, 0⟩]⟩,
  ⟨"tr_addr", 0, 0x300910, 1, 0x8, 1, 0x8,
    [⟨"lo", ⟨0, 32⟩, .rw, false, false, 0⟩, ⟨"hi", ⟨32, 32⟩, .rw, false, false, 0xffffffff⟩]⟩,
  ⟨"tr_mask", 0, 0x300918, 1, 0x8, 1, 0x8,
    [⟨"reqs", ⟨0, 32⟩, .rw, false, false, 0xffffffff⟩, ⟨"classes", ⟨32, 5⟩, .rw, false, false, 0x1f⟩, ⟨"dests", ⟨40, 4⟩, .rw, false, false, 0xf⟩]⟩,
  ⟨"tr_idx", 0, 0x300920, 1, 0x8, 1, 0x8,
    [⟨"index", ⟨0, 14⟩, .rw, false, false, 0⟩]⟩,
  ⟨"tr_ent", 1, 0x300940, 4, 0x8, 1, 0x8,
    [⟨"bytes", ⟨0, 64⟩, .ro, false, false, 0⟩]⟩,
  ⟨"cel_ctl", 0, 0x300a00, 1, 0x8, 1, 0x8,
    [⟨"enable", ⟨0, 1⟩, .rw, true, true, 0⟩]⟩,
  ⟨"cel_stat", 0, 0x300a08, 1, 0x8, 1, 0x8,
    [⟨"result", ⟨0, 2⟩, .ro, false, false, 0⟩, ⟨"cause", ⟨8, 8⟩, .ro, false, false, 0⟩, ⟨"detail", ⟨32, 32⟩, .ro, false, false, 0⟩]⟩,
  ⟨"cel_time", 0, 0x300a10, 1, 0x8, 1, 0x8,
    [⟨"time", ⟨0, 64⟩, .ro, false, false, 0⟩]⟩]
def regRows30part2 : List RegRow := [
  ⟨"cel_last", 0, 0x300a18, 1, 0x8, 1, 0x8,
    [⟨"result", ⟨0, 2⟩, .ro, true, false, 0⟩, ⟨"cause", ⟨8, 8⟩, .ro, true, false, 0⟩, ⟨"starts", ⟨16, 32⟩, .ro, true, false, 0⟩, ⟨"count", ⟨48, 16⟩, .ro, true, false, 0⟩]⟩]
/-- The registers of block 0x30. -/
def regRows30 : List RegRow := regRows30part0 ++ regRows30part1 ++ regRows30part2

/-- The table of a block; blocks 0x02–0x09 are the ports' (R30), a block not named is absent. -/
def regRows (block : Nat) : List RegRow :=
  match block with
  | 0x1 => regRows01
  | 0x0 => regRows00
  | 0x10 => regRows10
  | 0x14 => regRows14
  | 0x16 => regRows16
  | 0x15 => regRows15
  | 0x18 => regRows18
  | 0x19 => regRows19
  | 0x20 => regRows20
  | 0x21 => regRows21
  | 0x11 => regRows11
  | 0x12 => regRows12
  | 0xa => regRows0A
  | 0x2 => regRows02
  | 0x3 => regRows02
  | 0x4 => regRows02
  | 0x5 => regRows02
  | 0x6 => regRows02
  | 0x7 => regRows02
  | 0x8 => regRows02
  | 0x9 => regRows02
  | 0x29 => regRows29
  | 0x28 => regRows28
  | 0x2a => regRows2A
  | 0x30 => regRows30
  | _ => []

/-- Every block with a table. -/
def regBlocks : List Nat := [0x0, 0x1, 0x2, 0xa, 0x10, 0x11, 0x12, 0x14, 0x15, 0x16, 0x18, 0x19, 0x20, 0x21, 0x28, 0x29, 0x2a, 0x30]

end Sys2Proof.Machine
end

