-- ==== Sys2Proof/Machine/SMap.lean ====
section
/-! DEFINITION. Sparse storage in one canonical form: a list of (key, value) pairs, keys strictly rising, no entry equal to
what an unlisted key reads as. -/

namespace Sys2Proof.Machine

/-- Read a key; `d` is what an unlisted key reads as. -/
def sget {α : Type} (d : α) : List (Nat × α) → Nat → α
  | [], _ => d
  | (a, v) :: m, k => if a = k then v else sget d m k

/-- Put an entry at its place. -/
def sins {α : Type} : List (Nat × α) → Nat → α → List (Nat × α)
  | [], k, v => [(k, v)]
  | (a, w) :: m, k, v => if k < a then (k, v) :: (a, w) :: m else if a = k then (k, v) :: m else (a, w) :: sins m k v

/-- Remove an entry. -/
def sdel {α : Type} (m : List (Nat × α)) (k : Nat) : List (Nat × α) := m.filter (fun e => e.1 != k)

/-- Write a key; writing what an unlisted key reads as removes the entry. -/
def sset {α : Type} [DecidableEq α] (d : α) (m : List (Nat × α)) (k : Nat) (v : α) : List (Nat × α) :=
  if v = d then sdel m k else sins m k v

/-- The keys rise strictly. -/
def keysRise {α : Type} : List (Nat × α) → Bool
  | [] => true
  | [_] => true
  | (a, _) :: (b, w) :: m => a < b && keysRise ((b, w) :: m)

/-- The canonical form, for the default of each key. -/
def scanon {α : Type} [DecidableEq α] (d : Nat → α) (m : List (Nat × α)) : Bool :=
  keysRise m && m.all (fun e => e.2 != d e.1)

end Sys2Proof.Machine
end

