-- ==== Sys2Proof/Machine/State.lean ====
section
/-! DEFINITION. The state of the device as plain data: registers (sparse, by key), triple-kept words, the physical cells of
array and stores, and what each unit keeps besides its registers. INVENTORY.md lists every piece with its rule. -/

namespace Sys2Proof.Machine

/-- No step of this block stops with a fault: the spec answers every access with a status (R314). The one constructor is raised
by nobody; the host's interface asks for the type. Safe: it is never answered. -/
inductive Fault where
  | none
  deriving DecidableEq, Repr

/-- Why a command has no meaning in the model. -/
inductive Refusal where
  /-- Raised by a dispatch arm of a command that has no meaning yet. Safe: the model stops where the device goes on. -/
  | notModelled (mnemonic : String)
  deriving DecidableEq, Repr

/-- The requesters of the table "Requester identifiers" (R52); a port's requester is its (port, slot), an engine's access comes
from one of its queues. -/
inductive Who where
  | port (p slot : Nat)
  | engine (e q : Nat)
  | sc | pairFwd | vatUnit | scrub | test | notify
  deriving DecidableEq, Repr

/-- Response statuses (R314). -/
inductive Status where
  | ok | ue | poison | absent | denied | misalign | retry | novat | range | busy
  deriving DecidableEq, Repr

/-- The atomic operations (R71). -/
inductive AtomicKind where
  | fadd | fand | for_ | fxor | swap | cas | fmins | fminu | fmaxs | fmaxu
  deriving DecidableEq, Repr

/-- Opcode classes of requests (R33, R310). -/
inductive Op where
  | read | write | atomic (k : AtomicKind) | acc | rdcv | fence
  deriving DecidableEq, Repr

/-- A request as decode sees it: a request unit or run member of a port, an engine access, an access of the SC. `code` is the
opcode of the table "Request opcodes". -/
structure Req where
  who : Who
  tag : Nat
  mgmt : Bool
  ord : Bool
  op : Op
  code : Nat
  addr : Nat
  len : Nat
  mask : BitVec 64
  opfmt : Nat
  tally : Bool
  data : List Byte
  deriving DecidableEq, Repr

/-- What the sampler has noted of a tagged request (R410, R411). D2, and D4 outside the array, lie at latencies that the model leaves out: free
values, numbered from `free` on (log entry 23). -/
structure Sample where
  t1 : Nat
  free : Nat
  d2 : Nat
  d3 : Nat
  d4 : Nat
  d5 : Nat
  held : Bool
  dest : Nat
  bank : Nat
  qdepth : Nat
  gsize : Nat
  gpos : Nat
  deriving DecidableEq, Repr

/-- A port request in flight: `left` halves not yet served, `waits` pair units not yet accepted (R49, R66, R334). A request whose
`left` and `waits` are 0 is complete; a FENCE is complete when nothing earlier of its (port, slot) is in flight (R68). `due` is the
cycle in which its response fell due (R315). `lost`: the session that received it has ended, and its response is discarded (R320).
`slots` counts the slots it took of its channel (R307). `noStore`: a CAS that stored nothing (R77). -/
structure Txn where
  uid : Nat
  req : Req
  left : Nat
  waits : Nat
  status : Status
  ce : Bool
  sup : Bool
  data0 : List Byte
  data1 : List Byte
  split : Bool
  sample : Option Sample
  due : Option Nat
  lost : Bool
  slots : Nat
  noStore : Bool
  deriving DecidableEq, Repr

/-- One access at a bank: half `half` of request or engine access `uid` (R49, R52). `setAside` is the cycle in which a background
test hold began (R248). -/
structure BReq where
  uid : Nat
  half : Nat
  who : Who
  op : Op
  code : Nat
  addr : Nat
  len : Nat
  mask : BitVec 64
  data : List Byte
  opfmt : Nat
  tally : Bool
  vat : Option Nat
  vatGen : Nat
  vop : Nat
  vscale : Nat
  entered : Nat
  setAside : Option Nat
  tag : Nat
  deriving DecidableEq, Repr

/-- What a test agent does with the lines it works on (R244, R245, R249); `clearing` is the final pass that writes zeros, `ended` a run
that is over. -/
inductive RunPhase where
  | copying | marching | restoring | clearing | ended
  deriving DecidableEq, Repr

/-- A run of the march engine: a test group of a unit with its tasting buffer, (line, codeword) cells copied raw (R244), or the whole unit
(`destructive`, R245). `done` counts the accesses of the phase; the next one comes at `notBefore` or later; `failed` lists the lines
already counted as failing. -/
structure TestRun where
  unit : Nat
  group : Nat
  algo : Nat
  phase : RunPhase
  done : Nat
  buffer : List (Nat × Cw)
  yielding : Bool
  foreground : Bool
  destructive : Bool
  notBefore : Nat
  failed : List Nat
  deriving DecidableEq, Repr

/-- What a bank's queue stage and arbiter keep. `groupEnd` is the cycle in which its last test group ended (R247); `ptr` is the service pointer: 0 before P0, k + 1 at entry k of the list L (R56). -/
structure Bank where
  queue : List BReq
  staging : List BReq
  ptr : Nat
  lastSlot : Option Nat
  wbCycle : Option Nat
  borrow : Option TestRun
  idleRun : Nat
  groupEnd : Option Nat
  deriving DecidableEq, Repr

/-- The operations of the stores, by offset and direction (R80, R121), the received units of the pair forwarder (R333)
and the reads of a resynchronisation (R344). -/
inductive StoreKind where
  | semTry | semState | semRelease | semTicket | semServe | semPeek | semNotifyRead | semNotifyWrite
  | mbxPayloadWrite | mbxRead | mbxDoorbell | mbxClaim | mbxBinding
  | semUnit | mbxUnit | semCopy | mbxCopy
  deriving DecidableEq, Repr

/-- An operation waiting at a store: the queue is that of `who` (R88, R128); `effect` is false for an offset whose READ or WRITE
has no effect; `writer` is recorded as the mailbox's writer (R123); `priv`: its requester had the rights of a privileged port or of the SC when it was
decoded (R398); `entered` is the cycle in which it reached the store. -/
structure StoreOp where
  uid : Nat
  who : Who
  writer : Who
  priv : Bool
  kind : StoreKind
  effect : Bool
  n : Nat
  off : Nat
  len : Nat
  mask : BitVec 64
  data : List Byte
  value : Nat
  code : Nat
  tag : Nat
  entered : Nat
  deriving DecidableEq, Repr

/-- A mailbox operation served and not yet committed (R128), with the event it will produce (R127): the mailbox, the value and
the binding that applied when the doorbell was served (R126); `unitNum` is the pair unit that carries the change; `write` tells a
WRITE from a claim (R124). -/
structure MbxCommit where
  servedAt : Nat
  who : Who
  write : Bool
  uid : Nat
  ringEvent : Option (Nat × Nat × Nat)
  unitNum : Option Nat
  deriving DecidableEq, Repr

/-- A tally step that waits for the vat unit: the bank and cycle of its ACC (R110, R111). -/
structure TallyWait where
  time : Nat
  bank : Nat
  vat : Nat
  gen : Nat
  uid : Nat
  who : Who
  deriving DecidableEq, Repr

/-- What an event of a vat shows the WAITs on it: VALID, TALLY and COMPLETIONS as the event leaves them (R161). -/
structure VatView where
  valid : Bool
  tally : Nat
  completions : Nat
  deriving DecidableEq, Repr

/-- Work that takes effect when a pair unit is accepted, or at once without a partner (R334). -/
inductive Deferred where
  | release (who : Who) (uid : Nat)
  | ring (mbx value binding : Nat)
  | sendDoorbell (mbx value : Nat) (queue writer : Who)
  | vatRecord (mbx : Nat) (record : List Byte) (doorbell : Nat)
  | semFree (sem : Nat)
  | vatEvent (vat : Nat) (view : VatView)
  deriving DecidableEq, Repr

/-- A pair unit sent and not yet accepted (R329, R332), with what waits for it. Port 8 stands for none: the unit's port is lost, and it waits
for a UTAG of the other (R338). -/
structure PairUnit where
  num : Nat
  utag : Nat
  port : Nat
  bytes : List Byte
  segment : Option Nat
  deferred : List Deferred
  deriving DecidableEq, Repr

/-- A flit kept in the replay buffer (R302): its FSEQ, its 240 slot bytes with FIRST, how often it was sent again, and how many
responses end in it (R320). -/
structure KeptFlit where
  fseq : Nat
  slots : List Byte
  lcs : Bool
  first : Nat
  resent : Nat
  resps : Nat
  deriving DecidableEq, Repr

/-- A unit that a flit has begun and a later one goes on with: its channel, the whole unit and what is left of it (R296). -/
structure TxPart where
  vc : Nat
  unit : List Byte
  rest : List Byte
  deriving DecidableEq, Repr

/-- What a port's link layer keeps beside block 0x02 + p (R296–R307). Lists of four are by channel: the partner's sizes and latest
C fields, the slots sent and received, and the C fields last sent to the partner. `nakNs` and `progressNs` are REPLAY_NS as it stood when its timer started
(R324); `initSent`: the INIT slot of the session has left (R306). -/
structure Link where
  kept : List KeptFlit
  replayNext : Option Nat
  replayDue : Bool
  partialUnit : List Byte
  needSlots : Nat
  resync : Bool
  rxSinceAck : Nat
  unackedSince : Option Nat
  rxAckValid : Bool
  nakSentAt : Option Nat
  nakNs : Nat
  progressAt : Nat
  progressNs : Nat
  initSent : Bool
  lcsDue : Bool
  nakDue : Bool
  partnerSize : List Nat
  partnerC : List Nat
  sent : List Nat
  received : List Nat
  freed : List Nat
  tx : List (Nat × List Byte)
  txPart : Option TxPart
  limitFlit : Option Nat
  deriving DecidableEq, Repr

/-- What a receive lane keeps beside its registers (R271, R273, R274): the EMF of its latest updates, newest first, runs of
consecutive updates, when READAPT began, and the partner's physical lane it hears (9: none). Beside them, for the lane of each direction:
the scramblers' S (R269), the precoders' P (R268), the request for the partner's taps and whether a frame has carried it, and the answer to
the partner's last request (R279). -/
structure LaneDyn where
  hist : List Nat
  below : Nat
  belowHard : Nat
  above : Nat
  readaptAt : Nat
  plane : Nat
  txS : BitVec 58
  rxS : BitVec 58
  txP : BitVec 2
  rxP : BitVec 2
  coefReq : Nat
  reqSent : Bool
  coefStat : Nat
  lastReq : Nat
  deriving DecidableEq, Repr

/-- What a port's physical layer keeps beside block 0x0A (R273, R275–R288). `heard` and `good` are the receive lanes that have had a
valid training block, and one with alignment, in the present state; `traffic` counts received flits, and those with a slot in
use, by microsecond; `rates` are the rates of the present attempt, `frames` the training frames sent in the present state, `txBlocks` and
`rxBlocks` the flit blocks since the last periodic marker, `markers` the periodic markers sent (R270); `eiMeets` is when the port has
taken the partner's EI_REQ as the answer to its own, `eiCrossed` that it has refused one while its own was under way (R277). -/
structure Phy where
  attemptRate : Nat
  downsSinceUp : Nat
  detectCount : Nat
  stateAt : Nat
  retrainAt : Nat
  idleSince : Nat
  eiAsked : Bool
  eiExitAt : Option Nat
  heard : BitVec 9
  good : BitVec 9
  partnerAck : Bool
  partnerRates : Nat
  partnerPrecode : Bool
  partnerFeReq : Bool
  partnerFeAllow : Bool
  pendingSpare : Option Nat
  pendingUnspare : Bool
  echo : Bool
  traffic : List (Nat × Nat × Nat)
  rates : Nat
  frames : Nat
  txBlocks : Nat
  rxBlocks : Nat
  markers : Nat
  eiMeets : Option Nat
  eiCrossed : Bool
  deriving DecidableEq, Repr

/-- A message the interrupt controller decided and not yet sent (R206, R207). `kind` is byte 0 of the unit. -/
structure IntcMsg where
  decidedAt : Nat
  port : Nat
  slot : Nat
  kind : Nat
  source : Nat
  prio : Nat
  deriving DecidableEq, Repr

/-- What the interrupt controller has taken in a cycle (R206): claims and EOIs of targets below `next`, a write, a read of its state. -/
structure IntcTurn where
  time : Nat
  next : Nat
  wrote : Bool
  wasRead : Bool
  deriving DecidableEq, Repr

/-- What an engine does with the answer to one of its accesses. -/
inductive AccUse where
  | fetch (index : Nat)
  | source (off : Nat)
  | other (off : Nat)
  | entry (elem : Nat)
  | store
  | acc (off : Nat)
  | sema
  | lock
  | unlock
  | walk
  | statusWord
  | postBell
  deriving DecidableEq, Repr

/-- An issued access of an engine queue for descriptor `run`; `servedAt` is the cycle in which its last half was served, `doneAt` that in
which it was answered and complete, `again` that from which it is reissued after RETRY or BUSY (R145, R350). -/
structure EngAcc where
  uid : Nat
  run : Nat
  servedAt : Nat
  doneAt : Option Nat
  req : Req
  use : AccUse
  left : Nat
  waits : Nat
  status : Status
  ce : Bool
  data0 : List Byte
  data1 : List Byte
  busy : Nat
  again : Option Nat
  deriving DecidableEq, Repr

/-- What a MATCH keeps of its context's registers from its check on (R194): K, LOCKSEM, the addresses of header and pool, and COUNT. -/
structure MatchCtx where
  k : Nat
  lockSem : Nat
  header : Nat
  pool : Nat
  count : Nat
  deriving DecidableEq, Repr

/-- A descriptor in progress of a queue (R143–R149). `rpos`, `wpos`, `xpos` are the next offsets (or elements) to read, to write
and to read second; `buf`, `buf2` hold bytes read by offset; `phase` is per opcode. `actionFault`: an access of the completion action
was answered UE or POISON (R149). `lockWaited`: the MATCH has been counted as finding its lock held (R183). `mctx` is a MATCH's
context, `found` the lines that its walk has read, oldest first. `seen` is what an event of its vat has ended a WAIT with, status and
RESULT (R161). -/
structure Run where
  index : Nat
  desc : List Byte
  began : Nat
  status : Nat
  failAddr : Nat
  result : Nat
  ce : Bool
  rpos : Nat
  wpos : Nat
  xpos : Nat
  buf : List (Nat × Byte)
  buf2 : List (Nat × Byte)
  entries : List (Nat × Nat)
  crc : Nat
  phase : Nat
  ended : Bool
  skipped : Bool
  actionPhase : Nat
  recheck : Bool
  matchTime : Nat
  actionFault : Bool
  lockWaited : Bool
  mctx : MatchCtx
  found : List (List Byte)
  seen : Option (Nat × Nat)
  deriving DecidableEq, Repr

/-- What a queue keeps beside its registers. `fetched` holds fetched descriptors not begun: the index, whether the fetch corrected an
error, and the bytes. -/
structure Queue where
  fetched : List (Nat × Bool × List Byte)
  runs : List Run
  accs : List EngAcc
  stopping : Bool
  offlined : Bool
  deriving DecidableEq, Repr

/-- What an engine keeps beside its registers. -/
structure Engine where
  lastQ : Nat
  resetting : Bool
  rackAt : Option Nat
  issued : Option Nat
  deriving DecidableEq, Repr

/-- A PUSH message waiting for its flits' acknowledgement (R164): queue, descriptor, port, end offset, and the FSEQ of its last flit once
sent; `failed` when the session ended first. A message whose descriptor is gone has a number that no descriptor has in `run`. -/
structure PushWait where
  e : Nat
  q : Nat
  run : Nat
  port : Nat
  endOff : Nat
  unit : List Byte
  lastFseq : Option Nat
  acked : Bool
  failed : Bool
  deriving DecidableEq, Repr

/-- An entry for the lees or UE log (R228): the 32 bytes but SEQ, and its KIND. -/
structure LogEntry where
  time : Nat
  phys : Nat
  addr : Nat
  kind : Nat
  bytes : List Byte
  deriving DecidableEq, Repr

/-- An entry of the recent-line table (R233). -/
structure RecentLine where
  unit : Nat
  line : Nat
  time : Nat
  deriving DecidableEq, Repr

/-- A remap that has been recorded as copying and waits for its slot (R235). -/
structure RemapJob where
  unit : Nat
  line : Nat
  entry : Nat
  ordered : Bool
  deriving DecidableEq, Repr

/-- What LOG_WRITE did in a cycle, so that a write of INT_CTL served later in that cycle applies to its entries (R230): the words as they
stood, both logs' entries, what was lost, and whether the lees log became full by it. -/
structure LogUndo where
  words : List (Nat × Word64)
  leesSeq : Nat
  ueSeq : Nat
  lees : List LogEntry
  ue : List LogEntry
  leesLost : Nat
  ueLost : Nat
  wasFull : Bool
  raised : Bool
  deriving DecidableEq, Repr

/-- Integrity state beside block 0x11. -/
structure Integ where
  intake : List LogEntry
  lastLogWrite : Option Nat
  logUndo : Option LogUndo
  leesSeq : Nat
  ueSeq : Nat
  recent : List RecentLine
  remaps : List RemapJob
  passStart : Nat
  nextVisit : Nat
  storeIndex : Nat
  deriving DecidableEq, Repr

/-- Test state beside block 0x12: the foreground test (unit, mode, next group and one past the last, lines that failed), the retirement asked of the SC (bank, engine), self-tests (engine, cycle of the end) and engines to go online
after them, when each spare's last pass ended (R247). `agents` are the runs on units that no arbiter serves: a FREE spare, the cells of a
retired bank, a store. `weak` lists (unit, segment, cell) of cells that do not hold what a march writes: physical defects, the model's own
way to say what a march finds. -/
structure Test where
  fgUnit : Option Nat
  fgMode : Nat
  fgAlgo : Nat
  fgEmpty : Bool
  fgGroup : Nat
  fgFails : Nat
  fgAborting : Bool
  fgEnd : Nat
  retPend : Option (Nat × Option Nat)
  selfEnd : List (Nat × Nat)
  selfOnline : List Nat
  spareEnd : List (Nat × Option Nat)
  agents : List TestRun
  weak : List (Nat × Nat × Nat)
  undef : List (Nat × Nat)
  deriving DecidableEq, Repr

/-- A fault that has stopped the copy of SYNCING (R345): the engine, the answer's code and the address; `entered` once its queue is in FAULT. -/
structure SyncFault where
  engine : Nat
  code : Nat
  addr : Nat
  entered : Bool
  deriving DecidableEq, Repr

/-- What a received unit changes (R333): lines with their images, a semaphore, the codewords of a mailbox, a vat entry; or the line
that a HEAL_REQ asks for (R346). -/
inductive RxBody where
  | lines (ls : List (Nat × List Byte))
  | sem (n : Nat) (words : List Byte)
  | mbx (n : Nat) (isOpen : Bool) (cws : List (Nat × List Byte))
  | vat (n : Nat) (entry : List Byte)
  | heal (addr : Nat)
  deriving DecidableEq, Repr

/-- A received unit that is not committed: its number, port, UTAG and change. `begun`: it is being applied, and `left` of its steps are
still to come. -/
structure RxUnit where
  num : Nat
  port : Nat
  utag : Nat
  body : RxBody
  begun : Bool
  left : Nat
  deriving DecidableEq, Repr

/-- Pair state beside block 0x29. `heals` lists (port, UTAG, address) of lines asked for (R346), `healWaits` the lines to be asked for once
a UTAG is free; `rxUnits` lists received units not yet committed, in arrival order. `syncSegs` is the copy set of SYNCING, `syncPos` the next item, `syncLast`
the unit of the last vat entry (R344). -/
structure Pair where
  units : List PairUnit
  nextUtag : Nat
  lastHello : List (Nat × Nat)
  portLost : List Nat
  partner : Option HelloFields
  helloDue : Bool
  helloAt : Nat
  sourceCmd : Nat
  joining : Bool
  syncSegs : List Nat
  syncPos : Nat
  syncLast : Option Nat
  syncFault : Option SyncFault
  heals : List (Nat × Nat × Nat)
  rxUnits : List RxUnit
  healWaits : List Nat
  orphanAt : Nat
  deriving DecidableEq, Repr

/-- The clock the core runs from (R430, R431), `none` without power (R428). -/
inductive CoreClock where
  | pll | oscillator | stopped | none
  deriving DecidableEq, Repr

/-- What the commands have said last of VDD: good; below 0.70 V, in HOLD, which it may have left again less than 20 µs ago; or unknown, since a
fall below 0.65 V or of another rail, until the start sequence runs (R359, R428). -/
inductive VddLevel where
  | good | low | unknown
  deriving DecidableEq, Repr

/-- Power, reset and start state beside block 0x28. `arbPend` lists the writes of ARB_SHARE and ARB_WEIGHT that wait for their frame
position 0, oldest first: the cycle, and both registers after it (R55). `offEntry` lists regions whose entry to OFF completes what was admitted (R351). `step` is the start step being worked on; `regionAt` lists (region, cycle from
which it may return to RETAIN), `offWake` (region, cycle in which its wake from OFF began). `dropped` has a bit for each port
dropped in this start before step S8, `droppedS8` for each dropped in it, `code` the decision code of the step's failed attempts (R362), `failing` the units that have failed every attempt of step S2 so far; `s8Ms`, `s9Ms` and `quickMarch` are
the settings that apply to this start (R370). -/
structure Power where
  clock : CoreClock
  vdd : VddLevel
  resetLow : Bool
  step : Option Nat
  stepAt : Nat
  attempt : Nat
  holdSince : Nat
  regionAt : List (Nat × Nat)
  offWake : List (Nat × Nat)
  offEntry : List Nat
  scHalted : Bool
  fatalAt : Option Nat
  fatalDone : Bool
  warmPending : Bool
  arbPend : List (Nat × Word64 × Word64)
  shareEff : Word64
  weightEff : Word64
  dropped : Nat
  droppedS8 : Nat
  code : Nat
  failing : List Nat
  vioOn : Bool
  s8Ms : Nat
  s9Ms : Nat
  quickMarch : Bool
  deriving DecidableEq, Repr

/-- One Shexa session (R384, R395). -/
structure SessState where
  machine : Bool
  keeper : Bool
  lastCmd : Nat
  deriving DecidableEq, Repr

/-- How far the SC is with the cellar record (R418, R419). -/
inductive CellarPhase where
  | idle | reading | writing | written
  deriving DecidableEq, Repr

/-- The SC's work on the cellar record: its access under way, the addresses of the descriptors still to read, those that were readable, and
the lines still to write, the header's last. -/
structure Cellar where
  phase : CellarPhase
  acc : Option EngAcc
  reads : List Nat
  got : List (Nat × List Byte)
  writes : List (Nat × List Byte)
  deriving DecidableEq, Repr

/-- Management state beside block 0x2A: the sessions, the console's line so far, completed
lines with the cycle of their completion (R392), the data lines of a console reply still to be written, the SC's own lines that wait for its
end, and when the line being written ends (R383, R384, R389), the chain's reply text, the keeper phrase, the PEEK fields of the snapshot, the last copy
of its core-side fields while the core is not clocked (R379), when LOCK_S falls next (R396), the read under way for a PEEK, the SC's access that
somebody waits for, the bytes of the cellar area that a
command has read so far, and its work on the cellar record. -/
structure Mgmt where
  console : SessState
  chain : SessState
  rx : List Byte
  sawCr : Bool
  lines : List (Session × Nat × List Byte)
  conReply : List (List Byte)
  conOwn : List (List Byte)
  conAt : Nat
  reply : List Byte
  phrase : List Byte
  peekAddr : Nat
  peekState : Nat
  peekRsp : Nat
  peekData : Word64
  peekAcc : Option EngAcc
  coreCopy : List Byte
  nextTick : Nat
  scAcc : Option EngAcc
  area : List Byte
  cellar : Cellar
  deriving DecidableEq, Repr

/-- What a trace entry says of an access (R414). -/
structure TraceInfo where
  time : Nat
  addr : Nat
  req : Nat
  slot : Nat
  half2 : Bool
  opcode : Nat
  len : Nat
  status : Status
  ce : Bool
  sup : Bool
  unit : Nat
  gsize : Nat
  gpos : Nat
  rot : Nat
  tag : Nat
  data : List Byte
  cls : Nat
  dest : Nat
  deriving DecidableEq, Repr

/-- Observation state beside block 0x30: pending counter occurrences of this cycle by event number, the counters reprogrammed in it with
their old EVENT, and whether FREEZE was written in it (R406, R407); the sampler state, its ring, and records of packed responses with the
cycle of point 7 and D6 (R410); the trace ring and the entries of this cycle, in their order (R415); whether an index was written in this
cycle (R412). -/
structure Obs where
  occ : List (Nat × Nat)
  reprog : List (Nat × Nat)
  freeze : Bool
  smpS : Nat
  smpSeq : Nat
  smpRing : List (Nat × BitVec 512)
  smpOut : List (Nat × Nat × Txn)
  smpCopy : Bool
  trRing : List (Nat × BitVec 256)
  trSeq : Nat
  trPend : List TraceInfo
  trCopy : Bool
  deriving DecidableEq, Repr

/-- What left the device: the model's record, newest first. -/
inductive Out where
  | response (port : Nat) (mgmt : Bool) (slot tag : Nat) (status : Status) (ce sup : Bool) (data : List Byte)
  | message (port : Nat) (bytes : List Byte)
  | flit (port : Nat) (bytes : List Byte)
  | marker (port : Nat) (flags : Nat)
  | burst (port : Nat)
  | symbols (port lane : Nat) (levels : List (BitVec 2))
  | pattern (port : Nat) (pins : Bool) (code : Nat)
  | echo (port : Nat)
  | trainingBlock (port lane : Nat) (bytes : List Byte)
  | pin (k : Nat) (asserted : Bool)
  | pairUnit (port : Nat) (bytes : List Byte)
  | frame (bytes : List Byte)
  | mdo (level : Bool)
  | console (bytes : List Byte)
  deriving DecidableEq, Repr

/-- The device. `tk` holds the copies of the triple-kept words TK0–TK95 by number. `before` lists (register, cycle, value) of registers written in a cycle whose old value still counts in it (R37, R119, R194);
`intcWait` the accesses that wait at the interrupt controller (R206, R355). -/
structure State where
  pending : List Instr
  variant : Variant
  time : Nat
  free : Nat
  nextUid : Nat
  regs : List (Nat × Word64)
  statCleared : List (Nat × Nat)
  tk : List (Nat × (Word64 × Word64 × Word64))
  cells : List Host.Cell
  banks : List (Nat × Bank)
  txns : List Txn
  heldOrd : List Txn
  semq : List StoreOp
  semStage : List StoreOp
  semServed : Option Nat
  semClearAt : Nat
  mbxq : List StoreOp
  mbxStage : List StoreOp
  mbxServed : Option Nat
  mbxClearAt : Nat
  commits : List MbxCommit
  tallies : List TallyWait
  vatGen : List (Nat × Nat)
  before : List (Nat × Nat × Word64)
  links : List (Nat × Link)
  phys : List (Nat × Phy)
  lanes : List (Nat × LaneDyn)
  queues : List (Nat × Queue)
  engines : List (Nat × Engine)
  pushes : List PushWait
  intcEvents : List Nat
  intcTurn : IntcTurn
  intcWait : List (Nat × Req)
  msgs : List IntcMsg
  pins : List (Nat × Bool)
  integ : Integ
  test : Test
  pair : Pair
  power : Power
  mgmt : Mgmt
  obs : Obs
  out : List Out
  deriving DecidableEq, Repr

/-- A bank with nothing waiting, its service pointer before P0 (R56). -/
def bankReset : Bank :=
  { queue := [], staging := [], ptr := 0, lastSlot := none, wbCycle := none, borrow := none, idleRun := 0, groupEnd := none }

/-- A link with no session (R306). -/
def linkReset : Link :=
  { kept := [], replayNext := none, replayDue := false, partialUnit := [], needSlots := 0, resync := false, rxSinceAck := 0, unackedSince := none,
    rxAckValid := false, nakSentAt := none, nakNs := 1000, progressAt := 0, progressNs := 1000, initSent := false, lcsDue := false, nakDue := false, partnerSize := [0, 0, 0, 0],
    partnerC := [0, 0, 0, 0], sent := [0, 0, 0, 0], received := [0, 0, 0, 0], freed := [0, 0, 0, 0], tx := [], txPart := none,
    limitFlit := none }

/-- A physical layer before its first attempt (R280). -/
def phyReset : Phy :=
  { attemptRate := 0, downsSinceUp := 0, detectCount := 0, stateAt := 0, retrainAt := 0, idleSince := 0, eiAsked := false,
    eiExitAt := none, heard := 0, good := 0, partnerAck := false, partnerRates := 0, partnerPrecode := false,
    partnerFeReq := false, partnerFeAllow := false, pendingSpare := none, pendingUnspare := false, echo := false, traffic := [], rates := 7, frames := 0, txBlocks := 0, rxBlocks := 0,
    markers := 0, eiMeets := none, eiCrossed := false }

/-- A receive lane with fresh windows (R273). -/
def laneReset : LaneDyn :=
  { hist := [], below := 0, belowHard := 0, above := 0, readaptAt := 0, plane := 9, txS := 0, rxS := 0, txP := 0, rxP := 0, coefReq := 0,
    reqSent := false, coefStat := 0, lastReq := 0 }

/-- A queue with nothing fetched. -/
def queueReset : Queue := { fetched := [], runs := [], accs := [], stopping := false, offlined := false }

/-- An engine that has served no queue yet. -/
def engineReset : Engine := { lastQ := 3, resetting := false, rackAt := none, issued := none }

/-- Session after a reset: watch level; the console is human, the chain machine (R384). -/
def sessReset (machine : Bool) : SessState := { machine := machine, keeper := false, lastCmd := 0 }

/-- Integrity state after power-on. -/
def integReset : Integ :=
  { intake := [], lastLogWrite := none, logUndo := none, leesSeq := 0, ueSeq := 0, recent := [], remaps := [], passStart := 0, nextVisit := 0,
    storeIndex := 0 }

/-- Test state after power-on. -/
def testReset : Test :=
  { fgUnit := none, fgMode := 0, fgAlgo := 0, fgEmpty := false, fgGroup := 0, fgFails := 0, fgAborting := false, fgEnd := 0,
    retPend := none, selfEnd := [], selfOnline := [], spareEnd := [], agents := [], weak := [], undef := [] }

/-- Pair state with no partner. -/
def pairReset : Pair :=
  { units := [], nextUtag := 0, lastHello := [], portLost := [], partner := none, helloDue := false, helloAt := 0,
    sourceCmd := 0, joining := false, syncSegs := [], syncPos := 0, syncLast := none, syncFault := none, heals := [], rxUnits := [], healWaits := [], orphanAt := 0 }

/-- The share and weight settings of the Reset column of R70: every home share 50 %, every weight 1. -/
def shareReset : Variant → Word64
  | .jz4x128 => 0xAA
  | _ => 0xAAAA

/-- The core runs from the PLL and step S0 is due (R427). -/
def powerReset (v : Variant) : Power :=
  { clock := .pll, vdd := .good, resetLow := false, step := some 0, stepAt := 0, attempt := 0, holdSince := 0,
    regionAt := [], offWake := [], offEntry := [], scHalted := false, fatalAt := none, fatalDone := false, warmPending := false, arbPend := [],
    shareEff := shareReset v, weightEff := 0, dropped := 0, droppedS8 := 0, code := 0, failing := [], vioOn := true,
    s8Ms := 100, s9Ms := 500, quickMarch := true }

/-- An upper-case hexadecimal digit. -/
def hexChar (n : Nat) : Byte := BitVec.ofNat 8 (if n % 16 < 10 then 48 + n % 16 else 55 + n % 16)

/-- The keeper phrase of a new device: the last 8 hex digits of ID_SERIAL, in upper case (R397). -/
def newPhrase : List Byte :=
  [7, 6, 5, 4, 3, 2, 1, 0].map (fun i => hexChar (Config.serial.toNat >>> (4 * i)))

/-- No cellar record is being written. -/
def cellarReset : Cellar := { phase := .idle, acc := none, reads := [], got := [], writes := [] }

/-- Management state of a new device. -/
def mgmtReset : Mgmt :=
  { console := sessReset false, chain := sessReset true, rx := [], sawCr := false, lines := [], conReply := [], conOwn := [],
    conAt := 0, reply := [], phrase := newPhrase, peekAddr := 0, peekState := 0, peekRsp := 0, peekData := 0, peekAcc := none, coreCopy := [],
    nextTick := 0, scAcc := none, area := [], cellar := cellarReset }

/-- Observation state after power-on: the sampler state s is the reset SEED (R409, R420). -/
def obsReset : Obs :=
  { occ := [], reprog := [], freeze := false, smpS := 1, smpSeq := 0, smpRing := [], smpOut := [], smpCopy := false, trRing := [],
    trSeq := 0, trPend := [], trCopy := false }

/-- Registers that a power-on reset leaves off their Reset column: KIND is 1, and the start record says that no step is reached yet, with its
CRC (R362, R367). -/
def startRegs : List (Nat × Word64) := [(0x280038, 0x1F4006411FF), (0x280060, 0x1FFFF01), (0x280078, 0x54114F2B00000000)]

/-- The device right after power-on reset, step S0 of the start sequence about to be worked on (R354, R357, R427): every
register at the Reset column of its table, array and stores zero. The variant is a model choice (log entry 1). -/
def State.reset : State :=
  { pending := [], variant := .jz8x256, time := 0, free := 0, nextUid := 0, regs := startRegs, statCleared := [], tk := [(6, 0x1FF, 0x1FF, 0x1FF)], cells := [], banks := [],
    txns := [], heldOrd := [], semq := [], semStage := [], semServed := none, semClearAt := 0, mbxq := [], mbxStage := [], mbxServed := none,
    mbxClearAt := 0, commits := [], tallies := [], vatGen := [], before := [], links := [], phys := [], lanes := [], queues := [],
    engines := [], pushes := [], intcEvents := [], intcTurn := { time := 0, next := 0, wrote := false, wasRead := false }, intcWait := [], msgs := [], pins := [], integ := integReset, test := testReset,
    pair := pairReset, power := powerReset .jz8x256, mgmt := mgmtReset, obs := obsReset, out := [] }

end Sys2Proof.Machine
end

