-- ==== Sys2Proof/Machine/Flags.lean ====
section
/-! DEFINITION. Statuses and flags: their codes (R314), the merge of the two halves of a split request (R50), requester
identifiers (R52) and opcode classes (R33, R310). -/

namespace Sys2Proof.Machine

/-- Status codes of the table "Response status codes" (R314). -/
def statusCode : Status → Nat
  | .ok => 0
  | .ue => 1
  | .poison => 2
  | .absent => 3
  | .denied => 4
  | .misalign => 5
  | .retry => 6
  | .novat => 7
  | .range => 8
  | .busy => 9

/-- The place of a status in the order UE, POISON, BUSY, RETRY, OK of R50; statuses that arise at decode never meet a merge. -/
def severity : Status → Nat
  | .ok => 0
  | .retry => 1
  | .busy => 2
  | .poison => 3
  | .ue => 4
  | _ => 5

/-- The more severe of two halves' statuses (R50). -/
def worseStatus (a b : Status) : Status := if severity a < severity b then b else a

/-- Requester identifiers (R52). -/
def whoId : Who → Nat
  | .port p _ => p
  | .engine e _ => 8 + e
  | .sc => 24
  | .pairFwd => 25
  | .vatUnit => 26
  | .scrub => 27
  | .test => 28
  | .notify => 29

/-- The agent slot of a requester; zero when it is no port. -/
def whoSlot : Who → Nat
  | .port _ s => s
  | _ => 0

/-- Trace class of a request (R413): 0 READ and RDCV, 1 WRITE, 2 atomic, 3 ACC. -/
def traceClass : Op → Nat
  | .read => 0
  | .rdcv => 0
  | .write => 1
  | .atomic _ => 2
  | .acc => 3
  | .fence => 4

/-- Whether a request returns data (R313). -/
def returnsData : Op → Bool
  | .read => true
  | .rdcv => true
  | .atomic _ => true
  | _ => false

end Sys2Proof.Machine
end

