-- ==== Sys2Proof/Machine/Regs.lean ====
section
/-! DEFINITION. The register file: which units and registers are present (R2, R3, R30, R32, R197), what a register holds at
reset (R10, R40, R41), triple-kept words (R236), the two views (R35–R38), and reading and writing fields. -/

namespace Sys2Proof.Machine

/-! ### Units present (R2) -/

/-- Number of ports. -/
def numPorts : Variant → Nat
  | .jz4x128 => 4
  | _ => 8

/-- Number of engines. -/
def numEngines : Variant → Nat
  | .jz4x128 => 4
  | _ => 16

/-- Number of mailboxes, and of private sources. -/
def numMailboxes : Variant → Nat
  | .jz4x128 => 2048
  | _ => 4096

/-- Number of spare banks. -/
def numSpares : Variant → Nat
  | .jz8x256 => 2
  | _ => 1

/-- Banks per region (R41). -/
def banksPerRegion : Variant → Nat
  | .jz8x128 => 4
  | _ => 8

/-- Whether bank `b` is present. -/
def bankPresent (v : Variant) (b : Nat) : Bool :=
  match v with
  | .jz8x256 => b < 64
  | .jz8x128 => b < 64 && b % 8 < 4
  | .jz4x128 => b < 32

/-- Whether the matching assist, FW128 and pair mode are present. -/
def bigVariant : Variant → Bool
  | .jz4x128 => false
  | _ => true

/-- Whether interrupt target `t` is present. -/
def targetPresent (v : Variant) (t : Nat) : Bool :=
  t < 36 && (bigVariant v || t < 16 || 32 ≤ t)

/-- Whether interrupt source `n` is present (R195, R197). -/
def sourcePresent (v : Variant) (n : Nat) : Bool :=
  if n < 4096 then n < numMailboxes v
  else if n ≤ 4100 then n != 4099 || bigVariant v
  else if n < 4104 then false
  else if n < 4112 then n - 4104 < numPorts v
  else if n < 4128 then n - 4112 < numEngines v
  else n < 4132

/-- Physical units: banks 0–63, spares 64 and 65, the semaphore store 66, the mailbox store 67. -/
def unitPresent (v : Variant) (u : Nat) : Bool :=
  if u < 64 then bankPresent v u else if u < 66 then u - 64 < numSpares v else u < 68

/-- Region of an array address. -/
def regionOf (addr : Nat) : Nat := (addr >>> 25) % 8

/-- Whether an address is a present data-array address (R26, R27). -/
def arrayPresent (v : Variant) (addr : Nat) : Bool :=
  addr < 0x10000000 &&
  match v with
  | .jz8x256 => true
  | .jz8x128 => !bitOf addr 24
  | .jz4x128 => !bitOf addr 27

/-- Whether region `h` is present. -/
def regionPresent (v : Variant) (h : Nat) : Bool := h < numPorts v

/-- The base of the cellar record area (R28). -/
def cellarBase : Variant → Nat
  | .jz8x256 => 0x0FF00000
  | .jz8x128 => 0x0EF00000
  | .jz4x128 => 0x07F00000

/-! ### Registers present (R3, R30, R32) -/

/-- Whether a table row holds the register at a key. -/
def rowHolds (r : RegRow) (key : Nat) : Bool :=
  decide (r.base ≤ key) &&
  let d := key - r.base
  decide (d / r.s1 < r.n1) && decide (d % r.s1 % r.s2 = 0) && decide ((d % r.s1) / r.s2 < r.n2)

/-- The table row of a register. -/
def findRow (key : Nat) : Option RegRow := (regRows (key / 0x10000)).find? (fun r => rowHolds r key)

/-- Whether the unit that a register belongs to is present. -/
def ownerPresent (v : Variant) (key : Nat) : Bool :=
  let block := key / 0x10000
  let off := key % 0x10000
  if 0x02 ≤ block && block ≤ 0x09 then block - 2 < numPorts v
  else if block = 0x0A then off ≥ 0x8000 || off / 0x1000 < numPorts v
  else if block = 0x10 then off < 0x100 || bankPresent v ((off - 0x100) / 8)
  else if block = 0x11 then !(0x100 ≤ off && off < 0x320) || unitPresent v ((off - 0x100) / 8)
  else if block = 0x12 then
    (!(0x100 ≤ off && off < 0x310) || unitPresent v ((off - 0x100) / 8)) &&
    (off < 0x1000 || unitPresent v ((off - 0x1000) / 0x40))
  else if block = 0x15 then off ≥ 0x8000 || off / 8 < numMailboxes v
  else if block = 0x18 then off / 0x1000 < numEngines v
  else if block = 0x19 then bigVariant v
  else if block = 0x20 then sourcePresent v (off / 8)
  else if block = 0x21 then targetPresent v (off / 0x100)
  else if block = 0x29 then bigVariant v
  else true

/-- Whether a register is present. -/
def regPresent (v : Variant) (key : Nat) : Bool := (findRow key).isSome && ownerPresent v key

/-! ### Values at reset -/

/-- The ones of the fields of absent units in a present register (R5). -/
def absentBits (v : Variant) (key : Nat) : Word64 :=
  if v = .jz8x256 then 0
  else if v = .jz8x128 then
    if key = R_TST_BG_BANKS || key = R_INT_SELFTEST then 0xF0F0F0F0F0F0F0F0 else 0
  else if key = R_ARB_SHARE || key = R_PWR_REGION then 0xFF00
  else if key = R_ARB_WEIGHT then 0x3FFFFFF00
  else if key = R_TST_BG_BANKS || key = R_INT_SELFTEST then 0xFFFFFFFF00000000
  else if key = R_MG_GRANT || key = R_MG_PORTEN then 0xF0
  else if key = R_PWR_REGSTAT then 0xFFF000
  else if key = R_PWR_RESET then 0xF000
  else if key = R_TR_MASK then 0x2FFF0F0
  else 0

/-- The capability and identity words (R40, R41). -/
def idWord (v : Variant) (off : Nat) : Word64 :=
  let big := bigVariant v
  match off with
  | 0x00 => w64 (0x4E4C <<< 48 + 0x4A5A <<< 32 +
      (match v with | .jz8x256 => 0x8256 | .jz8x128 => 0x8128 | .jz4x128 => 0x4128) <<< 16 +
      Config.stepping.toNat <<< 8)
  | 0x10 => Config.serial
  | 0x20 => w64 ((if big then 0xFFFF else 0x0F0F) + banksPerRegion v <<< 16 + numSpares v <<< 20 +
      (if v = .jz8x128 then 16 else 32) <<< 24 + (if v = .jz8x256 then 256 else 128) <<< 32)
  | 0x28 => w64 ((if big then 0xFFFF + 0x7 <<< 16 + 256 <<< 32 else 0x000F) + 1024 <<< 48)
  | 0x30 => w64 (65536 + numMailboxes v <<< 32)
  | 0x38 => w64 ((if big then 0xFFFFFFFFF else 0xF0000FFFF) + numMailboxes v <<< 40)
  | 0x40 => w64 (cellarBase v + 1024 <<< 32)
  | 0x48 => 0x187
  | 0x50 => w64 (64 + 1024 <<< 16 + 16384 <<< 32)
  | _ => 0

/-- The value that a register's table gives after power-on reset: the Reset columns of its fields together (R10), the fields of
absent units zero (R5). -/
def tableReset (v : Variant) (key : Nat) : Word64 :=
  match findRow key with
  | none => 0
  | some r => (r.fields.foldl (fun w f => setF w f.fld f.reset) 0) &&& ~~~(absentBits v key)

/-- The reset value of a register: its table's, with the values that the tables give in words. -/
def regReset (v : Variant) (key : Nat) : Word64 :=
  if key < 0x10000 then idWord v key
  else if key = R_SRC_ENTRY 4096 then
    w64 (1 + 15 <<< 1 + 35 <<< 32)
  else if R_SRC_ENTRY 0 ≤ key && key < R_SRC_ENTRY 4096 then w64 (((key - R_SRC_ENTRY 0) / 8 / 128) <<< 32)
  else if R_TGT_CTL 32 ≤ key && key ≤ R_TGT_CTL 35 && key % 0x100 = 0 then 0x10
  else if key = R_RET_STAT then w64 (numSpares v)
  else tableReset v key

/-! ### Triple-kept words (R236) -/

/-- The number n of the triple-kept word TKn that holds a register, whole, or the [36:32] bits of an INT_UNITERR (TK16 + u). -/
def tkIndex (key : Nat) : Option Nat :=
  if key = R_MG_CHAINADDR then some 0
  else if key = R_MG_GRANT then some 1
  else if key = R_MG_PORTEN then some 2
  else if key = R_RET_MAP then some 3
  else if key = R_PR_ROLE then some 4
  else if key = R_MG_KEEPLOCK then some 5
  else if key = R_PWR_STEPREC then some 6
  else if key = R_CEL_CTL then some 7
  else if key = R_PR_MIRROR then some 8
  else if key = R_PR_EPOCH then some 9
  else if R_INT_UNITERR 0 ≤ key && key < R_INT_UNITERR 66 then some (16 + (key - R_INT_UNITERR 0) / 8)
  else none

/-- The bits of a register that its triple-kept word holds. -/
def tkMask (n : Nat) : Word64 := if 16 ≤ n then 0x1F00000000 else BitVec.allOnes 64

/-- The bitwise majority of three copies. -/
def majority (t : Word64 × Word64 × Word64) : Word64 :=
  (t.1 &&& t.2.1) ||| (t.1 &&& t.2.2) ||| (t.2.1 &&& t.2.2)

/-- The three copies of a triple-kept word; a word not listed holds its register's reset value three times. -/
def tkCopies (s : State) (key n : Nat) : Word64 × Word64 × Word64 :=
  let d := regReset s.variant key &&& tkMask n
  sget (d, d, d) s.tk n

/-- The register that shows the word TKn; `none` for the reserved words TK10–TK15 and the SC's own TK82–TK95. -/
def tkKey (n : Nat) : Option Nat :=
  if n < 10 then some ([R_MG_CHAINADDR, R_MG_GRANT, R_MG_PORTEN, R_RET_MAP, R_PR_ROLE, R_MG_KEEPLOCK, R_PWR_STEPREC, R_CEL_CTL, R_PR_MIRROR,
    R_PR_EPOCH].getD n 0)
  else if 16 ≤ n && n < 82 then some (R_INT_UNITERR (n - 16))
  else none

/-- The reset value of TKn; a word that no register shows holds zero (R236; of the SC's words PRESUMED, log entry 51). -/
def tkReset (v : Variant) (n : Nat) : Word64 :=
  match tkKey n with
  | some key => regReset v key &&& tkMask n
  | none => 0

/-! ### Reading and writing whole registers and fields -/

/-- The value of a register as the device's units read it; a triple-kept word by majority. -/
def rd (s : State) (key : Nat) : Word64 :=
  match tkIndex key with
  | none => sget (regReset s.variant key) s.regs key
  | some n =>
    if 16 ≤ n then (sget (regReset s.variant key) s.regs key &&& ~~~(tkMask n)) ||| (majority (tkCopies s key n) &&& tkMask n)
    else majority (tkCopies s key n)

/-- Set a register; a triple-kept word in all three copies. -/
def wr (s : State) (key : Nat) (w : Word64) : State :=
  match tkIndex key with
  | none => { s with regs := sset (regReset s.variant key) s.regs key w }
  | some n =>
    let d := regReset s.variant key &&& tkMask n
    let t := w &&& tkMask n
    let s := { s with tk := sset (d, d, d) s.tk n (t, t, t) }
    if 16 ≤ n then { s with regs := sset (regReset s.variant key) s.regs key (w &&& ~~~(tkMask n)) } else s

/-- A field of a register. -/
def rdF (s : State) (key : Nat) (f : Fld) : Nat := getF (rd s key) f

/-- Whether a one-bit field is set. -/
def rdB (s : State) (key : Nat) (f : Fld) : Bool := hasF (rd s key) f

/-- Replace a field of a register. -/
def wrF (s : State) (key : Nat) (f : Fld) (v : Nat) : State := wr s key (setF (rd s key) f v)

/-- Set or clear a one-bit field. -/
def wrB (s : State) (key : Nat) (f : Fld) (b : Bool) : State := wrF s key f (b01 b)

/-- Set a field of a register beside the part that a triple-kept word holds: CE and UE of an INT_UNITERR. The copies stay as they are, also
when they disagree (R236). -/
def wrBeside (s : State) (key : Nat) (f : Fld) (v : Nat) : State :=
  let d := regReset s.variant key
  { s with regs := sset d s.regs key (setF (sget d s.regs key) f v) }

/-- Add to a counter that saturates at its field's largest value. -/
def addSat (s : State) (key : Nat) (f : Fld) (n : Nat) : State :=
  wrF s key f (min (rdF s key f + n) (2 ^ f.width - 1))

/-- Add to a counter that wraps at its field's width. -/
def addWrap (s : State) (key : Nat) (f : Fld) (n : Nat) : State := wrF s key f (rdF s key f + n)

/-- What a write leaves in the fields of a register with no behaviour of its own, by access code (R11): a read-only or
write-only field keeps its value, a W1C field loses the bits written as 1, bits of absent units and reserved bits stay zero
(R5, R9). -/
def fieldWrite (old new : Word64) : List FieldRow → Word64
  | [] => old
  | f :: fs =>
    let old := fieldWrite old new fs
    match f.access with
    | .rw => setF old f.fld (getF new f.fld)
    | .w1c => old &&& ~~~(new &&& fldMask f.fld)
    | _ => old

/-- Whether a register has a field that a plain write changes. -/
def rowWrites (r : RegRow) : Bool := r.fields.any (fun f => f.access = .rw || f.access = .w1c)

/-- The plain effect of a register write; a register of read-only fields, and its triple-kept word, stay as they are (R11, R236). -/
def plainWrite (s : State) (key : Nat) (v : Word64) : State :=
  match findRow key with
  | none => s
  | some r => if !rowWrites r then s else wr s key (fieldWrite (rd s key) v r.fields &&& ~~~(absentBits s.variant key))

/-- The bits that a W1S field of a register write carries as 1. -/
def acts (v : Word64) (f : Fld) : Bool := hasF v f

/-! ### Values before the writes of this cycle -/

/-- Keep the value that a register has before a write of this cycle; older cycles' values go. -/
def noteBefore (s : State) (key : Nat) : State :=
  if s.before.any (fun x => x.1 = key && x.2.1 = s.time) then s
  else { s with before := (key, s.time, rd s key) :: s.before.filter (fun x => x.2.1 = s.time) }

/-- A register as it stood before the writes of this cycle that noteBefore saw. -/
def rdBefore (s : State) (key : Nat) : Word64 :=
  match s.before.find? (fun x => x.1 = key && x.2.1 = s.time) with
  | some x => x.2.2
  | none => rd s key

/-- Triple-kept words with keep-store backing (R236, R357). -/
def tkBacked (n : Nat) : Bool := n != 0 && n != 5 && n < 16

/-! ### Views (R35–R38) -/

/-- How a register appears in a view. -/
inductive ViewMode where
  | full | read | absent
  deriving DecidableEq, Repr

/-- Whether port `p` is privileged: its bit of the triple-kept grant, as it stood before the writes of this cycle (R398). -/
def portPrivileged (s : State) (p : Nat) : Bool := bitOf (rdBefore s R_MG_GRANT).toNat p

/-- The unprivileged view of port `p` (R37), for a present register, as it stood before the writes of this cycle. -/
def unprivMode (s : State) (p key : Nat) : ViewMode :=
  let block := key / 0x10000
  let off := key % 0x10000
  if block = 0x00 then .read
  else if block = 0x01 then (if off = 0 then .read else .absent)
  else if block = 0x02 + p then .read
  else if block = 0x15 then (if off / 0x1000 = p then .read else .absent)
  else if block = 0x16 then .read
  else if block = 0x20 then
    if off / 8 < 4096 then (if off / 0x1000 = p then .full else .absent)
    else if getF (rdBefore s key) SRC_ENTRY_TARGET / 4 = p then .read else .absent
  else if block = 0x21 then (if off / 0x400 = p then .full else .absent)
  else if block = 0x29 then .read
  else if block = 0x30 then .read
  else .absent

end Sys2Proof.Machine
end

