-- ==== Sys2Proof/Machine/Ops.lean ====
section
/-! DEFINITION. Named operations that every family shares: parts of the state by index, events on interrupt sources (R18),
occurrences of performance events (R403, R404), answers to requests (R49, R50, R66), trace entries (R413–R415) and sampler
points (R410). -/

namespace Sys2Proof.Machine

/-! ### Parts of the state by index -/

/-- Bank `b`. -/
def bankOf (s : State) (b : Nat) : Bank := sget bankReset s.banks b
/-- Replace bank `b`. -/
def setBank (s : State) (b : Nat) (v : Bank) : State := { s with banks := sset bankReset s.banks b v }
/-- Link layer of port `p`. -/
def linkOf (s : State) (p : Nat) : Link := sget linkReset s.links p
/-- Replace the link layer of port `p`. -/
def setLink (s : State) (p : Nat) (v : Link) : State := { s with links := sset linkReset s.links p v }
/-- Physical layer of port `p`. -/
def phyOf (s : State) (p : Nat) : Phy := sget phyReset s.phys p
/-- Replace the physical layer of port `p`. -/
def setPhy (s : State) (p : Nat) (v : Phy) : State := { s with phys := sset phyReset s.phys p v }
/-- Receive lane `j` of port `p`; 8 is the spare. -/
def laneOf (s : State) (p j : Nat) : LaneDyn := sget laneReset s.lanes (p * 16 + j)
/-- Replace receive lane `j` of port `p`. -/
def setLane (s : State) (p j : Nat) (v : LaneDyn) : State := { s with lanes := sset laneReset s.lanes (p * 16 + j) v }
/-- Queue `q` of engine `e`. -/
def queueOf (s : State) (e q : Nat) : Queue := sget queueReset s.queues (e * 4 + q)
/-- Replace queue `q` of engine `e`. -/
def setQueue (s : State) (e q : Nat) (v : Queue) : State := { s with queues := sset queueReset s.queues (e * 4 + q) v }
/-- Engine `e`. -/
def engineOf (s : State) (e : Nat) : Engine := sget engineReset s.engines e
/-- Replace engine `e`. -/
def setEngine (s : State) (e : Nat) (v : Engine) : State := { s with engines := sset engineReset s.engines e v }
/-- Take the next request number. -/
def takeUid (s : State) : Nat × State := (s.nextUid, { s with nextUid := s.nextUid + 1 })
/-- Record what leaves the device. -/
def emit (s : State) (o : Out) : State := { s with out := o :: s.out }

/-! ### Events and occurrences -/

/-- One event on interrupt source `n`, applied in the controller's next cycle (R206). An event addressed to an absent source
never arises (R197). -/
def raiseSource (s : State) (n : Nat) : State :=
  if sourcePresent s.variant n then { s with intcEvents := s.intcEvents ++ [n] } else s

/-- `n` occurrences of performance event `ev` in this cycle (R403). -/
def occurN (s : State) (ev n : Nat) : State :=
  if ev = 0 then s else { s with obs := { s.obs with occ := sset 0 s.obs.occ ev (sget 0 s.obs.occ ev + n) } }

/-- One occurrence of performance event `ev`. -/
def occur (s : State) (ev : Nat) : State := occurN s ev 1

/-! Event numbers of group 0 (R404). -/

/-- requests and run members accepted at all ports -/
def EV_ACCEPTED : Nat := 2
/-- responses OK -/
def EV_RSP_OK : Nat := 3
/-- responses with another status -/
def EV_RSP_OTHER : Nat := 4
/-- responses with CE -/
def EV_RSP_CE : Nat := 5
/-- responses with SUP -/
def EV_RSP_SUP : Nat := 6
/-- semaphore operations served -/
def EV_SEM_SERVED : Nat := 7
/-- mailbox operations served -/
def EV_MBX_SERVED : Nat := 8
/-- doorbells served -/
def EV_DOORBELLS : Nat := 9
/-- vat tally steps -/
def EV_TALLY : Nat := 10
/-- vat completions -/
def EV_COMPLETIONS : Nat := 11
/-- INTR messages sent -/
def EV_INTR : Nat := 12
/-- WAKE messages sent -/
def EV_WAKE : Nat := 13
/-- WITHDRAW messages sent -/
def EV_WITHDRAW : Nat := 14
/-- corrected codewords -/
def EV_CE : Nat := 15
/-- uncorrectable codewords -/
def EV_UE : Nat := 16
/-- scrub visits -/
def EV_SCRUB : Nat := 17
/-- test-agent slots -/
def EV_TEST : Nat := 18
/-- accesses set aside by a background-test hold -/
def EV_HELD : Nat := 19
/-- pair units forwarded -/
def EV_PAIR_SENT : Nat := 21
/-- pair units accepted by the partner -/
def EV_PAIR_ACC : Nat := 22
/-- requests split under R49 -/
def EV_SPLIT : Nat := 23
/-- MATCH descriptors ended -/
def EV_MATCH : Nat := 24
/-- bank U: slots served -/
def evSlots (b : Nat) : Nat := 64 + b
/-- bank U: cycles with a request presented and not served -/
def evWaiting (b : Nat) : Nat := 128 + b
/-- bank U: ACCs served -/
def evAccs (b : Nat) : Nat := 192 + b
/-- bank U: arbitration groups of two or more members -/
def evGroups (b : Nat) : Nat := 256 + b
/-- port U, item (R404, group 5) -/
def evPort (p item : Nat) : Nat := 320 + p * 8 + item
/-- engine U, item (R404, group 6) -/
def evEngine (e item : Nat) : Nat := 384 + e * 4 + item

/-! ### Addresses -/

/-- Decoded bank of a present array address (R26). -/
def bankIndex (v : Variant) (addr : Nat) : Nat :=
  regionOf addr * 8 + (if v = .jz8x128 then bitsOf addr 9 8 else bitsOf addr 10 8)

/-- Bank-local line of a present array address: row × 4 + line within the block (R26). -/
def bankLine (v : Variant) (addr : Nat) : Nat :=
  (if v = .jz8x128 then bitsOf addr 23 10 else bitsOf addr 24 11) * 4 + bitsOf addr 7 6

/-- The array address of a bank's decoded line (R26). -/
def lineAddr (v : Variant) (b line : Nat) : Nat :=
  (b / 8) * 0x2000000 + (if v = .jz8x128 then (line / 4) * 0x400 + (b % 4) * 0x100 else (line / 4) * 0x800 + (b % 8) * 0x100) +
    (line % 4) * 0x40

/-- The line address of an address. -/
def lineBase (addr : Nat) : Nat := addr - addr % 64

/-! ### Answers -/

/-- Whether a request in flight has nothing left to be served, and nothing to wait for (R66). -/
def txnServed (t : Txn) : Bool := t.left = 0 && t.waits = 0

/-- Whether a request in flight, not answered yet, is complete (R66, R68, R77): a read, and a CAS that stores nothing, is complete when it is
answered, or served when its response is discarded (R320). -/
def txnComplete (t : Txn) : Bool :=
  match t.req.op with
  | .read => t.lost && t.due.isSome
  | .rdcv => t.lost && t.due.isSome
  | .fence => t.due.isSome
  | _ => if t.noStore then t.lost && t.due.isSome else txnServed t

/-- The response of a request falls due when it is served; that of a FENCE is noted by settleFences. -/
def noteDue (s : State) (t : Txn) : Txn :=
  if txnServed t && t.due.isNone && t.req.op != .fence then { t with due := some s.time } else t

/-- Whether every earlier request of the (port, slot) of request `t` is complete (R67, R68). -/
def earlierDone (txns held : List Txn) (t : Txn) : Bool :=
  (txns.filter (fun x => x.req.who = t.req.who && x.uid < t.uid)).all txnComplete &&
  !held.any (fun x => x.req.who = t.req.who && x.uid < t.uid)

/-- A FENCE falls due once every earlier request of its (port, slot) is complete (R68). Requests stand in the order received. One
whose response is discarded is forgotten when it has been carried out (R320). -/
def settleFences (s : State) : State :=
  { s with txns := (s.txns.foldl (fun acc t =>
      acc ++ [if t.req.op = .fence && t.due.isNone && earlierDone acc s.heldOrd t then { t with due := some s.time } else t])
      []).filter (fun t => !(t.lost && t.due.isSome)) }

/-- Merge a part's answer into a status, CE, SUP and the halves' data (R50): SUP only when every half earned it. -/
def mergePart (t : Txn) (half : Nat) (st : Status) (ce sup : Bool) (data : List Byte) (waits : Nat) : Txn :=
  { t with left := t.left - 1, waits := t.waits + waits, status := worseStatus t.status st, ce := t.ce || ce,
           sup := t.sup && sup, data0 := if half = 0 then data else t.data0, data1 := if half = 1 then data else t.data1 }

/-- Replace the request in flight `uid`, and note what falls due. -/
def mapTxn (s : State) (uid : Nat) (f : Txn → Txn) : State :=
  settleFences { s with txns := s.txns.map (fun t => if t.uid = uid then noteDue s (f t) else t) }

/-- An access of an engine is complete when it has been served and waits for nothing (R66, R145). -/
def noteDone (s : State) (a : EngAcc) : EngAcc :=
  if a.left = 0 && a.waits = 0 && a.doneAt.isNone then { a with doneAt := some s.time } else a

/-- Replace the access `uid` of a queue, and note when it is complete. -/
def mapAcc (s : State) (e q uid : Nat) (f : EngAcc → EngAcc) : State :=
  let k := queueOf s e q
  setQueue s e q { k with accs := k.accs.map (fun a => if a.uid = uid then noteDone s (f a) else a) }

/-- Replace an access of the SC, and note when it is complete. -/
def mapSc (s : State) (uid : Nat) (f : EngAcc → EngAcc) : State :=
  let g (a : EngAcc) : EngAcc := if a.uid = uid then noteDone s (f a) else a
  let m := s.mgmt
  { s with mgmt := { m with scAcc := m.scAcc.map g, peekAcc := m.peekAcc.map g, cellar := { m.cellar with acc := m.cellar.acc.map g } } }

/-- Whether a request is an access of the SC for the cellar record, whose writes are never forwarded (R418). -/
def isCellar (s : State) (who : Who) (uid : Nat) : Bool :=
  who = .sc && (match s.mgmt.cellar.acc with
    | some a => a.uid = uid
    | none => false)

/-- A half of an engine's or the SC's access is served in a cycle with an answer (R50). -/
def mergeAcc (a : EngAcc) (time half : Nat) (st : Status) (ce : Bool) (data : List Byte) (waits : Nat) : EngAcc :=
  { a with servedAt := time, left := a.left - 1, waits := a.waits + waits, status := worseStatus a.status st, ce := a.ce || ce,
           data0 := if half = 0 then data else a.data0, data1 := if half = 1 then data else a.data1 }

/-- A half of an access is served with an answer; `waits` more things must happen before the access is complete (R66). -/
def answerPart (s : State) (who : Who) (uid half : Nat) (st : Status) (ce sup : Bool) (data : List Byte) (waits : Nat) :
    State :=
  match who with
  | .port _ _ => mapTxn s uid (fun t => mergePart t half st ce sup data waits)
  | .engine e q => mapAcc s e q uid (fun a => mergeAcc a s.time half st ce data waits)
  | .sc => mapSc s uid (fun a => mergeAcc a s.time half st ce data waits)
  | _ => s

/-- One of the things an access waited for has happened (R66, R100, R334). -/
def releaseWait (s : State) (who : Who) (uid : Nat) : State :=
  match who with
  | .port _ _ => mapTxn s uid (fun t => { t with waits := t.waits - 1 })
  | .engine e q => mapAcc s e q uid (fun a => { a with waits := a.waits - 1 })
  | .sc => mapSc s uid (fun a => { a with waits := a.waits - 1 })
  | _ => s

/-- Record points 3 to 5 of a tagged request: its destination, bank, group and the cycle (R410, R411). A bank access takes 12 cycles, and ECC
decode and rotator 8 (table "Unloaded read latency budget"); outside the array point 5 is point 4, a free value (log entry 23). -/
def samplePoint (s : State) (who : Who) (uid dest bank gsize gpos : Nat) : State :=
  match who with
  | .port _ _ => mapTxn s uid (fun t =>
      { t with sample := t.sample.map (fun m =>
          let d3 := s.time - m.t1
          let free := (Config.freeWord (m.free + 1)).toNat
          { m with d3 := d3, d4 := if dest = 0 then d3 + 12 else free, d5 := if dest = 0 then d3 + 20 else free, dest := dest,
                   bank := bank, gsize := gsize, gpos := gpos }) })
  | _ => s

/-- A tagged request enters a queue: its destination, bank, and how many requests are ahead of it (R411). -/
def sampleQueued (s : State) (who : Who) (uid dest bank depth : Nat) : State :=
  match who with
  | .port _ _ => mapTxn s uid (fun t =>
      { t with sample := t.sample.map (fun m => { m with dest := dest, bank := bank, qdepth := min depth 7 }) })
  | _ => s

/-- A tagged request has been set aside by a hold (R411). -/
def sampleHeld (s : State) (who : Who) (uid : Nat) : State :=
  match who with
  | .port _ _ => mapTxn s uid (fun t => { t with sample := t.sample.map (fun m => { m with held := true }) })
  | _ => s

/-! ### Trace (R413–R415) -/

/-- Whether an access passes the filters of TR_ADDR and TR_MASK (R413). -/
def tracePasses (s : State) (t : TraceInfo) : Bool :=
  rdB s R_TR_CTL TR_CTL_RUN &&
  (t.unit != 67 || rdB s R_TR_CTL TR_CTL_REFUSED) &&
  rdF s R_TR_ADDR TR_ADDR_LO ≤ t.addr && t.addr ≤ rdF s R_TR_ADDR TR_ADDR_HI &&
  bitOf (rdF s R_TR_MASK TR_MASK_REQS) t.req && bitOf (rdF s R_TR_MASK TR_MASK_CLASSES) t.cls &&
  bitOf (rdF s R_TR_MASK TR_MASK_DESTS) t.dest

/-- The 32 bytes of a trace entry (R414); data only with status OK. -/
def traceBytes (t : TraceInfo) (seq : Nat) : BitVec 256 :=
  BitVec.ofNat 256 (leNat (leBytes 8 t.time ++ leBytes 4 t.addr ++
    leBytes 1 (t.req + t.slot <<< 5 + (b01 t.half2) <<< 7) ++ leBytes 1 t.opcode ++ leBytes 1 t.len ++
    leBytes 1 (statusCode t.status + (b01 t.ce) <<< 4 + (b01 t.sup) <<< 5) ++ leBytes 1 t.unit ++ leBytes 1 t.gsize ++
    leBytes 1 t.gpos ++ leBytes 1 t.rot ++ leBytes 2 t.tag ++ leBytes 2 seq ++
    (if t.status = .ok && t.cls != 4 then sliceBytes t.data 0 (min 8 t.data.length) else [])))

/-- Whether an entry of a cycle goes before another: by UNIT, and by GPOS within a group (R415). -/
def traceBefore (a b : TraceInfo) : Bool := a.unit < b.unit || (a.unit = b.unit && a.gpos < b.gpos)

/-- Put an entry into its place among those of its cycle. -/
def insertTrace (t : TraceInfo) : List TraceInfo → List TraceInfo
  | [] => [t]
  | x :: xs => if traceBefore t x then t :: x :: xs else x :: insertTrace t xs

/-- Enter an access into the trace when it passes the filters (R413); the ring takes the entries of a cycle at its end. -/
def trace (s : State) (t : TraceInfo) : State :=
  if tracePasses s t then { s with obs := { s.obs with trPend := insertTrace t s.obs.trPend } } else s

end Sys2Proof.Machine
end

