-- ==== Sys2Proof/Machine/Cells.lean ====
section
/-! DEFINITION. Physical cells and what is found in them: codewords by unit and physical line (R217, R221), redirection by the
retire map and the remap entries (R17, R235, R256), counters and logs of findings (R225–R230), hard-fault candidates
(R233, R234), the start of a remap (R235) and error injection (R238). -/

namespace Sys2Proof.Machine

/-! ### Cells -/

/-- The key of byte `k` of a stored codeword: bytes 0–31 of data, 32–34 of the check field. -/
def cellKey (unit line cw k : Nat) : Nat := ((unit * 131072 + line) * 2 + cw) * 64 + k

/-- A byte of the cells; an unlisted one is zero (R69, R218). -/
def cellByte (s : State) (key : Nat) : Byte := sget 0 s.cells key

/-- Set a byte of the cells. -/
def setCellByte (s : State) (key : Nat) (b : Byte) : State := { s with cells := sset 0 s.cells key b }

/-- Set consecutive bytes of the cells. -/
def setCellBytes (s : State) (key : Nat) : List Byte → State
  | [] => s
  | b :: bs => setCellBytes (setCellByte s key b) (key + 1) bs

/-- Consecutive bytes of the cells. -/
def cellBytes (s : State) (key : Nat) : Nat → List Byte
  | 0 => []
  | n + 1 => cellByte s key :: cellBytes s (key + 1) n

/-- Whether an aborted destructive test has left a unit undefined (R252). -/
def unitUndefined (s : State) (unit : Nat) : Bool := s.test.undef.any (fun e => e.1 = unit)

/-- The cells of a codeword as they stand. -/
def rawBits (s : State) (unit line cw : Nat) : Cw :=
  { data := BitVec.ofNat 256 (leNat (cellBytes s (cellKey unit line cw 0) 32)),
    check := BitVec.ofNat 19 (leNat (cellBytes s (cellKey unit line cw 32) 3)) }

/-- The stored bits of a codeword; free values in a unit left undefined (R252). -/
def readCw (s : State) (unit line cw : Nat) : Cw :=
  if unitUndefined s unit then
    { data := Config.freeData s.free unit line cw, check := Config.freeCheck s.free unit line cw }
  else rawBits s unit line cw

/-- Store the bits of a codeword. -/
def writeCw (s : State) (unit line cw : Nat) (c : Cw) : State :=
  setCellBytes s (cellKey unit line cw 0) (leBytes 32 c.data.toNat ++ leBytes 3 c.check.toNat)

/-- The free-value counter advances at each access to a unit left undefined, so that no two such reads are tied. -/
def bumpFree (s : State) (unit : Nat) : State := if unitUndefined s unit then { s with free := s.free + 1 } else s

/-- The 32 data bytes of a codeword. -/
def cwData (c : Cw) : List Byte := leBytes 32 c.data.toNat

/-- A codeword's data bits from 32 bytes. -/
def cwOfBytes (bs : List Byte) : BitVec 256 := BitVec.ofNat 256 (leNat bs)

/-! ### Redirection -/

/-- A field of spare `i` in the retire map (table "Retire map word, TK3"). -/
def spareBank (s : State) (i : Nat) : Nat := bitsOf (rd s R_RET_MAP).toNat (32 * i + 5) (32 * i)
/-- 0 FREE, 1 RACKING, 2 RETIRED, 3 UNUSABLE. -/
def spareState (s : State) (i : Nat) : Nat := bitsOf (rd s R_RET_MAP).toNat (32 * i + 7) (32 * i + 6)
/-- Racking progress of spare `i`. -/
def spareLine (s : State) (i : Nat) : Nat := bitsOf (rd s R_RET_MAP).toNat (32 * i + 24) (32 * i + 8)

/-- The spares in state FREE (R258). -/
def freeSpares (s : State) : List Nat := (List.range (numSpares s.variant)).filter (fun i => spareState s i = 0)

/-- RET_STAT.FREE counts the spares in state FREE (R258). -/
def recountFree (s : State) : State := wrF s R_RET_STAT RET_STAT_FREE (freeSpares s).length

/-- Write a spare's field of the retire map. -/
def setSpare (s : State) (i bank state line : Nat) : State :=
  recountFree (wr s R_RET_MAP (setF (rd s R_RET_MAP) ⟨32 * i, 25⟩ (bank + state <<< 6 + line <<< 8)))

/-- Write a spare's state alone. -/
def setSpareState (s : State) (i state : Nat) : State :=
  recountFree (wr s R_RET_MAP (setF (rd s R_RET_MAP) ⟨32 * i + 6, 2⟩ state))

/-- The physical unit that carries out an access to a line of decoded bank `b` (R17, R256). -/
def physUnit (s : State) (b line : Nat) : Nat :=
  let spares := List.range (numSpares s.variant)
  match spares.find? (fun i => spareState s i = 1 && spareBank s i = b && line < spareLine s i) with
  | some i => 64 + i
  | none =>
    match spares.find? (fun i => spareState s i = 2 && spareBank s i = b) with
    | some i => 64 + i
    | none => b

/-- The remap entry that holds a line of a unit, when one is valid (R235). -/
def remapOf (s : State) (unit line : Nat) : Option Nat :=
  (List.range 8).find? (fun k =>
    rdF s (R_RMP_ENTRY unit k) RMP_ENTRY_STATE = 2 && rdF s (R_RMP_ENTRY unit k) RMP_ENTRY_LINE = line)

/-- The physical line of a unit's line, through its remap entries (R235). -/
def physLine (s : State) (unit line : Nat) : Nat :=
  match remapOf s unit line with
  | some k => 65536 + k
  | none => line

/-! ### Counters that STAT_CLEAR clears -/

/-- Whether counters of a block count in this cycle: the events of a STAT_CLEAR's cycle are lost. -/
def counting (s : State) (block : Nat) : Bool := sget 0 s.statCleared block != s.time + 1

/-- Add to a saturating counter of a block with a STAT_CLEAR. -/
def countSat (s : State) (block key : Nat) (f : Fld) (n : Nat) : State := if counting s block then addSat s key f n else s

/-- Add to a wrapping counter of a block with a STAT_CLEAR. -/
def countWrap (s : State) (block key : Nat) (f : Fld) (n : Nat) : State := if counting s block then addWrap s key f n else s

/-- Count a codeword of a unit in CE or UE of its INT_UNITERR, saturating (R227). -/
def countUnit (s : State) (unit : Nat) (f : Fld) : State :=
  if counting s 0x11 then
    wrBeside s (R_INT_UNITERR unit) f (min (rdF s (R_INT_UNITERR unit) f + 1) (2 ^ f.width - 1))
  else s

/-- Note the cycle of a STAT_CLEAR. -/
def noteCleared (s : State) (block : Nat) : State := { s with statCleared := sset 0 s.statCleared block (s.time + 1) }

/-! ### Findings (R225–R230) -/

/-- One codeword's finding: which codeword, what the decoder reported, the KIND, the first member concerned and whether the
corrected data was stored (R228). -/
structure Finding where
  cw : Nat
  dec : Decoded
  kind : Nat
  src : Nat
  slot : Nat
  writtenBack : Bool
  deriving DecidableEq, Repr

/-- The bytes of a log entry but SEQ (table "Integrity log entry"). -/
def logBytes (addr unit pline time : Nat) (remapped candidate : Bool) (f : Finding) : List Byte :=
  let pos := f.dec.pos
  leBytes 4 addr ++ leBytes 1 unit ++ leBytes 1 f.kind ++ leBytes 1 f.src ++
  leBytes 1 (f.slot + (b01 f.writtenBack) <<< 2 + (b01 remapped) <<< 3 + (b01 candidate) <<< 4) ++
  leBytes 4 (pline + pos.length <<< 17) ++ leBytes 4 (f.dec.s1 + f.dec.s3 <<< 9 + f.dec.par <<< 18) ++ leBytes 8 time ++
  leBytes 2 (pos.getD 0 0x1FF) ++ leBytes 2 (pos.getD 1 0x1FF)

/-- Set a bit of INT_STAT and raise its event on S4128–S4131 when it has one. -/
def setIntStat (s : State) (f : Fld) (src : Option Nat) : State :=
  let s := wrB s R_INT_STAT f true
  match src with
  | some n => raiseSource s n
  | none => s

/-- Count a corrected or uncorrectable codeword of a unit (R227). -/
def countFinding (s : State) (unit : Nat) (corrected : Bool) : State :=
  if corrected then
    occur (countSat (countUnit s unit INT_UNITERR_CE) 0x11 R_INT_TOTALS INT_TOTALS_CE 1) EV_CE
  else
    occur (countSat (countUnit s unit INT_UNITERR_UE) 0x11 R_INT_TOTALS INT_TOTALS_UE 1) EV_UE

/-- Whether an entry belongs to the lees log (KIND 1) or to the UE log. -/
def isLees (e : LogEntry) : Bool := e.kind = 1

/-- An entry joins its log's intake of 64, or is counted in LOST (R230). -/
def logIntake (s : State) (e : LogEntry) : State :=
  if 64 ≤ (s.integ.intake.filter (fun x => isLees x = isLees e)).length then
    if isLees e then addSat s R_INT_LEES_CTL INT_LEES_CTL_LOST 1 else addSat s R_INT_UE_CTL INT_UE_CTL_LOST 1
  else { s with integ := { s.integ with intake := s.integ.intake ++ [e] } }

/-- Remove the oldest of a full recent-line table of 64 (R233). -/
def recentTrim (l : List RecentLine) : List RecentLine :=
  if l.length < 64 then l
  else
    let t := l.foldl (fun m e => min m e.time) (l.headD ⟨0, 0, 0⟩).time
    match l.findIdx? (fun e => e.time = t) with
    | some i => l.eraseIdx i
    | none => l

/-- A finding on a line enters the recent-line table; true when the line was there within the window (R233). -/
def noteLine (s : State) (unit pline : Nat) : Bool × State :=
  let window := rdF s R_INT_HF_CFG INT_HF_CFG_WINDOW_S * 1600000000
  match s.integ.recent.find? (fun e => e.unit = unit && e.line = pline) with
  | some e =>
    (decide (s.time - e.time ≤ window),
      { s with integ := { s.integ with recent := s.integ.recent.map (fun x =>
          if x.unit = unit && x.line = pline then { x with time := s.time } else x) } })
  | none => (false, { s with integ := { s.integ with recent := recentTrim s.integ.recent ++ [⟨unit, pline, s.time⟩] } })

/-! ### Remap and hard-fault candidates -/

/-- The line of a unit that a physical line holds: a spare line holds the line of its entry. -/
def logicalLine (s : State) (unit pline : Nat) : Nat :=
  if 65536 ≤ pline then rdF s (R_RMP_ENTRY unit (pline - 65536)) RMP_ENTRY_LINE else pline

/-- Steps 1 and 2 of R235: take the free entry of lowest k and record it as copying; with none free, REMAP_FULL and
INT_HF.FULL. A line already being copied is not taken twice. -/
def startRemap (s : State) (unit line : Nat) (ordered : Bool) : State :=
  if s.integ.remaps.any (fun j => j.unit = unit && j.line = line) then s
  else
    match (List.range 8).find? (fun k => rdF s (R_RMP_ENTRY unit k) RMP_ENTRY_STATE = 0) with
    | none =>
      let s := wrB (setIntStat s INT_STAT_REMAP_FULL none) R_INT_HF INT_HF_FULL true
      if ordered then wrF (wrB s R_RMP_STAT RMP_STAT_BUSY false) R_RMP_STAT RMP_STAT_CODE 1 else s
    | some k =>
      let s := wr s (R_RMP_ENTRY unit k) (w64 (line + 1 <<< 16))
      let s := addSat s (R_INT_UNITERR unit) INT_UNITERR_REMAPS 1
      { s with integ := { s.integ with remaps := s.integ.remaps ++ [⟨unit, line, k, ordered⟩] } }

/-- Steps 1 to 4 of R234 but the log entry's flag. -/
def hardFault (s : State) (unit pline addr : Nat) : State :=
  let s := countSat s 0x11 R_INT_HFCOUNT INT_HFCOUNT_CANDIDATES 1
  let s := if rdB s R_INT_HF INT_HF_VALID then s
    else wr s R_INT_HF (w64 (lineBase addr + pline <<< 32 + unit <<< 49 + 1 <<< 63))
  let s := setIntStat s INT_STAT_HARDFAULT (some 4129)
  if rdB s R_INT_CTL INT_CTL_AUTO_REMAP then startRemap s unit (logicalLine s unit pline) false else s

/-- Enter the findings of one bank access to a line: counters, recent-line table, logs (R225, R227–R230, R233, R234). The
access counts once for its line; its CANDIDATE stands in the entry of its first finding. A poisoned codeword, which only a racking copy
logs (R174), is no finding and counts nowhere. -/
def bankFindings (s : State) (unit pline addr : Nat) (remapped : Bool) (fs : List Finding) : State :=
  let real := fs.filter (fun f => f.dec.outcome != .poisoned)
  let s := real.foldl (fun s f => countFinding s unit (f.kind = 1)) s
  let (cand, s) := if real.isEmpty then (false, s) else noteLine s unit pline
  let entry (c : Bool) (f : Finding) : LogEntry :=
    { time := s.time, phys := unit, addr := lineBase addr + 32 * f.cw, kind := f.kind,
      bytes := logBytes (lineBase addr + 32 * f.cw) unit pline s.time remapped c f }
  let first := fs.findIdx? (fun f => f.dec.outcome != .poisoned)
  let s := (fs.zipIdx).foldl (fun s f => logIntake s (entry (cand && first = some f.2) f.1)) s
  if cand then hardFault s unit pline addr else s

/-- Enter a finding in a store codeword (R226–R228); LINE is the store's codeword number. -/
def storeFinding (s : State) (unit line addr : Nat) (f : Finding) : State :=
  let s := countFinding s unit (f.kind = 1)
  logIntake s { time := s.time, phys := unit, addr := addr, kind := f.kind,
                bytes := logBytes addr unit line s.time false false f }

/-! ### Writing decoded lines -/

/-- The armed injection of R238 for a codeword, when it names this one and the requester is neither scrub nor test agent. -/
def injectHere (s : State) (who : Who) (cwAddr : Nat) : Bool :=
  rdB s R_INT_INJECT INT_INJECT_ARM && who != .scrub && who != .test &&
  rdF s R_INT_INJECT INT_INJECT_ADDR <<< 5 = cwAddr

/-- The positions of an injection as a set (R238). -/
def injectPositions (s : State) : List Nat :=
  ([rdF s R_INT_INJECT INT_INJECT_POS_A, rdF s R_INT_INJECT INT_INJECT_POS_B, rdF s R_INT_INJECT INT_INJECT_POS_C].filter
    (fun p => p != 0x1FF)).eraseDups

/-- A bank write of one codeword, with an armed injection (R238). -/
def bankWriteCw (s : State) (who : Who) (unit pline addr cw : Nat) (c : Cw) : State :=
  if injectHere s who (lineBase addr + 32 * cw) then
    wrB (writeCw s unit pline cw ((injectPositions s).foldl flipPos c)) R_INT_INJECT INT_INJECT_ARM false
  else writeCw s unit pline cw c

/-- A bank write of a whole line of 64 bytes, both codewords encoded anew (R44). -/
def bankWriteLine (s : State) (who : Who) (unit pline addr : Nat) (bs : List Byte) : State :=
  let s := bankWriteCw s who unit pline addr 0 (encodeCw (cwOfBytes (bs.take 32)))
  bankWriteCw s who unit pline addr 1 (encodeCw (cwOfBytes (bs.drop 32)))

end Sys2Proof.Machine
end

