-- ==== Sys2Proof/Machine/QueueOps.lean ====
section
/-! DEFINITION. What other units do to a rack engine's queue: start events (R137–R139), the engine's event bits (R175), and the
vat and semaphore events that a WAIT or a lock wait is tested again for (R161, R183). -/

namespace Sys2Proof.Machine

/-! Queue states (table "Queue states"). -/

/-- DISABLED -/
def QS_DISABLED : Nat := 0
/-- IDLE -/
def QS_IDLE : Nat := 1
/-- RUNNING -/
def QS_RUNNING : Nat := 2
/-- WAITING -/
def QS_WAITING : Nat := 3
/-- STOPPED -/
def QS_STOPPED : Nat := 4
/-- FAULT -/
def QS_FAULT : Nat := 5
/-- OFFLINE -/
def QS_OFFLINE : Nat := 6

/-- State of a queue. -/
def qState (s : State) (e q : Nat) : Nat := rdF s (R_Q_STATE e q) Q_STATE_STATE
/-- Set the state of a queue. -/
def setQState (s : State) (e q v : Nat) : State := wrF s (R_Q_STATE e q) Q_STATE_STATE v
/-- HEAD. -/
def qHead (s : State) (e q : Nat) : Nat := rdF s (R_Q_HEAD e q) Q_HEAD_HEAD
/-- TAIL. -/
def qTail (s : State) (e q : Nat) : Nat := rdF s (R_Q_TAIL e q) Q_TAIL_TAIL
/-- (a − b) mod 2^32. -/
def sub32 (a b : Nat) : Nat := (a + 2 ^ 32 - b % 2 ^ 32) % 2 ^ 32
/-- Ring size in descriptors (R133). -/
def ringSize (s : State) (e q : Nat) : Nat := 2 ^ (rdF s (R_Q_RING e q) Q_RING_SIZE + 4)
/-- Ring base address. -/
def ringBase (s : State) (e q : Nat) : Nat := rdF s (R_Q_RING e q) Q_RING_BASE <<< 12

/-- RUNNING, or IDLE when HEAD = TAIL. -/
def runOrIdle (s : State) (e q : Nat) : State :=
  setQState s e q (if qTail s e q = qHead s e q then QS_IDLE else QS_RUNNING)

/-- Set bit `i` of a field of ENG_STAT and raise the engine's shared source, whether or not it was set (R175). -/
def setEngBit (s : State) (e : Nat) (f : Fld) (i : Nat) : State :=
  raiseSource (wrF s (R_ENG_STAT e) f (rdF s (R_ENG_STAT e) f ||| (1 <<< i))) (4112 + e)

/-- The new TAIL of a start event with value `v` (R137). -/
def startTail (s : State) (e q v : Nat) : Nat :=
  if bitsOf v 63 56 = 0xE7 then v % 2 ^ 32
  else (qTail s e q + rdF s (R_Q_CFG e q) Q_CFG_STEP) % 2 ^ 32

/-- Whether a start event is accepted (R137). -/
def startAccepted (s : State) (e q v : Nat) : Bool := sub32 (startTail s e q v) (qHead s e q) ≤ ringSize s e q

/-- Whether an engine is frozen: it keeps all its registers until a reset (R172). -/
def engFrozen (s : State) (e : Nat) : Bool := rdF s (R_ENG_STAT e) ENG_STAT_STATE = 3

/-- A start event reaches a queue (R137–R139); at a frozen engine it changes nothing (R172; DESIGN CHOICE, log entry 87).
One of top byte 0xE7 may put TAIL below descriptors that are fetched or in progress: these go
on, and HEAD passes TAIL (DESIGN CHOICE, log entry 64). -/
def startEvent (s : State) (e q v : Nat) : State :=
  if engFrozen s e then s
  else if !startAccepted s e q v then
    setEngBit (addSat s (R_Q_STARTS e q) Q_STARTS_BADTAIL 1) e ENG_STAT_BADTAIL q
  else if qState s e q = QS_DISABLED then addSat s (R_Q_STARTS e q) Q_STARTS_DROPPED 1
  else
    let s' := addWrap (wrF s (R_Q_TAIL e q) Q_TAIL_TAIL (startTail s e q v)) (R_Q_STARTS e q) Q_STARTS_STARTS 1
    if qState s e q = QS_IDLE then runOrIdle s' e q else s'

/-- A descriptor's byte fields. -/
def dByte (d : List Byte) (i : Nat) : Nat := (d.getD i 0).toNat
/-- A little-endian field of `n` bytes at `i`. -/
def dWord (d : List Byte) (i n : Nat) : Nat := leNat (sliceBytes d i n)
/-- OPCODE -/
def dOp (d : List Byte) : Nat := dByte d 0
/-- SUBOP -/
def dSub (d : List Byte) : Nat := dByte d 2
/-- LEN -/
def dLen (d : List Byte) : Nat := dWord d 4 4
/-- A -/
def dA (d : List Byte) : Nat := dWord d 8 4
/-- B -/
def dB (d : List Byte) : Nat := dWord d 12 4
/-- C -/
def dC (d : List Byte) : Nat := dWord d 16 8
/-- D -/
def dD (d : List Byte) : Nat := dWord d 24 4
/-- E -/
def dE (d : List Byte) : Nat := dWord d 28 4

/-- Mark for a new test the descriptors in progress that a predicate names (R161). -/
def recheckRuns (s : State) (p : Run → Bool) : State :=
  { s with queues := s.queues.map (fun kq =>
      (kq.1, { kq.2 with runs := kq.2.runs.map (fun r => if !r.ended && p r then { r with recheck := true } else r) })) }

/-- VALID, TALLY and COMPLETIONS of a vat as they stand. -/
def vatView (s : State) (n : Nat) : VatView :=
  { valid := rdB s (R_VAT_CTL n) VAT_CTL_VALID, tally := rdF s (R_VAT_COUNT n) VAT_COUNT_TALLY,
    completions := rdF s (R_VAT_EVENTS n) VAT_EVENTS_COMPLETIONS }

/-- The test of a WAIT of kind 0 or 1 against a view of its vat (R160, R161): the status and RESULT that end it, NOVAT when the vat is not
valid, OK when the condition holds. -/
def waitOn (v : VatView) (r : Run) : Option (Nat × Nat) :=
  if !v.valid then some (0x05, 0)
  else if dSub r.desc = 0 then (if dD r.desc ≤ v.tally then some (0x00, v.tally) else none)
  else if sub32 v.completions (dD r.desc) < 2 ^ 31 then some (0x00, v.completions)
  else none

/-- The test against the vat as it stands. -/
def waitTest (s : State) (r : Run) : Option (Nat × Nat) := waitOn (vatView s (dA r.desc % 65536)) r

/-- Whether a wait's limit E has passed (R161). -/
def limitPassed (s : State) (r : Run) : Bool := dE r.desc != 0 && r.began + 1600 * dE r.desc ≤ s.time

/-- Whether a wait's limit E passed in an earlier cycle: an event of this cycle comes too late. -/
def limitBefore (s : State) (r : Run) : Bool := dE r.desc != 0 && r.began + 1600 * dE r.desc < s.time

/-- A WAIT on a vat is tested with an event of the vat: what ends it is kept for its queue to take up. -/
def testAtEvent (s : State) (v : VatView) (r : Run) : Run :=
  { r with recheck := true, seen := if r.seen.isSome || limitBefore s r then r.seen else waitOn v r }

/-- A tally change of a vat, or its VALID cleared (R18): every WAIT of kind 0 or 1 on it is tested again, with the vat as the change left it,
also where the event comes only with the partner's acceptance (R334). -/
def vatEvent (s : State) (vat : Nat) (v : VatView) : State :=
  { s with queues := s.queues.map (fun kq => (kq.1, { kq.2 with runs := kq.2.runs.map (fun r =>
      if !r.ended && dOp r.desc = 0x0B && dSub r.desc ≤ 1 && dA r.desc % 65536 = vat then testAtEvent s v r else r) })) }

/-- A semaphore becomes free (R18): WAITs of kinds 2 and 3 on it, and MATCHes whose context it locks, are tested again. -/
def semFreeEvent (s : State) (sem : Nat) : State :=
  recheckRuns s (fun r =>
    (dOp r.desc = 0x0B && (dSub r.desc = 2 || dSub r.desc = 3) && dA r.desc % 65536 = sem) ||
    (dOp r.desc = 0x08 && r.mctx.lockSem = sem))

end Sys2Proof.Machine
end

