-- ==== Sys2Proof/Machine/PairOps.lean ====
section
/-! DEFINITION. Forwarding of changes of mirrored state (R327–R334): the units, their ports and tags, and what waits for their
acceptance; dirty segments (R339); the mailbox event of R127 that a change may be followed by. -/

namespace Sys2Proof.Machine

/-! Pair states (table "Pair states"). -/

/-- OFF -/
def PS_OFF : Nat := 0
/-- SEEKING -/
def PS_SEEKING : Nat := 1
/-- SYNCING -/
def PS_SYNCING : Nat := 2
/-- MIRRORED -/
def PS_MIRRORED : Nat := 3
/-- SOLO -/
def PS_SOLO : Nat := 4
/-- ORPHAN -/
def PS_ORPHAN : Nat := 5

/-- PR_STAT.STATE. -/
def pairState (s : State) : Nat := rdF s R_PR_STAT PR_STAT_STATE

/-- Whether own changes of mirrored state are forwarded: MIRRORED and active, or the source of SYNCING (R337). -/
def pairForwards (s : State) : Bool :=
  (pairState s = PS_MIRRORED && rdB s R_PR_STAT PR_STAT_ACTIVE) ||
  (pairState s = PS_SYNCING && rdB s R_PR_STAT PR_STAT_SOURCE)

/-- Whether own changes of mirrored state are refused: the target of SYNCING, the passive device, ORPHAN (R336, R337). -/
def pairRefuses (s : State) : Bool :=
  (pairState s = PS_MIRRORED && !rdB s R_PR_STAT PR_STAT_ACTIVE) ||
  (pairState s = PS_SYNCING && !rdB s R_PR_STAT PR_STAT_SOURCE) || pairState s = PS_ORPHAN

/-- Whether an array address lies in a region marked mirrored (R327). -/
def mirroredAddr (s : State) (addr : Nat) : Bool := bitOf (rdF s R_PR_MIRROR PR_MIRROR_REGIONS) (regionOf addr)

/-- Whether port `p` is a pair port (R325, R326). -/
def isPairPort (s : State) (p : Nat) : Bool :=
  rdF s R_PR_ROLE PR_ROLE_ROLE != 0 && (p = 7 || (p = 6 && rdB s R_PR_ROLE PR_ROLE_PORTS))

/-- Whether pair port `p` carries units: PR_STAT.PORTS_UP. -/
def pairPortUp (s : State) (p : Nat) : Bool := bitOf (rdF s R_PR_STAT PR_STAT_PORTS_UP) (p - 6)

/-- The pair port of a unit (R331, R338): P6 for store, vat and heal units when two ports carry units, and for lines with
BASE[10] = 0; the remaining port otherwise. -/
def unitPort (s : State) (onSeven : Bool) : Nat :=
  if rdB s R_PR_ROLE PR_ROLE_PORTS && pairPortUp s 6 then (if onSeven && pairPortUp s 7 then 7 else 6) else 7

/-- Port of a LINES unit for an address. -/
def linePort (s : State) (addr : Nat) : Nat := unitPort s (bitOf addr 10)
/-- Port of a store or vat unit. -/
def storePort (s : State) : Nat := unitPort s false

/-- Units of a port not yet accepted. -/
def unitsOn (s : State) (p : Nat) : Nat := (s.pair.units.filter (fun u => u.port = p)).length

/-- UTAGs that are taken on a port: units not yet accepted, and lines asked for (R329, R346). -/
def utagsTaken (s : State) (p : Nat) : Nat := unitsOn s p + (s.pair.heals.filter (fun h => h.1 = p)).length

/-- Whether units of a lost port still wait for a UTAG of the remaining one; no new unit comes before them (R338). -/
def tagsAwaited (s : State) : Bool := s.pair.units.any (fun u => u.port = 8)

/-- Whether a change that sends `n` units on a pair port must stay presented because the port has too few free UTAGs (R332). -/
def pairBlockedBy (s : State) (p n : Nat) : Bool := pairForwards s && (tagsAwaited s || 4096 < utagsTaken s p + n)

/-- Whether a change must stay presented because its pair port has no free UTAG (R332). -/
def pairBlocked (s : State) (p : Nat) : Bool := pairBlockedBy s p 1

/-- A UTAG not in use on a port (R329), searched from the next in turn; who asks has made sure that one is free. -/
def freeUtag (s : State) (p : Nat) : Nat :=
  let used (t : Nat) : Bool := s.pair.units.any (fun u => u.port = p && u.utag = t) || s.pair.heals.any (fun h => h.1 = p && h.2.1 = t)
  match (List.range 4096).find? (fun k => !used ((s.pair.nextUtag + k) % 4096)) with
  | some k => (s.pair.nextUtag + k) % 4096
  | none => s.pair.nextUtag

/-- Put a unit into the link's transmit stream of a channel. -/
def sendOn (s : State) (p vc : Nat) (bytes : List Byte) : State :=
  let l := linkOf s p
  setLink s p { l with tx := l.tx ++ [(vc, bytes)] }

/-! Dirty segments (R339). -/

/-- Segment of an address. -/
def segmentOf (addr : Nat) : Nat := addr / 0x10000

/-- Whether a segment is dirty. -/
def segDirty (s : State) (g : Nat) : Bool := bitOf (rd s (R_PR_BITMAP (g / 64))).toNat (g % 64)

/-- Mark a segment dirty; PR_DIRTY.COUNT follows the bitmap. -/
def markSegment (s : State) (g : Nat) : State :=
  if segDirty s g then s
  else addWrap (wr s (R_PR_BITMAP (g / 64)) (rd s (R_PR_BITMAP (g / 64)) ||| w64 (1 <<< (g % 64)))) R_PR_DIRTY PR_DIRTY_COUNT 1

/-- Clear a segment's bit. -/
def clearSegment (s : State) (g : Nat) : State :=
  if segDirty s g then
    wrF (wr s (R_PR_BITMAP (g / 64)) (rd s (R_PR_BITMAP (g / 64)) &&& ~~~(w64 (1 <<< (g % 64))))) R_PR_DIRTY PR_DIRTY_COUNT
      (rdF s R_PR_DIRTY PR_DIRTY_COUNT - 1)
  else s

/-! Events of mailboxes, and what waits for acceptance. -/

/-- BINDING of mailbox `m`, as its control codeword stands. -/
def mailboxBinding (s : State) (m : Nat) : Nat :=
  leNat (sliceBytes (cwData (decodeStoreCw false (readCw s 67 (7 * m + 6) 0)).cw) 16 8)

/-- The event of a doorbell (R127), with the DOORBELL value and the binding that applied. A device that applies pair units
produces none (R333, R336); that choice is the caller's. -/
def doorbellEvent (s : State) (m value b : Nat) : State :=
  if b % 4 = 1 then raiseSource s m
  else if b % 4 = 2 then startEvent s (bitsOf b 7 4) (bitsOf b 3 2) value
  else s

/-- A blank operation on the mailbox store; it enters when it is handed over. -/
def mbxOp (who writer : Who) (kind : StoreKind) (n off len : Nat) (data : List Byte) (value : Nat) : StoreOp :=
  { uid := 0, who := who, writer := writer, priv := true, kind := kind, effect := true, n := n, off := off, len := len,
    mask := BitVec.allOnes 64, data := data, value := value, code := 2, tag := 0, entered := 0 }

/-- The queue of a requester identifier at a store. -/
def opsOf (ops : List StoreOp) (id : Nat) : List StoreOp := ops.filter (fun o => whoId o.who = id)

/-- Whether the queue of an operation's requester, with what waits behind it, has room for the operation. -/
def queueRoom (queue stage : List StoreOp) (o : StoreOp) : Bool :=
  (opsOf queue (whoId o.who)).length < 8 && (opsOf stage (whoId o.who)).isEmpty

/-- An operation enters the queue of its requester at the mailbox store, or waits behind it when it holds 8 (R128, R112). -/
def mbxEnter (s : State) (o : StoreOp) : State :=
  if queueRoom s.mbxq s.mbxStage o then { s with mbxq := s.mbxq ++ [{ o with entered := s.time }] }
  else { s with mbxStage := s.mbxStage ++ [o] }

/-- An operation enters the queue of its requester at the semaphore store, or waits behind it when it holds 8 (R88). -/
def semEnter (s : State) (o : StoreOp) : State :=
  if queueRoom s.semq s.semStage o then { s with semq := s.semq ++ [{ o with entered := s.time }] }
  else { s with semStage := s.semStage ++ [o] }

/-- What waited for a unit's acceptance takes effect (R334). -/
def runDeferred (s : State) : Deferred → State
  | .release who uid => releaseWait s who uid
  | .ring m v b => doorbellEvent s m v b
  | .sendDoorbell m v queue writer => mbxEnter s (mbxOp queue writer .mbxDoorbell m 0xC0 8 (leBytes 8 v) v)
  | .vatRecord m rec v =>
    mbxEnter (mbxEnter s (mbxOp .vatUnit .vatUnit .mbxPayloadWrite m 0 32 rec 0))
      (mbxOp .vatUnit .vatUnit .mbxDoorbell m 0xC0 8 (leBytes 8 v) v)
  | .semFree n => semFreeEvent s n
  | .vatEvent n v => vatEvent s n v

/-- All that waited for one unit. -/
def runAllDeferred (s : State) (ds : List Deferred) : State := ds.foldl runDeferred s

/-- Forward a change: the unit enters the forward stream of its port and what follows the change waits for its acceptance;
without a partner it follows at once (R332, R334). `mk` gives the unit's bytes for a UTAG; `segment` is that of a line. -/
def pairForward (s : State) (p : Nat) (mk : Nat → List Byte) (segment : Option Nat) (ds : List Deferred) : State :=
  if pairForwards s then
    let t := freeUtag s p
    let s := { s with nextUid := s.nextUid + 1,
                      pair := { s.pair with nextUtag := (t + 1) % 4096,
                                            units := s.pair.units ++ [⟨s.nextUid, t, p, mk t, segment, ds⟩] } }
    occur (addWrap (addWrap (emit (sendOn s p 0 (mk t)) (.pairUnit p (mk t))) R_PR_FWD PR_FWD_UNITS 1)
      R_PR_FWD PR_FWD_PENDING 1) EV_PAIR_SENT
  else
    let s := match segment with
      | some g => if pairState s = PS_SOLO then markSegment s g else s
      | none => s
    runAllDeferred s ds

/-! The units of table "Pair units" that carry changes. -/

/-- LINES with one line. -/
def linesBytes (addr : Nat) (bs : List Byte) (utag : Nat) : List Byte :=
  leBytes 1 0xA0 ++ leBytes 1 0 ++ leBytes 2 utag ++ leBytes 4 (addr - addr % 1024) ++ leBytes 2 (1 <<< (addr % 1024 / 64)) ++
    leBytes 6 0 ++ sliceBytes bs 0 64

/-- SEM. -/
def semBytes (n : Nat) (words : List Byte) (utag : Nat) : List Byte :=
  leBytes 1 0xA1 ++ leBytes 1 0 ++ leBytes 2 utag ++ leBytes 2 n ++ leBytes 10 0 ++ sliceBytes words 0 16

/-- MBX; `parts` has bit k for codeword k. -/
def mbxBytes (n parts : Nat) (isOpen : Bool) (cws : List Byte) (utag : Nat) : List Byte :=
  leBytes 1 0xA2 ++ leBytes 1 0 ++ leBytes 2 utag ++ leBytes 2 n ++ leBytes 1 parts ++ leBytes 1 (b01 isOpen) ++ leBytes 8 0 ++ cws

/-- VAT. -/
def vatBytes (n : Nat) (entry : List Byte) (utag : Nat) : List Byte :=
  leBytes 1 0xA3 ++ leBytes 1 0 ++ leBytes 2 utag ++ leBytes 2 n ++ leBytes 10 0 ++ sliceBytes entry 0 64

/-- A change of an array line, forwarded when its region is mirrored (R328). -/
def forwardLine (s : State) (addr : Nat) (bs : List Byte) (ds : List Deferred) : State :=
  if mirroredAddr s addr then pairForward s (linePort s addr) (linesBytes (lineBase addr) bs) (some (segmentOf addr)) ds
  else runAllDeferred s ds

/-- The 64 bytes of a vat entry. -/
def vatEntryBytes (s : State) (n : Nat) : List Byte :=
  (List.range 8).flatMap (fun i => leBytes 8 (rd s (R_VAT_CTL n + 8 * i)).toNat)

/-- HEAL_REQ. -/
def healReqBytes (utag addr : Nat) : List Byte :=
  leBytes 1 0xA6 ++ leBytes 1 0 ++ leBytes 2 utag ++ leBytes 4 addr ++ leBytes 8 0

/-- Send HEAL_REQ for a line, or let the line wait while its port has no UTAG free. -/
def healSend (s : State) (addr : Nat) : State :=
  let p := storePort s
  if !tagsAwaited s && utagsTaken s p < 4096 then
    let t := freeUtag s p
    let bs := healReqBytes t addr
    let s := { s with pair := { s.pair with nextUtag := (t + 1) % 4096, heals := s.pair.heals ++ [(p, t, addr)] } }
    emit (sendOn s p 0 bs) (.pairUnit p bs)
  else { s with pair := { s.pair with healWaits := s.pair.healWaits ++ [addr] } }

/-- The lines that wait to be asked for are asked for, as far as UTAGs are free. -/
def settleHeals (s : State) : State := s.pair.healWaits.foldl healSend { s with pair := { s.pair with healWaits := [] } }

/-- Ask the partner for a line that a request answered UE or POISON, or that the scrubber poisoned (R346). -/
def healLine (s : State) (addr : Nat) : State :=
  if rdB s R_PR_CFG PR_CFG_HEAL && pairState s = PS_MIRRORED && mirroredAddr s addr &&
      !s.pair.heals.any (fun h => h.2.2 = lineBase addr) && !s.pair.healWaits.contains (lineBase addr) then
    healSend s (lineBase addr)
  else s

/-- A unit of a lost port is sent again on the remaining one, when that has a UTAG free (R338). -/
def resendUnit (s : State) (u : PairUnit) : State :=
  let p := storePort s
  if utagsTaken s p < 4096 then
    let t := freeUtag s p
    let bs := overlay u.bytes 2 (leBytes 2 t)
    let units := s.pair.units.map (fun x => if x.num = u.num then { x with port := p, utag := t, bytes := bs } else x)
    emit (sendOn { s with pair := { s.pair with nextUtag := (t + 1) % 4096, units := units } } p 0 bs) (.pairUnit p bs)
  else s

/-- The UTAGs that are free go to the units of a lost port, in their first order (R338), then to the lines to be asked for (R346). -/
def settleTags (s : State) : State := settleHeals ((s.pair.units.filter (fun u => u.port = 8)).foldl resendUnit s)

/-- A change of a vat entry (R328). -/
def forwardVat (s : State) (n : Nat) (ds : List Deferred) : State :=
  pairForward s (storePort s) (vatBytes n (vatEntryBytes s n)) none ds

end Sys2Proof.Machine
end

