-- ==== Sys2Proof/Machine/Region.lean ====
section
/-! DEFINITION. Region power states (R348–R350): what a region serves, waking and idling, and the clear of a unit's lines (R69). -/

namespace Sys2Proof.Machine

/-! Region state codes (PWR_REGSTAT). -/

/-- ACTIVE -/
def RS_ACTIVE : Nat := 0
/-- RETAIN -/
def RS_RETAIN : Nat := 1
/-- OFF -/
def RS_OFF : Nat := 2
/-- ENTERING: to RETAIN, or to OFF. -/
def RS_ENTERING : Nat := 3
/-- WAKING -/
def RS_WAKING : Nat := 4
/-- DEFERRED: active, with a change of target deferred (R351). -/
def RS_DEFERRED : Nat := 6

/-- State of region `h`. -/
def regionState (s : State) (h : Nat) : Nat := rdF s R_PWR_REGSTAT ⟨3 * h, 3⟩
/-- Set the state of region `h`. -/
def setRegionState (s : State) (h v : Nat) : State := wrF s R_PWR_REGSTAT ⟨3 * h, 3⟩ v
/-- TARGET of region `h`. -/
def regionTarget (s : State) (h : Nat) : Nat := rdF s R_PWR_REGION ⟨2 * h, 2⟩
/-- Whether the device is in SLEEP. -/
def devSleep (s : State) : Bool := rdF s R_PWR_DEVSTAT PWR_DEVSTAT_STATE = 2
/-- Whether brownout HOLD holds (R358). -/
def inHold (s : State) : Bool := rdB s R_PWR_DEVSTAT PWR_DEVSTAT_HOLD
/-- The target a powered region follows: in SLEEP every region is held in RETAIN, whatever PWR_REGION says (R352). -/
def effectiveTarget (s : State) (h : Nat) : Nat := if devSleep s then 1 else regionTarget s h
/-- Whether a region enters OFF, and completes what was admitted (R351). -/
def enteringOff (s : State) (h : Nat) : Bool := s.power.offEntry.contains h
/-- Whether a region wakes from OFF (R350). -/
def wakingFromOff (s : State) (h : Nat) : Bool := s.power.offWake.any (fun w => w.1 = h)

/-- Whether a region's banks serve accesses: it is powered, or completes what was admitted before its entry to OFF (R351). -/
def regionServes (s : State) (h : Nat) : Bool :=
  regionState s h = RS_ACTIVE || regionState s h = RS_DEFERRED || enteringOff s h

/-- Whether accesses to a region answer RETRY at admission (R350, R351). -/
def regionRefuses (s : State) (h : Nat) : Bool :=
  regionState s h = RS_OFF || wakingFromOff s h || enteringOff s h || (effectiveTarget s h = 2 && regionState s h != RS_DEFERRED)

/-- Whether a region that refuses accesses wakes, or will once its entry to OFF is over (R350, R351). -/
def regionWakes (s : State) (h : Nat) : Bool := wakingFromOff s h || (enteringOff s h && effectiveTarget s h != 2)

/-- A region begins to wake from RETAIN. -/
def wakeRegion (s : State) (h : Nat) : State :=
  if regionState s h = RS_RETAIN then addSat (setRegionState s h RS_WAKING) R_PWR_REGSTAT PWR_REGSTAT_WAKES 1 else s

/-- An access to a region: the idle time begins anew, and a resting region wakes (R349). -/
def touchRegion (s : State) (h : Nat) : State :=
  let until_ := s.time + rdF s R_PWR_CTL PWR_CTL_RETAIN_IDLE_US * 1600
  wakeRegion { s with power := { s.power with regionAt := sset 0 s.power.regionAt h until_ } } h

/-- Whether a bank of a region holds accesses. -/
def regionWaiting (s : State) (h : Nat) : Bool :=
  (List.range 8).any (fun k => let b := bankOf s (8 * h + k); !b.queue.isEmpty || !b.staging.isEmpty)

/-- Whether a region holds a borrowed test group, a foreground test or a racking job (R351). -/
def regionHeldByTest (s : State) (h : Nat) : Bool :=
  (List.range 8).any (fun k =>
    let b := 8 * h + k
    (bankOf s b).borrow.isSome || s.test.fgUnit = some (physUnit s b 0) || s.test.fgUnit = some b ||
    (List.range (numSpares s.variant)).any (fun i => spareState s i = 1 && spareBank s i = b))

/-- A region begins its wake from OFF (R350). -/
def beginOffWake (s : State) (h : Nat) : State :=
  let s := setRegionState s h RS_WAKING
  { s with power := { s.power with offWake := s.power.offWake.filter (fun w => w.1 != h) ++ [(h, s.time)] } }

/-- Once what was admitted is complete, a region that enters OFF is off; when OFF has been withdrawn meanwhile, it wakes (R351). -/
def regionDrained (s : State) (h : Nat) : State :=
  if enteringOff s h && !regionWaiting s h then
    let s := { s with power := { s.power with offEntry := s.power.offEntry.filter (fun x => x != h) } }
    if effectiveTarget s h = 2 then setRegionState s h RS_OFF else beginOffWake s h
  else s

/-- A region enters OFF: at once when nothing waits at its banks (R351). -/
def beginOff (s : State) (h : Nat) : State :=
  let s := setRegionState s h RS_ENTERING
  regionDrained { s with power := { s.power with offEntry := h :: s.power.offEntry.filter (fun x => x != h) } } h

/-- A powered region follows its target (R349, R351): it begins its entry to RETAIN or OFF, or stays ACTIVE. With accesses waiting
it stays ACTIVE and its idle time decides. -/
def followTarget (s : State) (h : Nat) : State :=
  if effectiveTarget s h = 2 then beginOff s h
  else if effectiveTarget s h = 1 && !regionWaiting s h then setRegionState s h RS_ENTERING
  else setRegionState s h RS_ACTIVE

/-- An active region follows its target, but for a change to RETAIN or OFF that a test or a racking job defers (R246, R351). -/
def followOrDefer (s : State) (h : Nat) : State :=
  if regionHeldByTest s h then setRegionState s h (if effectiveTarget s h = 0 then RS_ACTIVE else RS_DEFERRED) else followTarget s h

/-- A change is deferred by a test or a job (R246, R351): the region is kept active; one that rests, goes to rest or wakes serves at once
(DESIGN CHOICE, log entry 72). -/
def deferChange (s : State) (h : Nat) : State :=
  let rests := regionState s h = RS_RETAIN || regionState s h = RS_ENTERING
  let s := setRegionState s h RS_DEFERRED
  if rests then addSat s R_PWR_REGSTAT PWR_REGSTAT_WAKES 1 else s

/-- A region moves towards its target (R351, R352). One held by a test or a racking job defers the change; a wake, or an entry to OFF, ends
first. SLEEP takes a region that is off to RETAIN by way of a wake and its clear (DEDUCED from the table "Device power states", log entry 85). -/
def applyTarget (s : State) (h : Nat) : State :=
  let st := regionState s h
  let target := effectiveTarget s h
  let held := regionHeldByTest s h
  if st = RS_OFF then (if target = 2 then s else beginOffWake s h)
  else if wakingFromOff s h || enteringOff s h then s
  else if target = 2 then
    if held then deferChange s h
    else if st = RS_WAKING then s
    else beginOff s h
  else if st = RS_ACTIVE || st = RS_DEFERRED then followOrDefer s h
  else if target = 1 && held && st != RS_RETAIN then deferChange s h
  else if st = RS_RETAIN && target = 0 then wakeRegion s h
  else s

/-- A change of target deferred by a test or a racking job takes effect when that has ended (R246, R351). -/
def settleDeferred (s : State) (h : Nat) : State :=
  if regionState s h = RS_DEFERRED && !regionHeldByTest s h then followTarget s h else s

/-- Clear every line of a unit (R69), spare lines included: the codewords of zero data. -/
def clearUnit (s : State) (unit : Nat) : State :=
  { s with cells := s.cells.filter (fun c => c.1 / (131072 * 128) != unit),
           test := { s.test with undef := s.test.undef.filter (fun u => u.1 != unit) } }

/-- The units that hold the data of a region's banks (R348). -/
def regionUnits (s : State) (h : Nat) : List Nat :=
  (List.range 8).map (fun k => 8 * h + k) ++
  ((List.range 2).filter (fun i => (spareState s i = 1 || spareState s i = 2) && spareBank s i / 8 = h)).map (fun i => 64 + i)

end Sys2Proof.Machine
end

