-- ==== Sys2Proof/Machine/March.lean ====
section
/-! DEFINITION. The march engine and the tasting buffer (R241–R249): what one access of a run does, what a failing cell leads to
(R243), how a group is released, and how a racking job starts (R255, R257). -/

namespace Sys2Proof.Machine

/-- The decoded bank whose data a unit holds, when it holds one: a bank not retired, or a spare that is racking or retired
into (R256). -/
def dataBank (s : State) (unit : Nat) : Option Nat :=
  if unit < 64 then
    if (List.range (numSpares s.variant)).any (fun i => spareState s i = 2 && spareBank s i = unit) then none else some unit
  else if unit < 66 && (spareState s (unit - 64) = 1 || spareState s (unit - 64) = 2) then some (spareBank s (unit - 64))
  else none

/-- First line of a test group, and how many lines it has. -/
def groupBase (g : Nat) : Nat := 64 * g
/-- Lines in a test group: group 1,024 is the 8 spare lines. -/
def groupSize (g : Nat) : Nat := if g = 1024 then 8 else 64

/-- Lines or codewords of a unit. -/
def unitLines (v : Variant) (unit : Nat) : Nat :=
  if unit < 66 then 65544 else if unit = 66 then 65536 else 7 * numMailboxes v

/-- Backgrounds of an algorithm (R242). -/
def backgrounds (algo : Nat) : Nat := if algo = 1 then 4 else 1

/-- Where a codeword's cells lie: its row segment and its number w there; cell c of a segment is position c div 4 of codeword c mod 4 (R221,
R243). The codewords of a store are taken in fours (DESIGN CHOICE, log entry 22). -/
def cellPlace (unit line cw : Nat) : Nat × Nat := if unit < 66 then (line / 2, (line % 2) * 2 + cw) else (line / 4, line % 4)

/-- The codewords that one march access covers: both of a line, or one of a store. -/
def marchCws (unit : Nat) : List Nat := if unit < 66 then [0, 1] else [0]

/-- The value "0" of the cells of codeword w of a segment under a background: one value for the whole codeword, because cell 4i + w has
the parity of w (R242, R221). -/
def marchZero (bg seg w : Nat) : Bool :=
  match bg with
  | 0 => false
  | 1 => (w + seg) % 2 = 1
  | 2 => seg % 2 = 1
  | _ => w % 2 = 1

/-- A raw codeword of equal cells. -/
def rawCw (b : Bool) : Cw := if b then ⟨BitVec.allOnes 256, BitVec.allOnes 19⟩ else ⟨0, 0⟩

/-- What element `el` of March C− reads first: none for the first, otherwise the value "0" or "1" that stands there. -/
def marchReads (el : Nat) : Option Bool :=
  match el with
  | 0 => none
  | 1 => some false
  | 2 => some true
  | 3 => some false
  | 4 => some true
  | _ => some false

/-- What element `el` of March C− writes: none for the last, otherwise the value "0" or "1". -/
def marchWrites (el : Nat) : Option Bool :=
  match el with
  | 0 => some false
  | 1 => some true
  | 2 => some false
  | 3 => some true
  | 4 => some false
  | _ => none

/-- Whether an element runs in descending order. -/
def marchDown (el : Nat) : Bool := el = 3 || el = 4

/-- The positions of a codeword at which a physical defect lies. -/
def weakPositions (s : State) (unit line cw : Nat) : List Nat :=
  let p := cellPlace unit line cw
  (s.test.weak.filter (fun w => w.1 = unit && w.2.1 = p.1 && w.2.2 % 4 = p.2)).map (fun w => w.2.2 / 4)

/-- What a march reads of a codeword: its raw cells (R241). A defective cell does not give back what was written. -/
def marchCw (s : State) (unit line cw : Nat) : Cw := (weakPositions s unit line cw).foldl flipPos (rawBits s unit line cw)

/-- A position of a codeword (R217). -/
def posBit (c : Cw) (p : Nat) : Bool :=
  if p ≤ 17 then bitOf c.check.toNat p else if p ≤ 273 then bitOf c.data.toNat (p - 18) else bitOf c.check.toNat 18

/-- The positions at which two codewords differ. -/
def cwDiff (a b : Cw) : List Nat := if a = b then [] else (List.range 275).filter (fun p => posBit a p != posBit b p)

/-- The failing cells of a line: those whose read is not the value last written (R241, R243). -/
def failingCells (s : State) (unit bg line : Nat) (one : Bool) : List Nat :=
  (marchCws unit).flatMap (fun cw =>
    let p := cellPlace unit line cw
    (cwDiff (marchCw s unit line cw) (rawCw (marchZero bg p.1 p.2 != one))).map (fun i => 4 * i + p.2))

/-- A line with a failing cell (R243). -/
def lineFails (s : State) (unit line cell : Nat) (fg : Bool) : State :=
  let s := addSat s R_TST_RESULT TST_RESULT_FAILS 1
  let s := if rdB s R_TST_RESULT TST_RESULT_VALID then s
    else wr s R_TST_RESULT ((rd s R_TST_RESULT &&& fldMask TST_RESULT_FAILS) ||| w64 (line + cell <<< 17 + unit <<< 28 + 1 <<< 63))
  let s := if fg then { s with test := { s.test with fgFails := s.test.fgFails + 1 } } else s
  match dataBank s unit with
  | none => s
  | some b =>
    if 65536 ≤ line then
      let k := line - 65536
      let st := rdF s (R_RMP_ENTRY unit k) RMP_ENTRY_STATE
      if st = 0 then addSat (wrF s (R_RMP_ENTRY unit k) RMP_ENTRY_STATE 3) (R_INT_UNITERR unit) INT_UNITERR_REMAPS 1
      else if st = 2 then hardFault s unit line (lineAddr s.variant b (rdF s (R_RMP_ENTRY unit k) RMP_ENTRY_LINE))
      else s
    else if (remapOf s unit line).isSome then s
    else hardFault s unit line (lineAddr s.variant b line)

/-- Copy a line raw into the tasting buffer. -/
def tasteLine (s : State) (unit line : Nat) : List (Nat × Cw) :=
  [(line * 2, readCw s unit line 0), (line * 2 + 1, readCw s unit line 1)]

/-- Restore a line raw from the tasting buffer. -/
def restoreLine (s : State) (unit line : Nat) (buf : List (Nat × Cw)) : State :=
  let put (s : State) (cw : Nat) : State :=
    match buf.find? (fun e => e.1 = line * 2 + cw) with
    | some e => writeCw s unit line cw e.2
    | none => s
  put (put s 0) 1

/-- Set every cell of a line's codewords to the value "0" or "1" of a background, past the encoder (R241). -/
def marchFill (s : State) (unit bg line : Nat) (one : Bool) : State :=
  (marchCws unit).foldl (fun s cw =>
    let p := cellPlace unit line cw
    writeCw s unit line cw (rawCw (marchZero bg p.1 p.2 != one))) s

/-- One march access to a line: element `el` of background `bg` reads and compares, then writes (R241, R242). -/
def marchLine (s : State) (unit bg el line : Nat) : State × List Nat :=
  let fails := match marchReads el with
    | some one => failingCells s unit bg line one
    | none => []
  (match marchWrites el with
   | some one => marchFill s unit bg line one
   | none => s, fails)

/-- Lines of a unit with a physical defect, each with its first failing cell, ascending (R243). -/
def weakLines (s : State) (unit : Nat) : List (Nat × Nat) :=
  let at_ (w : Nat × Nat × Nat) : Nat := if unit < 66 then 2 * w.2.1 + w.2.2 % 4 / 2 else 4 * w.2.1 + w.2.2 % 4
  let ws := s.test.weak.filter (fun w => w.1 = unit)
  ((ws.map at_).eraseDups.mergeSort (fun a b => decide (a ≤ b))).map (fun l =>
    (l, match (ws.filter (fun w => at_ w = l)).map (fun w => w.2.2) with | [] => 0 | c :: cs => cs.foldl min c))

/-! ### Runs -/

/-- A run that begins: a group of a unit, or the whole unit. -/
def newRun (unit group algo : Nat) (foreground destructive : Bool) : TestRun :=
  { unit := unit, group := group, algo := algo, phase := if destructive then .marching else .copying, done := 0, buffer := [],
    yielding := false, foreground := foreground, destructive := destructive, notBefore := 0, failed := [] }

/-- Lines of a run. -/
def runLines (v : Variant) (r : TestRun) : Nat := if r.destructive then unitLines v r.unit else groupSize r.group

/-- The line that the next access of a run goes to. -/
def testLine (v : Variant) (r : TestRun) : Nat :=
  let n := runLines v r
  let base := if r.destructive then 0 else groupBase r.group
  if r.phase = .marching then base + (if marchDown (r.done / n % 6) then n - 1 - r.done % n else r.done % n) else base + r.done

/-- The run after a march access: the phase that follows the last one, and the pause of 1 ms before the last element of a background
(R242, R244, R245). -/
def marchNext (v : Variant) (t : Nat) (r : TestRun) : TestRun :=
  let n := runLines v r
  let r := { r with done := r.done + 1 }
  if r.done = n * 6 * backgrounds r.algo then
    { r with done := 0, phase := if !r.destructive then .restoring else if r.algo = 1 then .clearing else .ended }
  else if r.destructive && r.algo = 1 && r.done % (6 * n) = 5 * n then { r with notBefore := t + 1 + 1600000 }
  else r

/-- One access of a run: a line copied, marched, restored or cleared (R241–R245). A failing line counts once for its run. -/
def runAccess (s : State) (r : TestRun) : State × TestRun :=
  let n := runLines s.variant r
  let line := testLine s.variant r
  match r.phase with
  | .copying =>
    let buf := r.buffer ++ tasteLine s r.unit line
    (s, if r.done + 1 = n then { r with buffer := buf, phase := .marching, done := 0 } else { r with buffer := buf, done := r.done + 1 })
  | .marching =>
    let m := marchLine s r.unit (r.done / n / 6) (r.done / n % 6) line
    match m.2 with
    | [] => (m.1, marchNext s.variant s.time r)
    | c :: cs =>
      if r.failed.contains line then (m.1, marchNext s.variant s.time r)
      else (lineFails m.1 r.unit line (cs.foldl min c) r.foreground, marchNext s.variant s.time { r with failed := line :: r.failed })
  | .restoring =>
    (restoreLine s r.unit line r.buffer,
      if r.done + 1 = r.buffer.length / 2 then { r with phase := .ended, done := 0 } else { r with done := r.done + 1 })
  | .clearing =>
    (marchFill s r.unit 0 line false,
      if r.done + 1 = n then { r with phase := .ended, done := 0 } else { r with done := r.done + 1 })
  | .ended => (s, r)

/-- A run gives up its group: the march stops, and the copied lines are restored from the next slot on (R249, R250). -/
def yieldRun (t : Nat) (r : TestRun) : TestRun :=
  if r.phase = .restoring || r.phase = .ended then { r with yielding := true }
  else { r with yielding := true, phase := .restoring, done := 0, notBefore := t + 1 }

/-- Whether a run has an access to make in this cycle. -/
def runReady (t : Nat) (r : TestRun) : Bool := r.phase != .ended && r.notBefore ≤ t

/-- Whether a run holds its lines: a group is borrowed from the slot of its first copy (R244). -/
def runHolds (r : TestRun) : Bool := !r.destructive && (r.phase != .copying || r.done != 0)

/-- Begin a run on a bank (R244, R245, R247). -/
def borrowGroup (s : State) (b unit group algo : Nat) (foreground destructive : Bool) : State :=
  setBank s b { bankOf s b with borrow := some (newRun unit group algo foreground destructive) }

/-- Ask the test to give up the group of a bank (R249). One that holds no line yet is given up at once. A destructive run gives up nothing. -/
def yieldGroup (s : State) (b : Nat) : State :=
  match (bankOf s b).borrow with
  | some r =>
    if r.destructive then s
    else if runHolds r then setBank s b { bankOf s b with borrow := some (yieldRun s.time r) }
    else settleDeferred (setBank s b { bankOf s b with borrow := none, groupEnd := some s.time }) (b / 8)
  | none => s

/-- Whether a decoded bank is being racked. -/
def bankRacking (s : State) (b : Nat) : Bool :=
  (List.range (numSpares s.variant)).any (fun i => spareState s i = 1 && spareBank s i = b)

/-- Whether a foreground test runs on a unit that holds bank `b`'s data, in its arbiter's test slots. -/
def fgOnBank (s : State) (b : Nat) : Bool :=
  match s.test.fgUnit with
  | some u => u < 66 && dataBank s u = some b
  | none => false

/-- A running foreground test begins its next group, or its whole unit (R245, R252). -/
def fgBeginGroup (s : State) (b : Nat) : State :=
  if fgOnBank s b && !s.test.fgAborting && s.test.fgGroup < s.test.fgEnd && (bankOf s b).borrow.isNone && !bankRacking s b then
    borrowGroup s b (s.test.fgUnit.getD 0) s.test.fgGroup s.test.fgAlgo true (s.test.fgMode = 2)
  else s

/-- Engines that are present and online, in ascending order. -/
def onlineEngines (s : State) : List Nat :=
  (List.range (numEngines s.variant)).filter (fun e => rdF s (R_ENG_STAT e) ENG_STAT_STATE = 0)

/-- Steps 4 and 5 of R255: the spare's field becomes RACKING and the job starts on an engine; a background pass over the spare ends
(R246). POISONED starts at 0, also when the job is resumed (DESIGN CHOICE, log entry 61). -/
def startRack (s : State) (b spare e line : Nat) : State :=
  let s := setSpare s spare b 1 line
  let s := wr s (R_ENG_RACK e) (w64 (line + b <<< 17 + spare <<< 23 + 1 <<< 24))
  let s := wrB s (R_ENG_STAT e) ENG_STAT_RACKING true
  wrB { s with test := { s.test with retPend := none, agents := s.test.agents.filter (fun r => r.unit != 64 + spare) } }
    R_RET_STAT RET_STAT_PENDING false

/-- The SC resumes a racking job that no engine runs, from LINE, on the default engine (R257). -/
def rackResume (s : State) : State :=
  if s.power.scHalted then s
  else
    match (List.range (numSpares s.variant)).find? (fun i => spareState s i = 1),
        (List.range (numEngines s.variant)).any (fun e => rdB s (R_ENG_STAT e) ENG_STAT_RACKING), (onlineEngines s).getLast? with
    | some i, false, some e => startRack s (spareBank s i) i e (spareLine s i)
    | _, _, _ => s

/-- The free spares that a retirement may take: not one under a foreground test (R246). -/
def rackableSpares (s : State) : List Nat := (freeSpares s).filter (fun i => s.test.fgUnit != some (64 + i))

/-- Whether a destructive foreground test runs on the unit that holds a bank's data: the bank cannot be racked (R246). -/
def bankDestroyed (s : State) (b : Nat) : Bool := s.test.fgMode = 2 && fgOnBank s b

/-- The SC works on the retirement asked for (R255): it releases a group borrowed on the bank, then takes the lowest free spare
and starts the job. It stays pending while the SC is halted, no engine is online, the engine named is frozen (R172), or a test holds the units (R246). -/
def retireStart (s : State) : State :=
  match s.test.retPend with
  | none => s
  | some (b, sel) =>
    if s.power.scHalted || bankDestroyed s b then s
    else
      let s := yieldGroup s b
      if (bankOf s b).borrow.isSome then s
      else
        match (rackableSpares s).head?, (match sel with | some e => some e | none => (onlineEngines s).getLast?) with
        | some i, some e => if engFrozen s e then s else startRack s b i e 0
        | _, _ => s

/-- A background run over a group has ended: the position moves to the next group (R247). -/
def groupDone (s : State) (unit : Nat) : State :=
  let next := rdF s (R_TST_BGPOS unit) TST_BGPOS_GROUP + 1
  if next = 1025 then addWrap (wrF s (R_TST_BGPOS unit) TST_BGPOS_GROUP 0) (R_TST_BGPOS unit) TST_BGPOS_PASSES 1
  else wrF s (R_TST_BGPOS unit) TST_BGPOS_GROUP next

/-- A foreground run over a group has ended (R252). -/
def fgGroupDone (s : State) : State :=
  addWrap { s with test := { s.test with fgGroup := s.test.fgGroup + 1 } } R_TST_STAT TST_STAT_GROUPS 1

/-- What happens when a borrowed group has been restored: it is released; a group run to its end advances the position (R247,
R252), an abandoned one is counted and begun afresh (R249). Accesses set aside are presented again (R248). The next group of a foreground
test, a retirement and a deferred change of the region that waited for the release follow (R252, R255, R351). -/
def releaseGroup (s : State) (b : Nat) (r : TestRun) : State :=
  let k := bankOf s b
  let s := setBank s b { k with borrow := none,
                                groupEnd := some s.time,
                                queue := k.queue.map (fun r => { r with setAside := none }) }
  let s :=
    if r.yielding then countSat s 0x12 R_TST_HOLDS TST_HOLDS_YIELDS 1
    else if r.foreground then fgGroupDone s
    else groupDone s r.unit
  settleDeferred (fgBeginGroup (retireStart s) b) (b / 8)

/-- The trace entry of a copy or test access of a bank slot (R413, R414). -/
def traceCopy (s : State) (b addr req opcode : Nat) : State :=
  trace s { time := s.time, addr := addr, req := req, slot := 0, half2 := false, opcode := opcode, len := 64, status := .ok, ce := false, sup := false,
            unit := b, gsize := 1, gpos := 0, rot := (s.time + b) % 32, tag := 0, data := [], cls := 4, dest := 0 }

/-- The test-agent slot of a bank with a run (R241, R244, R249): one access. -/
def testSlot (s : State) (b : Nat) (r : TestRun) : State :=
  let s := traceCopy (occur s EV_TEST) b (lineAddr s.variant b (logicalLine s r.unit (testLine s.variant r))) 28 0xE1
  let x := runAccess s r
  if x.2.phase = .ended && !r.destructive then releaseGroup x.1 b x.2
  else setBank x.1 b { bankOf x.1 b with borrow := some x.2 }

/-- Whether a decoded line of a bank lies in the group borrowed there (R248). -/
def lineBorrowed (s : State) (b line : Nat) : Bool :=
  match (bankOf s b).borrow with
  | some r =>
    let u := physUnit s b line
    runHolds r && u = r.unit && physLine s u line / 64 = r.group
  | none => false

/-- The remap job that waits to copy a line of a bank. -/
def remapJobAt (s : State) (b line : Nat) : Option RemapJob :=
  s.integ.remaps.find? (fun j => j.line = line && dataBank s j.unit = some b)

/-- Whether the spare line that a remap copy of a bank's line writes lies in the group borrowed there: group 1,024 (R235, R248). -/
def spareBorrowed (s : State) (b line : Nat) : Bool :=
  match (bankOf s b).borrow, remapJobAt s b line with
  | some r, some j => runHolds r && j.unit = r.unit && r.group = 1024
  | _, _ => false

/-- Whether a test of a unit that no arbiter serves keeps a remap copy of the unit waiting: its run has the line or the spare line
(R235, R248). -/
def agentHolds (s : State) (j : RemapJob) : Bool :=
  s.test.agents.any (fun r => r.unit = j.unit &&
    (r.destructive || (runHolds r && (r.group = 1024 || physLine s j.unit j.line / 64 = r.group))))

end Sys2Proof.Machine
end

