-- ==== Sys2Proof/Machine/Copies.lean ====
section
/-! DEFINITION. What the device's own accesses do in the bank slot they have won: scrub visits (R231, R232), remap copies (R235), racking
copies (R173, R174, R256) and the lines of a resynchronisation (R344, R345). They wait in the bank queues as requests with codes of
their own. -/

namespace Sys2Proof.Machine

/-! ### Copies of codewords (R223) -/

/-- A codeword as a copy or the scrubber stores it: corrected, or poisoned with its data bits as read, or as it stands. -/
def copiedCw (raw : Cw) (d : Decoded) : Cw :=
  match d.outcome with
  | .uncorrectable => poisonCw raw.data
  | .corrected => encodeCw d.cw.data
  | _ => raw

/-- The finding of a copied codeword; an uncorrectable one has KIND `kind` (R228). -/
def copyFinding (k : Nat) (d : Decoded) (kind src : Nat) : List Finding :=
  match d.outcome with
  | .corrected => [⟨k, d, 1, src, 0, true⟩]
  | .uncorrectable => [⟨k, d, kind, src, 0, false⟩]
  | _ => []

/-! ### The scrubber -/

/-- Banks present, in ascending order. -/
def presentBanks (v : Variant) : List Nat := (List.range 64).filter (fun b => bankPresent v b)

/-- Visits of a pass: every decoded line, every semaphore, every mailbox codeword (R231). -/
def scrubVisits (v : Variant) : Nat := 65536 * (presentBanks v).length + 65536 + 7 * numMailboxes v

/-- Period of a pass in core cycles. -/
def scrubPeriod (s : State) : Nat := rdF s R_INT_SCRUB_CFG INT_SCRUB_CFG_PERIOD_MIN * 96000000000

/-- Number of the next visit within its pass. -/
def scrubIndex (s : State) : Nat :=
  let banks := presentBanks s.variant
  if rdB s R_INT_SCRUB_POS INT_SCRUB_POS_STORES then 65536 * banks.length + s.integ.storeIndex
  else rdF s R_INT_SCRUB_POS INT_SCRUB_POS_LINE * banks.length + banks.idxOf (rdF s R_INT_SCRUB_POS INT_SCRUB_POS_BANK)

/-- The visit that falls next is due at a time. -/
def scrubDue (s : State) (due : Nat) : State := { s with integ := { s.integ with nextVisit := due } }

/-- The end of a pass: LATE when it took longer than the period, PASSES, and the walk at line 0 of bank 0 again. -/
def scrubPassEnd (s : State) (due : Nat) : State :=
  let s := if scrubPeriod s < s.time - s.integ.passStart then addSat s R_INT_SCRUB_STAT INT_SCRUB_STAT_LATE 1 else s
  let s := addWrap s R_INT_SCRUB_POS INT_SCRUB_POS_PASSES 1
  let s := wrF (wrF (wrF s R_INT_SCRUB_POS INT_SCRUB_POS_LINE 0) R_INT_SCRUB_POS INT_SCRUB_POS_BANK 0)
    R_INT_SCRUB_POS INT_SCRUB_POS_STORES 0
  { s with integ := { s.integ with storeIndex := 0, passStart := max s.time due, nextVisit := max s.time due } }

/-- The walk stands at a line of the array. -/
def scrubToLine (s : State) (line bank : Nat) : State :=
  wrF (wrF s R_INT_SCRUB_POS INT_SCRUB_POS_LINE line) R_INT_SCRUB_POS INT_SCRUB_POS_BANK bank

/-- The walk goes over to the stores. -/
def scrubToStores (s : State) : State :=
  wrF (wrF (wrF s R_INT_SCRUB_POS INT_SCRUB_POS_LINE 0) R_INT_SCRUB_POS INT_SCRUB_POS_BANK 0) R_INT_SCRUB_POS
    INT_SCRUB_POS_STORES 1

/-- The walk goes to the next codeword of the stores. -/
def scrubNextStore (s : State) : State := { s with integ := { s.integ with storeIndex := s.integ.storeIndex + 1 } }

/-- The position moves to the next visit, which becomes due one even share of the period later (R231). -/
def scrubAdvance (s : State) : State :=
  let i := scrubIndex s
  let n := scrubVisits s.variant
  let banks := presentBanks s.variant
  let lines := 65536 * banks.length
  let due := s.integ.nextVisit + (scrubPeriod s * (i + 1) / n - scrubPeriod s * i / n)
  let s := scrubDue s due
  if i + 1 = n then scrubPassEnd s due
  else if i + 1 < lines then scrubToLine s ((i + 1) / banks.length) (banks.getD ((i + 1) % banks.length) 0)
  else if i + 1 = lines then scrubToStores s
  else scrubNextStore s

/-- A visit that is not made: skipped as answered BUSY (R231). -/
def scrubSkip (s : State) : State := scrubAdvance (countSat s 0x11 R_INT_SCRUB_STAT INT_SCRUB_STAT_SKIPPED 1)

/-- A visit to a line (R232), in the slot it has won. -/
def scrubLine (s : State) (b line : Nat) : State :=
  let unit := physUnit s b line
  let pline := physLine s unit line
  let addr := lineAddr s.variant b line
  let c0 := readCw s unit pline 0
  let c1 := readCw s unit pline 1
  let d0 := decodeCw c0
  let d1 := decodeCw c1
  let s := occur (bumpFree s unit) EV_SCRUB
  let s := traceCopy s b addr 27 0xE0
  if d0.outcome = .poisoned || d1.outcome = .poisoned then s
  else
    let fs := copyFinding 0 d0 3 27 ++ copyFinding 1 d1 3 27
    let bad := d0.outcome = .uncorrectable || d1.outcome = .uncorrectable
    let s := if fs.isEmpty then s else writeCw (writeCw s unit pline 0 (copiedCw c0 d0)) unit pline 1 (copiedCw c1 d1)
    let s := bankFindings s unit pline addr (65536 ≤ pline) fs
    if bad then
      healLine (setIntStat (countSat s 0x11 R_INT_POISON INT_POISON_POISONED 1) INT_STAT_SCRUB_UE (some 4128)) addr
    else s

/-! ### Remaps -/

/-- A remap is done: the entry of LINE becomes valid, an older one dead, and the ordered remap ends (R235, R254). -/
def remapDone (s : State) (j : RemapJob) (src : Nat) (old : Option Nat) : State :=
  let s := match old with
    | some k => wrF s (R_RMP_ENTRY j.unit k) RMP_ENTRY_STATE 3
    | none => s
  let s := wrF s (R_RMP_ENTRY j.unit j.entry) RMP_ENTRY_STATE 2
  let s := setIntStat (countSat s 0x11 R_INT_HFCOUNT INT_HFCOUNT_REMAPS 1) INT_STAT_REMAP (some 4130)
  let s := if rdB s R_INT_HF INT_HF_VALID && rdF s R_INT_HF INT_HF_PHYS = j.unit && rdF s R_INT_HF INT_HF_LINE = src then
      wrB s R_INT_HF INT_HF_REMAPPED true else s
  let s := if j.ordered then wrF (wrB s R_RMP_STAT RMP_STAT_BUSY false) R_RMP_STAT RMP_STAT_CODE 0 else s
  { s with integ := { s.integ with remaps := s.integ.remaps.erase j } }

/-- The copy of a remap (R223, R235): the line through its current mapping into the spare line, which becomes its place. -/
def remapCopyNow (s : State) (j : RemapJob) (addr : Nat) : State :=
  let old := remapOf s j.unit j.line
  let src := physLine s j.unit j.line
  let dst := 65536 + j.entry
  let c0 := readCw s j.unit src 0
  let c1 := readCw s j.unit src 1
  let d0 := decodeCw c0
  let d1 := decodeCw c1
  let s := bumpFree s j.unit
  let s := bankWriteCw (bankWriteCw s .sc j.unit dst addr 0 (copiedCw c0 d0)) .sc j.unit dst addr 1 (copiedCw c1 d1)
  let s := bankFindings s j.unit src addr (65536 ≤ src) (copyFinding 0 d0 4 24 ++ copyFinding 1 d1 4 24)
  let b := (dataBank s j.unit).getD 0
  let s := traceCopy s b addr 24 0xE3
  remapDone s j src old

/-- The slot of a remap copy: the job that waits for this line. -/
def remapServe (s : State) (b line : Nat) : State :=
  match remapJobAt s b line with
  | some j => remapCopyNow s j (lineAddr s.variant b line)
  | none => s

/-! ### Racking -/

/-- The findings of a racked line: a poisoned codeword is logged too (R174). -/
def rackFindings (d0 d1 : Decoded) (src : Nat) : List Finding :=
  let one (k : Nat) (d : Decoded) : List Finding :=
    if d.outcome = .poisoned then [⟨k, d, 4, src, 0, false⟩] else copyFinding k d 4 src
  one 0 d0 ++ one 1 d1

/-- The job has copied line 65,535 (R174, R256): the bank is retired into its spare, a spare it was retired into before is done with,
and what waited for the job follows. -/
def rackDone (s : State) (e b i : Nat) : State :=
  let old := (List.range (numSpares s.variant)).find? (fun j => j != i && spareState s j = 2 && spareBank s j = b)
  let s := match old with
    | some j => setSpareState s j 3
    | none => s
  let s := setSpareState s i 2
  let s := wrB (wrB s (R_ENG_RACK e) ENG_RACK_ACTIVE false) (R_ENG_STAT e) ENG_STAT_RACKING false
  rackResume (settleDeferred (setEngBit s e ENG_STAT_RACK_DONE 0) (b / 8))

/-- Copy one line, and redirect it (R173). -/
def rackLine (s : State) (e b i line : Nat) : State :=
  let src := physUnit s b line
  let sline := physLine s src line
  let addr := lineAddr s.variant b line
  let c0 := readCw s src sline 0
  let c1 := readCw s src sline 1
  let d0 := decodeCw c0
  let d1 := decodeCw c1
  let dst := physLine s (64 + i) line
  let bad (d : Decoded) : Bool := d.outcome = .uncorrectable || d.outcome = .poisoned
  let s := bumpFree s src
  let s := bankWriteCw (bankWriteCw s (.engine e 0) (64 + i) dst addr 0 (copiedCw c0 d0)) (.engine e 0) (64 + i) dst addr 1 (copiedCw c1 d1)
  let s := bankFindings s src sline addr (65536 ≤ sline) (rackFindings d0 d1 (8 + e))
  let s := if bad d0 || bad d1 then addSat s (R_ENG_RACK e) ENG_RACK_POISONED 1 else s
  let s := traceCopy s b addr (8 + e) 0xE2
  let s := wrF (setSpare s i b 1 (line + 1)) (R_ENG_RACK e) ENG_RACK_LINE (line + 1)
  if line + 1 = 65536 then rackDone s e b i else s

/-- The slot of a racking copy: the engine's job stands at this line. -/
def rackServe (s : State) (e b line : Nat) : State :=
  if rdB s (R_ENG_STAT e) ENG_STAT_RACKING && rdF s (R_ENG_RACK e) ENG_RACK_BANK = b && rdF s (R_ENG_RACK e) ENG_RACK_LINE = line then
    rackLine s e b (rdF s (R_ENG_RACK e) ENG_RACK_SPARE) line
  else s

/-! ### Resynchronisation -/

/-- An item of the copy has been forwarded. -/
def syncNext (s : State) : State := { s with pair := { s.pair with syncPos := s.pair.syncPos + 1 } }

/-- The address of the line that the copy comes to next. -/
def syncAddr (s : State) : Nat := s.pair.syncSegs.getD (s.pair.syncPos / 1024) 0 * 0x10000 + 64 * (s.pair.syncPos % 1024)

/-- Whether the copy of SYNCING stands at a line address. -/
def syncAtLine (s : State) (addr : Nat) : Bool :=
  pairState s = PS_SYNCING && rdB s R_PR_STAT PR_STAT_SOURCE && s.pair.syncFault.isNone &&
  s.pair.syncPos < 1024 * s.pair.syncSegs.length && syncAddr s = addr

/-- Whether the copy of SYNCING stands at an item, by its place in the whole copy. -/
def syncAtItem (s : State) (i : Nat) : Bool :=
  pairState s = PS_SYNCING && rdB s R_PR_STAT PR_STAT_SOURCE && s.pair.syncFault.isNone && s.pair.syncPos = i

/-- The findings of a codeword that is only read (R225, R228). -/
def readFinding (k : Nat) (d : Decoded) (src : Nat) : List Finding :=
  match d.outcome with
  | .corrected => [⟨k, d, 1, src, 0, false⟩]
  | .uncorrectable => [⟨k, d, 2, src, 0, false⟩]
  | _ => []

/-- The copy has met a fault: it stops until its queue is resumed (R345). -/
def syncStop (s : State) (e code addr : Nat) : State :=
  { s with pair := { s.pair with syncFault := some { engine := e, code := code, addr := addr, entered := false } } }

/-- The slot of a line of the copy (R344): the line is read, and its unit enters the forward stream. A line that decodes uncorrectable or
poisoned stops the copy (R345). -/
def syncServe (s : State) (e b addr : Nat) : State :=
  if syncAtLine s addr then
    let line := bankLine s.variant addr
    let unit := physUnit s b line
    let pline := physLine s unit line
    let d0 := decodeCw (readCw s unit pline 0)
    let d1 := decodeCw (readCw s unit pline 1)
    let s := bankFindings (bumpFree s unit) unit pline addr (65536 ≤ pline) (readFinding 0 d0 (8 + e) ++ readFinding 1 d1 (8 + e))
    if d0.outcome = .poisoned || d1.outcome = .poisoned then syncStop s e 2 addr
    else if d0.outcome = .uncorrectable || d1.outcome = .uncorrectable then syncStop s e 1 addr
    else syncNext (pairForward s (linePort s addr) (linesBytes addr (cwData d0.cw ++ cwData d1.cw)) (some (segmentOf addr)) [])
  else s

end Sys2Proof.Machine
end

