-- ==== Sys2Proof/Machine/VatMath.lean ====
section
/-! DEFINITION. The arithmetic of accumulate (R96, R103–R108): integers, IEEE 754 binary formats, and the fixed window FW128. -/

namespace Sys2Proof.Machine

/-- A binary floating-point format: exponent bits and fraction bits. -/
structure FpFmt where
  eb : Nat
  mb : Nat
  deriving DecidableEq, Repr

/-- binary32 -/
def fp32 : FpFmt := ⟨8, 23⟩
/-- binary64 -/
def fp64 : FpFmt := ⟨11, 52⟩
/-- the upper half of binary32 -/
def bf16 : FpFmt := ⟨8, 7⟩

/-- Exponent field of a value. -/
def fpExp (f : FpFmt) (x : Nat) : Nat := (x >>> f.mb) % 2 ^ f.eb
/-- Fraction field. -/
def fpMan (f : FpFmt) (x : Nat) : Nat := x % 2 ^ f.mb
/-- Sign bit. -/
def fpNeg (f : FpFmt) (x : Nat) : Bool := bitOf x (f.mb + f.eb)
/-- All ones of the exponent field. -/
def fpTop (f : FpFmt) : Nat := 2 ^ f.eb - 1
/-- Exponent bias. -/
def fpBias (f : FpFmt) : Int := ((2 ^ (f.eb - 1) - 1 : Nat) : Int)
/-- Not a number. -/
def fpNan (f : FpFmt) (x : Nat) : Bool := fpExp f x = fpTop f && fpMan f x != 0
/-- Infinite. -/
def fpInf (f : FpFmt) (x : Nat) : Bool := fpExp f x = fpTop f && fpMan f x = 0
/-- The canonical quiet NaN of R104. -/
def fpQuiet (f : FpFmt) : Nat := fpTop f <<< f.mb + 2 ^ (f.mb - 1)
/-- Infinity of a sign. -/
def fpInfOf (f : FpFmt) (neg : Bool) : Nat := (b01 neg) <<< (f.mb + f.eb) + fpTop f <<< f.mb
/-- Integer significand of a finite value: the value is ± significand × 2 ^ exponent. -/
def fpSig (f : FpFmt) (x : Nat) : Nat := if fpExp f x = 0 then fpMan f x else fpMan f x + 2 ^ f.mb
/-- Exponent of the significand's lowest bit. -/
def fpLow (f : FpFmt) (x : Nat) : Int :=
  (if fpExp f x = 0 then 1 else (fpExp f x : Int)) - fpBias f - (f.mb : Int)
/-- Signed significand of a finite value. -/
def fpInt (f : FpFmt) (x : Nat) : Int := if fpNeg f x then -(fpSig f x : Int) else (fpSig f x : Int)

/-- Shift right by `k` places, rounding to nearest, ties to even. -/
def shiftRne (n k : Nat) : Nat :=
  let q := n >>> k
  let r := n - (q <<< k)
  let half := 2 ^ (k - 1)
  if k = 0 then n else if r > half || (r = half && q % 2 = 1) then q + 1 else q

/-- n × 2 ^ ex, n not zero, rounded to a format to nearest, ties to even; beyond the largest finite value it is infinite. -/
def fpRound (f : FpFmt) (neg : Bool) (n : Nat) (ex : Int) : Nat :=
  let low := max (ex + (Nat.log2 n : Int) - (f.mb : Int)) (1 - fpBias f - (f.mb : Int))
  let sig := if low ≤ ex then n <<< (ex - low).toNat else shiftRne n (low - ex).toNat
  let low' := if sig = 2 ^ (f.mb + 1) then low + 1 else low
  let sig' := if sig = 2 ^ (f.mb + 1) then 2 ^ f.mb else sig
  let s := (b01 neg) <<< (f.mb + f.eb)
  if sig' < 2 ^ f.mb then s + sig'
  else
    let e := (low' + (f.mb : Int) + fpBias f).toNat
    if fpTop f ≤ e then fpInfOf f neg else s + e <<< f.mb + (sig' - 2 ^ f.mb)

/-- The sum of two finite values before rounding, as an integer of 2 ^ (the lower exponent). -/
def fpExactSum (f : FpFmt) (x y : Nat) : Int :=
  let l := min (fpLow f x) (fpLow f y)
  fpInt f x * ((2 ^ (fpLow f x - l).toNat : Nat) : Int) + fpInt f y * ((2 ^ (fpLow f y - l).toNat : Nat) : Int)

/-- Addition (R104). -/
def fpAdd (f : FpFmt) (x y : Nat) : Nat :=
  if fpNan f x || fpNan f y then fpQuiet f
  else if fpInf f x && fpInf f y then (if fpNeg f x = fpNeg f y then x else fpQuiet f)
  else if fpInf f x then x
  else if fpInf f y then y
  else
    let t := fpExactSum f x y
    if t = 0 then (if fpNeg f x && fpNeg f y then (1 : Nat) <<< (f.mb + f.eb) else 0)
    else fpRound f (decide (t < 0)) t.natAbs (min (fpLow f x) (fpLow f y))

/-- The order of the numbers with −0 below +0. -/
def fpKey (f : FpFmt) (x : Nat) : Int :=
  let mag := x % 2 ^ (f.mb + f.eb)
  if fpNeg f x then -(mag : Int) - 1 else (mag : Int)

/-- Minimum (R104). -/
def fpMin (f : FpFmt) (x y : Nat) : Nat :=
  if fpNan f x || fpNan f y then fpQuiet f else if fpKey f y < fpKey f x then y else x

/-- Maximum (R104). -/
def fpMax (f : FpFmt) (x y : Nat) : Nat :=
  if fpNan f x || fpNan f y then fpQuiet f else if fpKey f x < fpKey f y then y else x

/-- Integer operations of `w` bits (R103); OP codes 0 ADD, 1 MIN, 2 MAX, 3 AND, 4 OR, 5 XOR. -/
def intOp (w : Nat) (signed : Bool) (op x y : Nat) : Nat :=
  let less (a b : Nat) : Bool := if signed then decide (toSigned w a < toSigned w b) else decide (a < b)
  match op with
  | 0 => (x + y) % 2 ^ w
  | 1 => if less y x then y else x
  | 2 => if less x y then y else x
  | 3 => x &&& y
  | 4 => x ||| y
  | _ => x ^^^ y

/-- Floating-point operations. -/
def fpOp (f : FpFmt) (op x y : Nat) : Nat :=
  match op with
  | 0 => fpAdd f x y
  | 1 => fpMin f x y
  | _ => fpMax f x y

/-- Bytes of a stored element (R96). -/
def storedSize (opfmt : Nat) : Nat :=
  match opfmt with
  | 0 => 4 | 1 => 8 | 2 => 4 | 3 => 8 | 4 => 4 | 5 => 8 | 6 => 2 | 8 => 16 | 9 => 16 | _ => 1

/-- Bytes of an operand element (R96). -/
def operandSize (opfmt : Nat) : Nat := if opfmt = 8 then 8 else storedSize opfmt

/-- Whether an OPFMT is in the table "Operand formats". -/
def opfmtDefined (opfmt : Nat) : Bool := opfmt ≤ 6 || opfmt = 8 || opfmt = 9

/-- The vat FMT that an OPFMT matches (R96). -/
def opfmtMatches (opfmt fmt : Nat) : Bool := if opfmt = 9 then fmt = 8 else opfmt = fmt

/-- FMT and OP pairs that the table "Operand formats" allows. -/
def fmtOpAllowed (fmt op : Nat) : Bool :=
  if fmt ≤ 3 then op ≤ 5 else if fmt ≤ 6 then op ≤ 2 else if fmt = 8 then op = 0 else false

/-- What an ACC counts in its vat beside the elements it writes (R105–R107). -/
structure AccCounts where
  loss : Nat
  nonfinite : Nat
  ovf : Bool
  deriving DecidableEq, Repr

/-- The greatest FW128 element. -/
def fwTop : Int := ((2 ^ 127 : Nat) : Int) - 1
/-- The least FW128 element. -/
def fwBot : Int := -((2 ^ 127 : Nat) : Int)
/-- Clamp to the window. -/
def fwClamp (i : Int) : Int := if fwTop < i then fwTop else if i < fwBot then fwBot else i
/-- Outside the window. -/
def fwOut (i : Int) : Bool := decide (fwTop < i) || decide (i < fwBot)

/-- floor(v × 2 ^ −S) of a finite binary64 (R105), before the window. -/
def fwConvert (scale : Int) (x : Nat) : Int :=
  let sh := fpLow fp64 x - scale
  if 0 ≤ sh then fpInt fp64 x * ((2 ^ sh.toNat : Nat) : Int) else fpInt fp64 x / ((2 ^ (-sh).toNat : Nat) : Int)

/-- Whether the conversion discards a non-zero part (R105). -/
def fwLossy (scale : Int) (x : Nat) : Bool :=
  let sh := fpLow fp64 x - scale
  if 0 ≤ sh then false else decide (fpInt fp64 x % ((2 ^ (-sh).toNat : Nat) : Int) ≠ 0)

/-- Add an integer to an element with saturation (R107). -/
def fwAdd (el : Nat) (i : Int) : Nat × Bool :=
  let t := toSigned 128 el + i
  (ofSigned 128 (fwClamp t), fwOut t)

/-- One element combined with one operand (R103–R107): the new element and the counts. -/
def accElement (opfmt op : Nat) (scale : Int) (el x : Nat) (c : AccCounts) : Nat × AccCounts :=
  match opfmt with
  | 0 => (intOp 32 true op el x, c)
  | 1 => (intOp 64 true op el x, c)
  | 2 => (intOp 32 false op el x, c)
  | 3 => (intOp 64 false op el x, c)
  | 4 => (fpOp fp32 op el x, c)
  | 5 => (fpOp fp64 op el x, c)
  | 6 => (fpOp bf16 op el x, c)
  | 8 =>
    if fpNan fp64 x || fpInf fp64 x then (el, { c with nonfinite := c.nonfinite + 1 })
    else
      let v := fwConvert scale x
      let r := fwAdd el (fwClamp v)
      (r.1, { c with loss := c.loss + b01 (fwLossy scale x), ovf := c.ovf || fwOut v || r.2 })
  | _ =>
    let r := fwAdd el (toSigned 128 x)
    (r.1, { c with ovf := c.ovf || r.2 })

/-- Combine `n` elements of a range, in ascending order (R97). -/
def accRange (opfmt op : Nat) (scale : Int) : Nat → List Byte → List Byte → AccCounts → List Byte × AccCounts
  | 0, stored, _, c => (stored, c)
  | n + 1, stored, operands, c =>
    let r := accElement opfmt op scale (leNat (sliceBytes stored 0 (storedSize opfmt)))
      (leNat (sliceBytes operands 0 (operandSize opfmt))) c
    let t := accRange opfmt op scale n (stored.drop (storedSize opfmt)) (operands.drop (operandSize opfmt)) r.2
    (leBytes (storedSize opfmt) r.1 ++ t.1, t.2)

/-- One FW128 element as binary64 (R108). -/
def fwToFp64 (scale : Int) (el : Nat) : Nat :=
  let n := toSigned 128 el
  if n = 0 then 0 else fpRound fp64 (decide (n < 0)) n.natAbs scale

/-- RDCV of `n` elements (R102, R108). -/
def rdcvRange (scale : Int) : Nat → List Byte → List Byte
  | 0, _ => []
  | n + 1, stored => leBytes 8 (fwToFp64 scale (leNat (sliceBytes stored 0 16))) ++ rdcvRange scale n (stored.drop 16)

end Sys2Proof.Machine
end

