-- ==== Sys2Proof/Machine/Bank.lean ====
section
/-! DEFINITION. The banks: presentation (R53, R54, R248), slot allocation (R55–R57, R439), arbitration groups and their order
(R58–R63), and the service of reads, writes, atomic operations and accumulates (R44–R48, R60, R71–R78, R99–R107, R224). -/

namespace Sys2Proof.Machine

/-- Whether the core runs from its PLL and is not held in reset: on the oscillator and without a clock it begins nothing (R430), and while
RESET_N is low the device stays in reset (R435). -/
def coreOn (s : State) : Bool := s.power.clock = .pll && !s.power.resetLow

/-! ### One line in a bank access -/

/-- A line as the writes of a group find it: its bytes, which codewords are uncorrectable or corrected, whether poisoned. -/
structure LineView where
  bytes : List Byte
  unc0 : Bool
  unc1 : Bool
  poison : Bool
  ce0 : Bool
  ce1 : Bool
  deriving DecidableEq, Repr

/-- The view of a line from its decoded codewords. -/
def viewOf (d0 d1 : Decoded) : LineView :=
  { bytes := cwData d0.cw ++ cwData d1.cw, unc0 := d0.outcome = .uncorrectable, unc1 := d1.outcome = .uncorrectable,
    poison := d0.outcome = .poisoned || d1.outcome = .poisoned, ce0 := d0.outcome = .corrected, ce1 := d1.outcome = .corrected }

/-- Whether a range of `len` bytes from `lo` meets codeword `k`. -/
def touchesCw (lo len k : Nat) : Bool := if k = 0 then lo < 32 && 0 < len else 32 < lo + len

/-- The lanes that a WRITE enables (R46, R48). -/
def enabledLanes (r : BReq) : List Nat :=
  ((List.range r.len).filter (fun i => bitOf r.mask.toNat i)).map (fun i => r.addr % 64 + i)

/-- A full-line write (R51). -/
def fullLine (r : BReq) : Bool := r.op = .write && (enabledLanes r).length = 64

/-- Whether lanes cover codeword `k` whole. -/
def coversCw (lanes : List Nat) (k : Nat) : Bool := (lanes.filter (fun l => l / 32 = k)).length = 32

/-- Whether lanes, some perhaps twice, cover codeword `k` whole. -/
def coversAll (lanes : List Nat) (k : Nat) : Bool := (List.range 32).all (fun i => lanes.contains (32 * k + i))

/-- The bytes with a WRITE's enabled bytes stored. -/
def storeLanes (bytes : List Byte) (r : BReq) : List Byte :=
  (enabledLanes r).foldl (fun bs l => setAt bs l (r.data.getD (l - r.addr % 64) 0)) bytes

/-- The value an atomic operation stores (R71); `none` when a CAS stores nothing. -/
def atomicResult (k : AtomicKind) (w n a b : Nat) : Option Nat :=
  match k with
  | .fadd => some ((n + a) % 2 ^ w)
  | .fand => some (n &&& a)
  | .for_ => some (n ||| a)
  | .fxor => some (n ^^^ a)
  | .swap => some a
  | .cas => if n = a then some b else none
  | .fmins => some (if toSigned w a < toSigned w n then a else n)
  | .fminu => some (if a < n then a else n)
  | .fmaxs => some (if toSigned w n < toSigned w a then a else n)
  | .fmaxu => some (if n < a then a else n)

/-- What an atomic operation finds and does (R71–R77): its status, the line as read and as stored. -/
structure AtomicOutcome where
  status : Status
  view : LineView
  stored : Option (List Byte)
  deriving DecidableEq, Repr

/-- The outcome of an atomic operation on a line with two decoded codewords. -/
def atomicOn (d0 d1 : Decoded) (k : AtomicKind) (r : BReq) : AtomicOutcome :=
  let v := viewOf d0 d1
  let lo := r.addr % 64
  let st : Status := if v.poison then .poison else if v.unc0 || v.unc1 then .ue else .ok
  let res := if st = .ok then
      atomicResult k (8 * r.len) (leNat (sliceBytes v.bytes lo r.len)) (leNat (sliceBytes r.data 0 r.len))
        (leNat (sliceBytes r.data r.len r.len))
    else none
  { status := st, view := v, stored := res.map (fun n => overlay v.bytes lo (leBytes r.len n)) }

/-- The decoded codewords of the line of an access (R44). -/
def lineCodewords (s : State) (b addr : Nat) : Decoded × Decoded :=
  let line := bankLine s.variant addr
  let unit := physUnit s b line
  let pline := physLine s unit line
  (decodeCw (readCw s unit pline 0), decodeCw (readCw s unit pline 1))

/-! ### Presentation -/

/-- Whether a request is an access of the device's own, with a code of its own: a scrub visit 0xE0, a racking copy 0xE2, a remap copy
0xE3, a line of a resynchronisation 0xE4 (the last is the model's number). -/
def isCopy (r : BReq) : Bool := 0xE0 ≤ r.code

/-- Whether a request has spent its 4 cycles of the bank-queue stage (R54). -/
def reachedArbiter (s : State) (r : BReq) : Bool := r.entered + 4 ≤ s.time

/-- Whether a request is a change of mirrored state that waits for UTAGs (R332). An ACC may send two units; lines of the cellar record are not forwarded (R418); a WRITE with no enabled byte
and a CAS that stores nothing change nothing (R47, R74). -/
def changeBlocked (s : State) (r : BReq) : Bool :=
  let line := mirroredAddr s r.addr && pairBlocked s (linePort s r.addr)
  if r.who = .pairFwd || isCellar s r.who r.uid then false
  else if isCopy r then r.code = 0xE4 && pairBlocked s (linePort s r.addr)
  else
    match r.op with
    | .write => line && !(enabledLanes r).isEmpty
    | .atomic k =>
      line && (let d := lineCodewords s (bankIndex s.variant r.addr) r.addr
               (atomicOn d.1 d.2 k r).stored.isSome)
    | .acc => line || pairBlocked s (storePort s) ||
        (mirroredAddr s r.addr && linePort s r.addr = storePort s && pairBlockedBy s (storePort s) 2)
    | _ => false

/-- The requests of one queue, oldest first, that have no older request of the queue to their line (R53). -/
def firstPerLine : List BReq → List BReq
  | [] => []
  | r :: rs => r :: (firstPerLine rs).filter (fun x => lineBase x.addr != lineBase r.addr)

/-- The requests of a requester's queue at a bank, oldest first. -/
def queueAt (k : Bank) (id : Nat) : List BReq := k.queue.filter (fun r => whoId r.who = id)

/-- Whether a destructive test with EMPTY = 1 runs on the unit that holds a line's data (R245). -/
def emptyTested (s : State) (b line : Nat) : Bool :=
  s.test.fgEmpty && s.test.fgMode = 2 && s.test.fgUnit = some (physUnit s b line)

/-- Whether an access is held: its line lies in a borrowed group, or the spare line that a remap copy writes does (R248). -/
def heldByGroup (s : State) (b : Nat) (r : BReq) : Bool :=
  lineBorrowed s b (bankLine s.variant r.addr) || (r.code = 0xE3 && spareBorrowed s b (bankLine s.variant r.addr))

/-- Whether a test keeps an access from its line: a group is borrowed, or the unit is under an EMPTY test (R245, R248). -/
def lineTested (s : State) (b : Nat) (r : BReq) : Bool :=
  heldByGroup s b r || emptyTested s b (bankLine s.variant r.addr)

/-- The request that a queue presents: the oldest that has reached the arbiter, whose line is not held, with no older request
of the queue to its line (R53). -/
def presented (s : State) (b id : Nat) : Option BReq :=
  (firstPerLine (queueAt (bankOf s b) id)).find? (fun r =>
    reachedArbiter s r && regionServes s (b / 8) && !lineTested s b r)

/-- The presented request that may be served: a change waiting for a UTAG stays presented and is not served (R332). -/
def servable (s : State) (b id : Nat) : Option BReq :=
  match presented s b id with
  | some r => if changeBlocked s r then none else some r
  | none => none

/-! ### Slot allocation -/

/-- ARB_SHARE code in effect for a region (R55). -/
def shareCode (s : State) (h : Nat) : Nat := getF s.power.shareEff ⟨2 * h, 2⟩

/-- Whether a frame position is reserved for the home port (table "Reserved frame positions"). -/
def reservedSlot (code pos : Nat) : Bool :=
  match code with
  | 0 => false
  | 1 => pos = 0
  | 2 => pos = 0 || pos = 2
  | _ => pos ≤ 2

/-- The rotation list L of a bank of region `h`, as requester identifiers (R56). -/
def rotationList (v : Variant) (shareEff weightEff : Word64) (h : Nat) : List Nat :=
  (List.range (numPorts v)).filter (fun p => p != h || getF shareEff ⟨2 * h, 2⟩ = 0) ++
  (List.range (numEngines v)).flatMap (fun e => List.replicate (getF weightEff ⟨2 * e, 2⟩ + 1) (8 + e)) ++
  [24] ++ List.replicate (getF weightEff ⟨32, 2⟩ + 1) 25 ++ [26]

/-- First entry at or after index `i` of L, cyclically, whose requester presents; with its index. -/
def nextInRotation (l : List Nat) (ptr : Nat) (presents : Nat → Bool) : Option (Nat × Nat) :=
  ((List.range l.length).find? (fun k => presents (l.getD ((ptr + k) % l.length) 31))).map
    (fun k => ((ptr + k) % l.length, l.getD ((ptr + k) % l.length) 31))

/-- The winner of a slot and the service pointer after it (R55–R57). `presents` tells which requesters present, `serves` which of these
may be served: a change that waits for a UTAG stays presented and is passed over (R332), and while one is presented no agent wins
(DESIGN CHOICE for the pointer, which stays; log entry 30). Identifiers 27 and 28 are the scrub and test agents. -/
def arbitrate (s : State) (b : Nat) (presents serves : Nat → Bool) : Option Nat × Nat :=
  let h := b / 8
  let ptr := (bankOf s b).ptr
  let l := rotationList s.variant s.power.shareEff s.power.weightEff h
  if reservedSlot (shareCode s h) (s.time % 4) && serves h then (some h, ptr)
  else
    match nextInRotation l ptr serves with
    | some (i, id) => (some id, i + 1)
    | none =>
      if serves h then (some h, 0)
      else if presents h || l.any presents then (none, ptr)
      else (if serves 27 then some 27 else if serves 28 then some 28 else none, 0)

/-- One WRITE on the line as it finds it (R47, R60, R224): the line after it, the status and CE. A write that stores leaves both codewords
encoded anew, so a later write of the group meets a clean line. -/
def writeOn (v : LineView) (r : BReq) : LineView × Status × Bool :=
  let lanes := enabledLanes r
  if lanes.isEmpty then (v, .ok, false)
  else if lanes.length = 64 then
    ({ bytes := storeLanes v.bytes r, unc0 := false, unc1 := false, poison := false, ce0 := false, ce1 := false }, .ok, false)
  else if v.poison then (v, .poison, false)
  else if (v.unc0 && !coversCw lanes 0) || (v.unc1 && !coversCw lanes 1) then (v, .ue, false)
  else
    ({ bytes := storeLanes v.bytes r, unc0 := false, unc1 := false, poison := false, ce0 := false, ce1 := false }, .ok,
      (v.ce0 && lanes.any (fun l => l < 32)) || (v.ce1 && lanes.any (fun l => 32 ≤ l)))

/-- The answer of one member of a group. -/
structure Answer where
  req : BReq
  status : Status
  ce : Bool
  sup : Bool
  data : List Byte
  stored : Bool
  deriving DecidableEq, Repr

/-- A READ or RDCV on the line as it stood before the group (R60, R224, R102). -/
def readOn (v : LineView) (r : BReq) : Answer :=
  let lo := r.addr % 64
  let st : Status := if v.poison then .poison
    else if (v.unc0 && touchesCw lo r.len 0) || (v.unc1 && touchesCw lo r.len 1) then .ue else .ok
  let raw := sliceBytes v.bytes lo r.len
  { req := r, status := st, sup := false, stored := false,
    ce := st = .ok && ((v.ce0 && touchesCw lo r.len 0) || (v.ce1 && touchesCw lo r.len 1)),
    data := if st = .ok then (if r.op = .rdcv then rdcvRange (toSigned 12 r.vscale) (r.len / 16) raw else raw) else [] }

/-- Apply the writes of a group in group order; reads are answered from the line before the group (R60). -/
def groupOn (v0 : LineView) : LineView → List BReq → LineView × List Answer
  | v, [] => (v, [])
  | v, r :: rs =>
    if r.op = .write then
      let w := writeOn v r
      let t := groupOn v0 w.1 rs
      (t.1, { req := r, status := w.2.1, ce := w.2.2, sup := false, data := [],
              stored := w.2.1 = .ok && !(enabledLanes r).isEmpty } :: t.2)
    else
      let t := groupOn v0 v rs
      (t.1, readOn v0 r :: t.2)

/-- SUP (R61): every enabled byte of a stored write is overwritten by later storing writes of the group. -/
def markSup : List Answer → List Answer
  | [] => []
  | a :: as =>
    let later := (as.filter (fun x => x.stored)).flatMap (fun x => enabledLanes x.req)
    { a with sup := a.stored && (enabledLanes a.req).all (fun l => later.contains l) } :: markSup as

/-- Whether two writes of a group enable a byte in common (R62). -/
def collides : List BReq → Bool
  | [] => false
  | r :: rs =>
    (r.op = .write && rs.any (fun x => x.op = .write && (enabledLanes x).any (fun l => (enabledLanes r).contains l))) ||
    collides rs

/-- The first member in group order whose requested bytes lie in a codeword, or the first member (R228). -/
def memberOf (ms : List BReq) (k : Nat) : Option BReq :=
  match ms.find? (fun r => if r.op = .write then (enabledLanes r).any (fun l => l / 32 = k) else touchesCw (r.addr % 64) r.len k) with
  | some r => some r
  | none => ms.head?

/-- The findings of a decoded access by a group (R225). `stored` tells of which codewords corrected data was stored. -/
def findingsOf (d0 d1 : Decoded) (ms : List BReq) (stored : Nat → Bool) : List Finding :=
  let one (k : Nat) (d : Decoded) : List Finding :=
    let who := (memberOf ms k).map (fun r => r.who)
    let src := (who.map whoId).getD 0
    let slot := (who.map whoSlot).getD 0
    match d.outcome with
    | .corrected => [{ cw := k, dec := d, kind := 1, src := src, slot := slot, writtenBack := stored k }]
    | .uncorrectable => [{ cw := k, dec := d, kind := 2, src := src, slot := slot, writtenBack := false }]
    | _ => []
  one 0 d0 ++ one 1 d1

/-! ### Atomic operations and accumulates on a line -/

/-- A counter change of a vat by an ACC (R105–R107), saturating. -/
def vatNote (s : State) (n : Nat) (c : AccCounts) : State :=
  let s := if c.loss = 0 then s else addSat s (R_VAT_LOSS n) VAT_LOSS_LOSS c.loss
  let s := if c.nonfinite = 0 then s else addSat s (R_VAT_EVENTS n) VAT_EVENTS_NONFINITE c.nonfinite
  if c.ovf then wrB s (R_VAT_FLAGS n) VAT_FLAGS_OVF true else s

/-! ### Service -/

/-- The opcode under which the trace enters an access: the units of the partner are applied as WRITE, and its HEAL_REQ reads (R413). -/
def traceOpcode (r : BReq) : Nat := if r.who = .pairFwd then (if r.op = .write then 0x02 else 0x01) else r.code

/-- The first data bytes that the trace shows of a served member (R414): those written, or those returned. -/
def traceData (a : Answer) : List Byte := if a.req.op = .write then a.req.data else a.data

/-- What is entered for one served member: its answer, its trace entry with `data`, its sampler points; `waits` as for answerPart. -/
def answerMember (s : State) (b gsize gpos rot : Nat) (a : Answer) (data : List Byte) (waits : Nat) : State :=
  let r := a.req
  let s := trace s { time := s.time, addr := r.addr, req := whoId r.who, slot := whoSlot r.who, half2 := r.half = 1, opcode := traceOpcode r,
                     len := r.len, status := a.status, ce := a.ce, sup := a.sup, unit := b, gsize := gsize, gpos := gpos,
                     rot := rot, tag := r.tag, cls := traceClass r.op, dest := 0,
                     data := data }
  let s := samplePoint s r.who r.uid 0 b gsize gpos
  answerPart s r.who r.uid r.half a.status a.ce a.sup a.data waits

/-- The lines that answers UE or POISON name are healed (R346); what the partner itself asked for is not. -/
def healAnswers (s : State) (as : List Answer) : State :=
  as.foldl (fun s a => if (a.status = .ue || a.status = .poison) && a.req.who != .pairFwd then healLine s a.req.addr else s) s

/-- Refill a bank's queues from the staging: a place that frees is taken by the oldest held request in the next cycle (R54). -/
def refill (s : State) (b : Nat) : State :=
  let k := bankOf s b
  let take (acc : List BReq × List BReq) (r : BReq) : List BReq × List BReq :=
    if (acc.1.filter (fun x => whoId x.who = whoId r.who)).length < 8 &&
        !acc.2.any (fun x => whoId x.who = whoId r.who) then
      (acc.1 ++ [{ r with entered := s.time + 1 }], acc.2)
    else (acc.1, acc.2 ++ [r])
  let res := k.staging.foldl take (k.queue, [])
  setBank s b { k with queue := res.1, staging := res.2 }

/-- A request reaches its bank: it enters its requester's queue, or is held while that queue holds 8 (R54). -/
def enterBank (s : State) (r : BReq) : State :=
  let b := bankIndex s.variant r.addr
  let s := touchRegion s (b / 8)
  let k := bankOf s b
  if (queueAt k (whoId r.who)).length < 8 && !k.staging.any (fun x => whoId x.who = whoId r.who) then
    setBank s b { k with queue := k.queue ++ [{ r with entered := s.time }] }
  else setBank s b { k with staging := k.staging ++ [r] }

/-! ### Received units (R333) -/

/-- The operation of a received unit at a store. -/
def rxStoreOp (u : RxUnit) (kind : StoreKind) (n : Nat) (data : List Byte) : StoreOp :=
  { uid := u.num, who := .pairFwd, writer := .pairFwd, priv := true, kind := kind, effect := true, n := n, off := 0, len := 64,
    mask := BitVec.allOnes 64, data := data, value := 0, code := 2, tag := 0, entered := 0 }

/-- A full-line write, or the read of a heal, of the pair forwarder at a bank. -/
def pairLine (s : State) (uid addr code : Nat) (op : Op) (data : List Byte) : State :=
  enterBank s { uid := uid, half := 0, who := .pairFwd, op := op, code := code, addr := addr, len := 64, mask := BitVec.allOnes 64,
                data := data, opfmt := 0, tally := false, vat := none, vatGen := 0, vop := 0, vscale := 0, entered := s.time,
                setAside := none, tag := 0 }

/-- The whole entry of a VAT unit is applied, and entered in the trace as a WRITE at the entry (R333, R413). -/
def putVat (s : State) (n : Nat) (entry : List Byte) : State :=
  let s := trace s { time := s.time, addr := 0xFF800000 + R_VAT_CTL n, req := whoId .pairFwd, slot := 0, half2 := false, opcode := 0x02, len := 64,
                     status := .ok, ce := false, sup := false, unit := 66, gsize := 1, gpos := 0, rot := 0, tag := 0, data := entry,
                     cls := 1, dest := 3 }
  (List.range 8).foldl (fun s i => wr s (R_VAT_CTL n + 8 * i) (w64 (leNat (sliceBytes entry (8 * i) 8)))) s

/-- The steps in which a received unit is applied. -/
def rxSteps : RxBody → Nat
  | .lines ls => ls.length
  | .vat _ _ => 0
  | _ => 1

/-- A received unit begins to be applied, as requester 25: its lines enter their banks, its operation the store; a vat entry is written, and
the line of a HEAL_REQ is read. -/
def rxBegin (s : State) (u : RxUnit) : State :=
  match u.body with
  | .lines ls => ls.foldl (fun s x => pairLine s u.num x.1 0xA0 .write x.2) s
  | .sem n words => semEnter s (rxStoreOp u .semUnit n words)
  | .mbx n _ _ => mbxEnter s (rxStoreOp u .mbxUnit n [])
  | .vat n entry => putVat s n entry
  | .heal addr => pairLine s u.num addr 0xA6 .read []

/-- The oldest unit of a port, when it is not begun: a port's units are applied in arrival order. -/
def rxNext (s : State) (p : Nat) : Option RxUnit :=
  match s.pair.rxUnits.find? (fun u => u.port = p) with
  | some u => if u.begun then none else some u
  | none => none

/-- Replace a received unit. -/
def rxMap (s : State) (num : Nat) (f : RxUnit → RxUnit) : State :=
  { s with pair := { s.pair with rxUnits := s.pair.rxUnits.map (fun u => if u.num = num then f u else u) } }

/-- A received unit is committed: it is accepted (R333). A HEAL_REQ changes nothing, and its answer is HEAL_DATA (R346). -/
def rxAccept (s : State) (u : RxUnit) : State :=
  let s := { s with pair := { s.pair with rxUnits := s.pair.rxUnits.filter (fun x => x.num != u.num) } }
  match u.body with
  | .heal _ => s
  | _ => sendOn s u.port 1 (leBytes 1 0xA5 ++ leBytes 2 u.utag ++ leBytes 13 0)

/-- The next units of a port begin, until one takes steps of its own; `n` bounds their number. -/
def rxRun (s : State) (p : Nat) : Nat → State
  | 0 => s
  | n + 1 =>
    match rxNext s p with
    | none => s
    | some u =>
      let s := rxMap (rxBegin s u) u.num (fun x => { x with begun := true, left := rxSteps u.body })
      if rxSteps u.body = 0 then rxRun (rxAccept s u) p n else s

/-- The units of a port go on. -/
def rxAdvance (s : State) (p : Nat) : State := rxRun s p s.pair.rxUnits.length

/-- A unit is received (R333). -/
def rxReceive (s : State) (p utag : Nat) (body : RxBody) : State :=
  rxAdvance { s with nextUid := s.nextUid + 1,
                     pair := { s.pair with rxUnits := s.pair.rxUnits ++ [⟨s.nextUid, p, utag, body, false, 0⟩] } } p

/-- A step of a received unit is committed (R333): at the last one the unit is accepted, and the next of its port begins. -/
def rxCommitted (s : State) (num : Nat) : State :=
  match s.pair.rxUnits.find? (fun u => u.num = num) with
  | none => s
  | some u =>
    if u.left ≤ 1 then rxAdvance (rxAccept s u) u.port
    else rxMap s num (fun x => { x with left := x.left - 1 })

/-- HEAL_DATA (table "Pair units"). -/
def healDataBytes (utag addr : Nat) (line : Option (List Byte)) : List Byte :=
  leBytes 1 0xA7 ++ leBytes 1 (b01 line.isSome) ++ leBytes 2 utag ++ leBytes 4 (lineBase addr) ++ leBytes 8 0 ++ line.getD []

/-- Whether this device answers a HEAL_REQ: as the partner of a device in MIRRORED (R337, R346); it may be in SYNCING itself, while the unit
that ends it is on its way. -/
def healAnswered (s : State) : Bool := pairState s = PS_MIRRORED || pairState s = PS_SYNCING

/-- The line of a HEAL_REQ has been read: HEAL_DATA leaves (R346), and the next unit of its port begins. -/
def healAnswer (s : State) (a : Answer) : State :=
  match s.pair.rxUnits.find? (fun u => u.num = a.req.uid) with
  | none => s
  | some u =>
    let line := if a.status = .ok then some (sliceBytes a.data 0 64) else none
    rxCommitted (if healAnswered s then sendOn s u.port 1 (healDataBytes u.utag a.req.addr line) else s) u.num

/-- What follows the answer of a pair unit's access. -/
def pairMember (s : State) (a : Answer) : State :=
  if a.req.who = .pairFwd then (if a.req.code = 0xA6 then healAnswer s a else rxCommitted s a.req.uid) else s

/-- A line of the cellar record stored in a mirrored region marks its segment dirty (R339, R418). -/
def cellarMark (s : State) (addr : Nat) (as : List Answer) : State :=
  if mirroredAddr s addr && as.any (fun a => a.stored && isCellar s a.req.who a.req.uid) then markSegment s (segmentOf addr) else s

/-- Serve a group of plain reads and writes in group order (R58, R60–R62, R224). -/
def serveGroup (s : State) (b : Nat) (ms : List BReq) : State :=
  let addr := (ms.head?.map (fun r => r.addr)).getD 0
  let line := bankLine s.variant addr
  let unit := physUnit s b line
  let pline := physLine s unit line
  let d0 := decodeCw (readCw s unit pline 0)
  let d1 := decodeCw (readCw s unit pline 1)
  let decoded := ms.any (fun r => !fullLine r)
  let blank : LineView := { bytes := List.replicate 64 0, unc0 := false, unc1 := false, poison := false, ce0 := false, ce1 := false }
  let v0 := if decoded then viewOf d0 d1 else blank
  let g := groupOn v0 v0 ms
  let as := markSup g.2
  let stored := as.any (fun a => a.stored)
  let s := bumpFree s unit
  let writer := ((as.filter (fun a => a.stored)).getLast?.map (fun a => a.req.who)).getD .test
  let s := if stored then bankWriteLine s writer unit pline addr g.1.bytes else s
  let lanes := (as.filter (fun a => a.stored)).flatMap (fun a => enabledLanes a.req)
  let s := if decoded then bankFindings s unit pline addr (65536 ≤ pline) (findingsOf d0 d1 ms (fun k => stored && !coversAll lanes k)) else s
  let n := ms.length
  let rot := (s.time + b) % 32
  let s := if 2 ≤ (ms.filter (fun r => r.op != .write)).length then countSat s 0x10 (R_ARB_BANKSTAT b) ARB_BANKSTAT_COMBINED 1 else s
  let s := if collides ms then countSat s 0x10 (R_ARB_BANKSTAT b) ARB_BANKSTAT_COLLISIONS 1 else s
  let s := if 2 ≤ n then occur s (evGroups b) else s
  let s := (as.zipIdx).foldl (fun s x => answerMember s b n x.2 rot x.1 (traceData x.1) (b01 (x.1.stored))) s
  let releases := (as.filter (fun a => a.stored)).map (fun a => Deferred.release a.req.who a.req.uid)
  let s := if stored then
      (if as.any (fun a => a.stored && a.req.who != .pairFwd && !isCellar s a.req.who a.req.uid) then
         forwardLine s addr g.1.bytes releases
       else runAllDeferred s releases)
    else s
  healAnswers (as.foldl pairMember (cellarMark s addr as)) as

/-- A CAS of a port has stored nothing: it is complete when it is answered (R77). -/
def markNoStore (s : State) (who : Who) (uid : Nat) : State :=
  match who with
  | .port _ _ => mapTxn s uid (fun t => { t with noStore := true })
  | _ => s

/-- Serve an atomic operation alone (R71–R77). -/
def serveAtomic (s : State) (b : Nat) (k : AtomicKind) (r : BReq) : State :=
  let line := bankLine s.variant r.addr
  let unit := physUnit s b line
  let pline := physLine s unit line
  let d := lineCodewords s b r.addr
  let o := atomicOn d.1 d.2 k r
  let lo := r.addr % 64
  let s := bumpFree s unit
  let s := match o.stored with
    | some bs => bankWriteLine s r.who unit pline r.addr bs
    | none => s
  let s := bankFindings s unit pline r.addr (65536 ≤ pline) (findingsOf d.1 d.2 [r] (fun _ => o.stored.isSome))
  let a : Answer := { req := r, status := o.status, sup := false, stored := o.stored.isSome,
                      ce := o.status = .ok && (if lo < 32 then o.view.ce0 else o.view.ce1),
                      data := if o.status = .ok then sliceBytes o.view.bytes lo r.len else [] }
  let s := if k = .cas && o.stored.isNone then markNoStore s r.who r.uid else s
  let s := answerMember s b 1 0 ((s.time + b) % 32) a a.data (b01 o.stored.isSome)
  match o.stored with
  | some bs => forwardLine s r.addr bs [.release r.who r.uid]
  | none => healAnswers s [a]

/-- Serve an ACC alone (R95–R107); the next slot of the bank is reserved (R99), and a tallied one waits for its tally step (R110).
A change of the vat's counters goes to the partner too, and the answer waits for its acceptance (R328, R334). -/
def serveAcc (s : State) (b : Nat) (r : BReq) : State :=
  let line := bankLine s.variant r.addr
  let unit := physUnit s b line
  let pline := physLine s unit line
  let d0 := decodeCw (readCw s unit pline 0)
  let d1 := decodeCw (readCw s unit pline 1)
  let v := viewOf d0 d1
  let lo := r.addr % 64
  let st : Status := if v.poison then .poison else if v.unc0 || v.unc1 then .ue else .ok
  let ok := st = .ok
  let c := accRange r.opfmt r.vop (toSigned 12 r.vscale) (r.len / storedSize r.opfmt) (sliceBytes v.bytes lo r.len) r.data
    ⟨0, 0, false⟩
  let line' := overlay v.bytes lo c.1
  let s := bumpFree s unit
  let s := setBank s b { bankOf s b with wbCycle := some (s.time + 1) }
  let s := if ok then bankWriteLine s r.who unit pline r.addr line' else s
  let s := bankFindings s unit pline r.addr (65536 ≤ pline) (findingsOf d0 d1 [r] (fun _ => ok))
  let n := r.vat.getD 0
  let noted := ok && (c.2.loss != 0 || c.2.nonfinite != 0 || c.2.ovf)
  let s := if noted then vatNote s n c.2 else s
  let s := occur s (evAccs b)
  let tallied := ok && r.tally
  let a : Answer := { req := r, status := st, sup := false, stored := ok, data := [],
                      ce := ok && ((v.ce0 && touchesCw lo r.len 0) || (v.ce1 && touchesCw lo r.len 1)) }
  let s := answerMember s b 1 0 ((s.time + b) % 32) a (sliceBytes line' lo r.len) (b01 ok + b01 noted + b01 tallied)
  let s := if tallied then { s with tallies := s.tallies ++ [⟨s.time, b, n, r.vatGen, r.uid, r.who⟩] } else s
  let s := if noted then forwardVat s n [.release r.who r.uid] else s
  if ok then forwardLine s r.addr line' [.release r.who r.uid] else healAnswers s [a]

/-- HEAL_DATA (R346): stored as a full-line write only if the line is still uncorrectable or poisoned in this slot. The decode that tells is
neither counted nor logged (DESIGN CHOICE, log entry 86). -/
def serveHeal (s : State) (b : Nat) (r : BReq) : State :=
  let line := bankLine s.variant r.addr
  let unit := physUnit s b line
  let pline := physLine s unit line
  let v := viewOf (decodeCw (readCw s unit pline 0)) (decodeCw (readCw s unit pline 1))
  let stores := v.poison || v.unc0 || v.unc1
  let s := if stores then
      addSat (bankWriteLine s .pairFwd unit pline r.addr (sliceBytes r.data 0 64)) R_PR_COUNTS PR_COUNTS_HEALS 1
    else s
  let a : Answer := { req := r, status := .ok, sup := false, stored := stores, ce := false, data := [] }
  answerMember s b 1 0 ((s.time + b) % 32) a (if stores then r.data else []) 0

/-- Whether a request may join a group: a plain READ, RDCV or WRITE (R58). The store of HEAL_DATA, which is made only if the line is still
bad, and the device's own copies form groups of their own (DESIGN CHOICE for HEAL_DATA and resynchronisation, log entry 30). -/
def groupable (r : BReq) : Bool := (r.op = .read || r.op = .rdcv || r.op = .write) && r.code != 0xA7 && !isCopy r

/-- The group of a winner, in group order: ascending (ID − ROT) mod 32 (R58, R59). -/
def groupOf (s : State) (b : Nat) (w : BReq) : List BReq :=
  if groupable w then
    let rot := (s.time + b) % 32
    ((List.range 32).map (fun k => (rot + k) % 32)).filterMap (fun id =>
      match servable s b id with
      | some r => if groupable r && lineBase r.addr = lineBase w.addr then some r else none
      | none => none)
  else [w]

/-- An access of the device's own is served (R173, R231, R235, R344). -/
def serveCopy (s : State) (b : Nat) (r : BReq) : State :=
  match r.who with
  | .scrub => scrubAdvance (scrubLine s b (bankLine s.variant r.addr))
  | .sc => remapServe s b (bankLine s.variant r.addr)
  | .engine e _ => if r.code = 0xE2 then rackServe s e b (bankLine s.variant r.addr) else syncServe s e b r.addr
  | _ => s

/-- Serve the winner's group and take its members off their queues. -/
def serveWinner (s : State) (b : Nat) (w : BReq) : State :=
  let ms := groupOf s b w
  let gone (r : BReq) : Bool := ms.any (fun m => m.uid = r.uid && m.half = r.half && m.who = r.who)
  let s := setBank s b { bankOf s b with queue := (bankOf s b).queue.filter (fun r => !gone r) }
  let s := occur s (evSlots b)
  let s := match w.op with
    | .atomic k => serveAtomic s b k w
    | .acc => serveAcc s b w
    | _ => if isCopy w then serveCopy s b w else if w.code = 0xA7 then serveHeal s b w else serveGroup s b ms
  regionDrained (touchRegion (refill s b) (b / 8)) (b / 8)

/-! ### Holds and tests that answer BUSY -/

/-- Take a request off its bank's queue. -/
def dropBReq (s : State) (b : Nat) (r : BReq) : State :=
  let k := bankOf s b
  refill (setBank s b { k with queue := k.queue.filter (fun x => !(x.uid = r.uid && x.half = r.half && x.who = r.who)) }) b

/-- Change a request of a bank's queue. -/
def mapBReq (s : State) (b : Nat) (r : BReq) (f : BReq → BReq) : State :=
  let k := bankOf s b
  setBank s b { k with queue := k.queue.map (fun x => if x.uid = r.uid && x.half = r.half && x.who = r.who then f x else x) }

/-- Whether an access waits for a test rather than be answered BUSY: it has no requester that could be answered, the pair forwarder or a
copy (DESIGN CHOICE, log entry 20). -/
def waitsForTest (r : BReq) : Bool := r.who = .pairFwd || (isCopy r && r.who != .scrub)

/-- A request is answered BUSY without effect, and leaves the bank's queue; a scrub visit is skipped (R231). -/
def answerBusy (s : State) (b : Nat) (r : BReq) : State :=
  if r.who = .scrub then scrubSkip (dropBReq s b r)
  else dropBReq (answerPart s r.who r.uid r.half .busy false false [] 0) b r

/-- The held requests of a queue that come before the one it presents (R53). -/
def heldBefore (s : State) (b : Nat) : List BReq → List BReq
  | [] => []
  | r :: rs => if reachedArbiter s r && heldByGroup s b r then r :: heldBefore s b rs else []

/-- The accesses that would be presented in this cycle for the first time but for a borrowed group (R248). -/
def newlyHeld (s : State) (b : Nat) : List BReq :=
  if regionServes s (b / 8) then
    ((List.range 32).flatMap (fun id => heldBefore s b (firstPerLine (queueAt (bankOf s b) id)))).filter (fun r => r.setAside.isNone)
  else []

/-- Set an access aside (R248) and let the test yield to it (R249). -/
def setAside (s : State) (b : Nat) (r : BReq) : State :=
  let s := mapBReq s b r (fun x => { x with setAside := some s.time })
  let s := occur (countSat s 0x12 R_TST_HOLDS TST_HOLDS_HELD 1) EV_HELD
  let s := sampleHeld s r.who r.uid
  if rdB s R_TST_BG TST_BG_YIELD || r.who = .sc || r.who = .pairFwd then yieldGroup s b else s

/-- The holds of a cycle: accesses to a unit under an EMPTY test answer BUSY at once, others to a borrowed group are set aside. -/
def settleHolds (s : State) (b : Nat) : State :=
  let busy := ((bankOf s b).queue).filter (fun r =>
    !waitsForTest r && reachedArbiter s r && regionServes s (b / 8) && emptyTested s b (bankLine s.variant r.addr))
  let s := busy.foldl (fun s r => answerBusy s b r) s
  (newlyHeld s b).foldl (fun s r => setAside s b r) s

/-- Whether a bank cycle of this bank is still to come in this core cycle. -/
def bankCycleFree (s : State) (b : Nat) : Bool :=
  coreOn s && bankPresent s.variant b && (bankOf s b).lastSlot != some s.time

/-- Whether anybody but the scrub and test agents presents a request (R57, R247). -/
def anyPresents (s : State) (b : Nat) : Bool := (List.range 27).any (fun id => (presented s b id).isSome)

/-- Whether a request is presented that the winner's group does not serve (R404, group 2). -/
def leftWaiting (s : State) (b : Nat) (w : BReq) : Bool :=
  (List.range 27).any (fun id => (presented s b id).any (fun r => !(groupOf s b w).contains r))

/-- The bank cycle is used; consecutive idle slots are counted for R247 and waiting requests for R404. -/
def closeSlot (s : State) (b : Nat) (busy waiting : Bool) : State :=
  let k := bankOf s b
  let s := setBank s b { k with lastSlot := some s.time, idleRun := if busy then 0 else k.idleRun + 1 }
  if waiting then occur s (evWaiting b) else s

/-- The winner of a bank's cycle among its queues and the test agent, and the service pointer after it. -/
def slotWinner (s : State) (b : Nat) : Option Nat × Nat :=
  arbitrate s b (fun id => (presented s b id).isSome) (fun id =>
    if id = 28 then (match (bankOf s b).borrow with | some r => runReady s.time r | none => false) else (servable s b id).isSome)

/-- One bank cycle (R14, R44, R53–R64, R99): holds are settled, the arbiter picks a winner, its group is served. -/
def bankCycle (s0 : State) (b : Nat) : State :=
  let s := settleHolds s0 b
  if (bankOf s b).wbCycle = some s.time then closeSlot s b (anyPresents s b) (anyPresents s b)
  else
    let busy := anyPresents s b
    let (win, ptr) := slotWinner s b
    let s := setBank s b { bankOf s b with ptr := ptr }
    match win with
    | none => closeSlot s b busy busy
    | some 28 =>
      match (bankOf s b).borrow with
      | some bo => closeSlot (testSlot s b bo) b busy busy
      | none => closeSlot s b busy busy
    | some id =>
      match servable s b id with
      | some w => closeSlot (serveWinner s b w) b busy (leftWaiting s b w)
      | none => closeSlot s b busy busy

/-- The request of an own access to a line of bank `b`, in the queue of its requester (R52). -/
def copyReq (s : State) (who : Who) (code addr : Nat) : BReq :=
  { uid := s.nextUid, half := 0, who := who, op := .read, code := code, addr := addr, len := 64, mask := BitVec.allOnes 64, data := [],
    opfmt := 0, tally := false, vat := none, vatGen := 0, vop := 0, vscale := 0, entered := s.time, setAside := none, tag := 0 }

/-- The own access of a requester with a code that waits at a bank. -/
def waitingCopy (s : State) (b : Nat) (who : Who) (code : Nat) : Option BReq :=
  let k := bankOf s b
  (k.queue ++ k.staging).find? (fun r => r.who = who && r.code = code)

/-- Whether a bank's cycle would go to an own access now (R56, R57). -/
def copyWins (s : State) (b : Nat) (r : BReq) : Bool :=
  bankCycleFree s b && (bankOf s b).wbCycle != some s.time && (slotWinner s b).1 = some (whoId r.who) &&
  servable s b (whoId r.who) = some r

/-- An own access is made: it enters its bank's queue, or, when it waits there and the bank's cycle goes to it, that cycle takes place. -/
def copyAccess (s : State) (b : Nat) (who : Who) (code addr : Nat) : State :=
  match waitingCopy s b who code with
  | some r => if copyWins s b r then bankCycle s b else s
  | none => enterBank { s with nextUid := s.nextUid + 1 } (copyReq s who code addr)

/-- An access has been held for 4,800 cycles: it is counted and answered BUSY; one without a requester to answer is presented again, and
held anew (DESIGN CHOICE, log entry 20). -/
def holdEnds (s : State) (b : Nat) (r : BReq) : State :=
  let s := countSat s 0x12 R_TST_HOLDS TST_HOLDS_BUSY 1
  if waitsForTest r then mapBReq s b r (fun x => { x with setAside := none }) else answerBusy s b r

/-- HOLD_TIMEOUT (R248): accesses of a bank set aside for 4,800 cycles. -/
def execHoldTimeout (bank : BitVec 6) (s : State) : Host.Outcome State Fault Refusal :=
  let b := bank.toNat
  let late := (bankOf s b).queue.filter (fun r => match r.setAside with | some t => t + 4800 ≤ s.time | none => false)
  .next (late.foldl (fun s r => holdEnds s b r) s)

/-- ARBITRATION_SETTING_APPLY (R55, R439): at the first frame position 0 after the write, the settings take effect, and the
service pointer of a bank whose list L changes is reset. A write served in this cycle waits for the next frame. -/
def execArbitrationSettingApply (s : State) : Host.Outcome State Fault Refusal :=
  match (s.power.arbPend.filter (fun a => a.1 < s.time)).getLast? with
  | none => .next s
  | some (_, share, weight) =>
    if s.time % 4 = 0 then
      let changed (b : Nat) : Bool :=
        rotationList s.variant share weight (b / 8) != rotationList s.variant s.power.shareEff s.power.weightEff (b / 8)
      let s' := (List.range 64).foldl (fun s b => if changed b then setBank s b { bankOf s b with ptr := 0 } else s) s
      .next { s' with power := { s'.power with arbPend := s.power.arbPend.filter (fun a => !(a.1 < s.time)), shareEff := share,
                                               weightEff := weight } }
    else .next s

end Sys2Proof.Machine
end

