-- ==== Sys2Proof/Machine/Sem.lean ====
section
/-! DEFINITION. The semaphore store: its word and binding (R81, R86), order of service (R88), the eight operations (R80–R87, R90),
and the steps of a clear (R93). -/

namespace Sys2Proof.Machine

/-- HELD of a state word. -/
def semHeld (w : Nat) : Bool := bitOf w 63

/-- Bits [63:52] of a state word that a requester owns: HELD and the owner fields (R81, R82). -/
def ownerField (w : Who) : Nat :=
  match w with
  | .port p sl => 0x800 + p <<< 8 + sl <<< 6
  | .engine e _ => 0x800 + 0x20 + e
  | _ => 0x800 + 0x10

/-- Whether a requester is the owner of a held semaphore: the owner fields that apply to it name it (R81). A word with both EO and SO set,
which only a STATE write leaves, names nobody (DESIGN CHOICE, log entry 62). -/
def ownsSem (w : Nat) (who : Who) : Bool :=
  match who with
  | .port p sl => !bitOf w 57 && !bitOf w 56 && bitsOf w 62 60 = p && bitsOf w 59 58 = sl
  | .engine e _ => bitOf w 57 && !bitOf w 56 && bitsOf w 55 52 = e
  | .sc => bitOf w 56 && !bitOf w 57
  | _ => false

/-- The state word after a successful TRY (R83): HELD and owner set, HOLDS saturating. -/
def takenWord (w : Nat) (who : Who) : Nat :=
  ownerField who <<< 52 + (bitsOf w 47 16) <<< 16 + min 0xFFFF (w % 0x10000 + 1)

/-- The state word with HELD cleared. -/
def releasedWord (w : Nat) : Nat := w % 2 ^ 63

/-- Whether a requester has the rights of a privileged port or of the SC. -/
def isPrivileged (s : State) (who : Who) : Bool :=
  match who with
  | .port p _ => portPrivileged s p
  | .sc => true
  | _ => false

/-- The port whose rights a requester carries: its own, or that of the queue's owner (R135). -/
def rightsPort (s : State) (who : Who) : Option Nat :=
  match who with
  | .port p _ => some p
  | .engine e q => some (rdF s (R_Q_CFG e q) Q_CFG_PORT)
  | _ => none

/-- Whether an operation may bind a mailbox with NOTIFY (R86). -/
def mayNotify (s : State) (o : StoreOp) (m : Nat) : Bool :=
  match rightsPort s o.who with
  | some p => o.priv || m / 512 = p
  | none => true

/-- Whether an operation may force a release: that of a privileged port, as the grant stood when it was decoded (R398), or of the SC (R84). -/
def mayForce (o : StoreOp) : Bool :=
  match o.who with
  | .port _ _ => o.priv
  | .sc => true
  | _ => false

/-- Whether a state word names an absent owner: a port while EO and SO are 0, an engine while EO alone is 1 (R4, R81). -/
def namesAbsent (v : Variant) (w : Nat) : Bool :=
  if bitOf w 56 then false else if bitOf w 57 then decide (numEngines v ≤ bitsOf w 55 52) else decide (numPorts v ≤ bitsOf w 62 60)

/-- What an operation does to a semaphore: the new word and binding, the data returned, the status, whether the semaphore
becomes free, the doorbell value that it rings, and whether the release was forced. -/
structure SemEffect where
  word : Nat
  binding : Nat
  data : Nat
  status : Status
  freed : Bool
  rings : Option Nat
  forced : Bool
  deriving DecidableEq, Repr

/-- An operation that changes nothing. -/
def semNothing (w b data : Nat) (st : Status) : SemEffect :=
  { word := w, binding := b, data := data, status := st, freed := false, rings := none, forced := false }

/-- A release that clears HELD (R84, R87). -/
def semRelease (n w b : Nat) (forced : Bool) : SemEffect :=
  { word := releasedWord w, binding := b, data := 0, status := .ok, freed := true,
    rings := if bitOf b 63 then some (n + b01 forced <<< 16) else none, forced := forced }

/-- The operations of table "Semaphore operations" on a word `w` and binding `b` (R80–R87). -/
def semEffect (s : State) (o : StoreOp) (w b : Nat) : SemEffect :=
  match o.kind with
  | .semTry => if semHeld w then semNothing w b w .ok else { semNothing w b w .ok with word := takenWord w o.who }
  | .semState =>
    let v := o.value - bitsOf o.value 51 48 <<< 48
    if namesAbsent s.variant v then semNothing w b 0 .absent
    else { semNothing w b 0 .ok with word := v, freed := semHeld w && !semHeld v }
  | .semRelease =>
    if !o.effect then semNothing w b 0 .ok
    else if semHeld w then
      if ownsSem w o.who then semRelease o.n w b false
      else if mayForce o then semRelease o.n w b true
      else semNothing w b 0 .denied
    else if mayForce o then semNothing w b 0 .ok
    else semNothing w b 0 .denied
  | .semTicket =>
    if o.effect then
      { semNothing w b w .ok with word := w - bitsOf w 47 32 <<< 32 + ((bitsOf w 47 32 + 1) % 0x10000) <<< 32 }
    else semNothing w b 0 .ok
  | .semServe =>
    if o.effect then
      { semNothing w b 0 .ok with word := w - bitsOf w 31 16 <<< 16 + ((bitsOf w 31 16 + 1) % 0x10000) <<< 16 }
    else semNothing w b 0 .ok
  | .semPeek => semNothing w b (if o.effect then w else 0) .ok
  | .semNotifyRead => semNothing w b b .ok
  | .semNotifyWrite =>
    if numMailboxes s.variant ≤ o.value % 4096 then semNothing w b 0 .absent
    else if mayNotify s o (o.value % 4096) then
      { semNothing w b 0 .ok with binding := o.value % 4096 + bitsOf o.value 63 63 <<< 63 }
    else semNothing w b 0 .denied
  | _ => semNothing w b 0 .ok

/-- State word and binding of a decoded semaphore codeword. -/
def semWord (d : Decoded) : Nat := leNat (sliceBytes (cwData d.cw) 0 8)
/-- Notify binding. -/
def semBinding (d : Decoded) : Nat := leNat (sliceBytes (cwData d.cw) 8 8)
/-- Decode semaphore `n`. -/
def semDecode (s : State) (n : Nat) : Decoded := decodeStoreCw true (readCw s 66 n 0)
/-- Store semaphore `n`. -/
def semStore (s : State) (n w b : Nat) : State := writeCw s 66 n 0 (encodeCw (BitVec.ofNat 256 (w + b <<< 64)))

/-- Whether serving an operation changes its semaphore. -/
def semChanges (s : State) (o : StoreOp) : Bool :=
  let d := semDecode s o.n
  let x := semEffect s o (semWord d) (semBinding d)
  d.outcome != .uncorrectable && (x.word != semWord d || x.binding != semBinding d)

/-- Whether an operation is a unit of the partner's. -/
def isUnitOp (o : StoreOp) : Bool := o.kind = .semUnit || o.kind = .mbxUnit

/-- Whether the operation at the front of a queue must wait: a change for a UTAG (R332), a release for a place in the notify
queue (R87). -/
def semWaits (s : State) (o : StoreOp) : Bool :=
  (pairBlocked s (storePort s) && !isUnitOp o && (o.kind = .semCopy || semChanges s o)) ||
  (o.kind = .semRelease && o.effect && bitOf (semBinding (semDecode s o.n)) 63 &&
    8 ≤ (opsOf s.mbxq 29).length + (opsOf s.mbxStage 29).length)

/-- The operation that the store serves next: of the queues' oldest, the one of lowest key (ID − GLB_TIME) mod 32 (R88). -/
def semFront (s : State) : Option StoreOp :=
  (((List.range 32).map (fun k => (s.time + k) % 32)).filterMap (fun id =>
    match (opsOf s.semq id).head? with
    | some o => if semWaits s o then none else some o
    | none => none)).head?

/-- The counters of a TRY, a release and a refused release (R92). -/
def semCount (s : State) (o : StoreOp) (w : Nat) (x : SemEffect) : State :=
  match o.kind with
  | .semTry => if semHeld w then countSat s 0x14 R_SEM_TRYSTAT SEM_TRYSTAT_REFUSED 1 else countSat s 0x14 R_SEM_TRYSTAT SEM_TRYSTAT_TAKEN 1
  | .semRelease =>
    if x.status = .denied then countSat s 0x14 R_SEM_DENIED SEM_DENIED_COUNT 1
    else
      let s := if x.rings.isSome then countSat s 0x14 R_SEM_NOTIFIED SEM_NOTIFIED_COUNT 1 else s
      if x.forced then
        wr (countSat s 0x14 R_SEM_FORCED SEM_FORCED_COUNT 1) R_SEM_LAST_FORCED
          (w64 (o.n + whoId o.who <<< 16 + whoSlot o.who <<< 21 + (bitsOf w 62 52) <<< 32 + 1 <<< 63))
      else s
  | _ => s

/-- The trace entry of a store operation (R413, R414); `unit` 64 semaphore store, 65 mailbox store. -/
def traceStore (s : State) (o : StoreOp) (addr unit dest : Nat) (st : Status) (ce : Bool) (data : List Byte) : State :=
  trace s { time := s.time, addr := addr, req := whoId o.who, slot := whoSlot o.who, half2 := false, opcode := o.code, len := o.len, status := st,
            ce := ce, sup := false, unit := unit, gsize := 1, gpos := 0, rot := 0, tag := o.tag,
            data := if o.code = 1 then data else o.data, cls := if o.code = 1 then 0 else 1, dest := dest }

/-- Held operations take places that free in their queues (R88). -/
def semRefill (s : State) : State := s.semStage.foldl semEnter { s with semStage := [] }

/-- A SEM unit is applied (R333): the state word and the binding, in one store cycle; it produces no event. The trace enters a WRITE (R413). -/
def semUnitServe (s : State) (o : StoreOp) : State :=
  let s := traceStore s { o with len := 16 } (0xFE000000 + 64 * o.n) 64 1 .ok false []
  let s := semRefill { bumpFree s 66 with semq := s.semq.erase o, semServed := some s.time }
  rxCommitted (semStore s o.n (leNat (sliceBytes o.data 0 8)) (leNat (sliceBytes o.data 8 8))) o.uid

/-- Serve one operation of the semaphore store (R80, R88–R90). An accepted NOTIFY WRITE or STATE WRITE writes the codeword, and so a
correction back, even when it changes nothing (R226); only a change goes to the partner (R328). -/
def semServeOp (s : State) (o : StoreOp) : State :=
  let addr := 0xFE000000 + o.n * 64 + o.off
  let d := semDecode s o.n
  let s := occur (semRefill { bumpFree s 66 with semq := s.semq.erase o, semServed := some s.time }) EV_SEM_SERVED
  let s := samplePoint s o.who o.uid 1 0xFF 1 0
  let find (kind : Nat) (wb : Bool) (s : State) : State :=
    storeFinding s 66 o.n (0xFE000000 + o.n * 64) ⟨0, d, kind, whoId o.who, whoSlot o.who, wb⟩
  if d.outcome = .uncorrectable then
    let s := find 2 false s
    answerPart (traceStore s o addr 64 1 .ue false []) o.who o.uid 0 .ue false false [] 0
  else
    let w := semWord d
    let b := semBinding d
    let x := semEffect s o w b
    let changed := x.word != w || x.binding != b
    let stores := changed || ((o.kind = .semNotifyWrite || o.kind = .semState) && x.status = .ok)
    let ce := d.outcome = .corrected
    let s := if stores then semStore s o.n x.word x.binding else s
    let s := if ce then find 1 stores s else s
    let s := semCount s o w x
    let data := if o.code = 1 && x.status = .ok then leBytes 8 x.data else []
    let s := traceStore s o addr 64 1 x.status (ce && x.status = .ok) data
    let s := answerPart s o.who o.uid 0 x.status ce false data (b01 changed)
    if changed then
      pairForward s (storePort s) (semBytes o.n (leBytes 8 x.word ++ leBytes 8 x.binding)) none
        ([.release o.who o.uid] ++ (if x.freed then [.semFree o.n] else []) ++
          (match x.rings with | some v => [.sendDoorbell (b % 4096) v .notify o.who] | none => []))
    else s

/-- Serve the store's next operation when it is of this kind and the store has a cycle free (R88). -/
def semServeKind (s : State) (k : StoreKind) : State :=
  match semFront s with
  | some o => if coreOn s && s.semServed != some s.time && o.kind = k then semServeOp s o else s
  | none => s

/-- The copy of SYNCING reads a semaphore in a store cycle, and its unit enters the forward stream (R344); an uncorrectable codeword stops
the copy (R345). -/
def semCopyServe (s : State) (o : StoreOp) : State :=
  let addr := 0xFE000000 + o.n * 64
  let d := semDecode s o.n
  let s := semRefill { bumpFree s 66 with semq := s.semq.erase o, semServed := some s.time }
  let s := (readFinding 0 d (whoId o.who)).foldl (fun s f => storeFinding s 66 o.n addr f) s
  if !syncAtItem s o.uid then s
  else if d.outcome = .uncorrectable then syncStop s (whoId o.who - 8) 1 addr
  else syncNext (pairForward s (storePort s) (semBytes o.n ((cwData d.cw).take 16)) none [])

/-- A SEM unit, or a read of the copy, that stands first at the store takes a free store cycle: when it arrives, or at the end of a cycle (log
entry 19). -/
def semUnitTurn (s : State) : State :=
  match semFront s with
  | some o =>
    if coreOn s && s.semServed != some s.time then
      (match o.kind with
      | .semUnit => semUnitServe s o
      | .semCopy => semCopyServe s o
      | _ => s)
    else s
  | none => s

/-- TRY (R80, R83). -/
def execSemTry (s : State) : Host.Outcome State Fault Refusal := .next (semServeKind s .semTry)
/-- RELEASE (R84, R87). -/
def execSemRelease (s : State) : Host.Outcome State Fault Refusal := .next (semServeKind s .semRelease)
/-- TICKET (R85). -/
def execSemTicket (s : State) : Host.Outcome State Fault Refusal := .next (semServeKind s .semTicket)
/-- SERVE (R85). -/
def execSemServe (s : State) : Host.Outcome State Fault Refusal := .next (semServeKind s .semServe)
/-- PEEK (R80). -/
def execSemPeek (s : State) : Host.Outcome State Fault Refusal := .next (semServeKind s .semPeek)
/-- WRITE to STATE (R82). -/
def execStateWrite (s : State) : Host.Outcome State Fault Refusal := .next (semServeKind s .semState)
/-- READ of NOTIFY (R80). -/
def execNotifyRead (s : State) : Host.Outcome State Fault Refusal := .next (semServeKind s .semNotifyRead)
/-- WRITE to NOTIFY (R86). -/
def execNotifyWrite (s : State) : Host.Outcome State Fault Refusal := .next (semServeKind s .semNotifyWrite)

/-! ### Clears (R93) -/

/-- One past the last semaphore of a clear: it never passes SEM65535 (table "Semaphore control registers"). -/
def semClearEnd (s : State) : Nat := min 65536 (rdF s R_SEM_CLEAR SEM_CLEAR_FIRST + rdF s R_SEM_CLEAR SEM_CLEAR_COUNT)

/-- A write of SEM_CLEAR: ignored while a clear runs; START begins one of COUNT semaphores (R93). -/
def wrSemClear (s : State) (v : Word64) : State :=
  if rdB s R_SEM_CLEAR SEM_CLEAR_BUSY then s
  else
    let s := plainWrite s R_SEM_CLEAR v
    if acts v SEM_CLEAR_START && rdF s R_SEM_CLEAR SEM_CLEAR_COUNT != 0 then
      { wrB s R_SEM_CLEAR SEM_CLEAR_BUSY true with semClearAt := rdF s R_SEM_CLEAR SEM_CLEAR_FIRST }
    else s

/-- Clear semaphore `n` whole; HELD falling from 1 is the event of R18. -/
def semClearOne (s : State) (n : Nat) : State :=
  let held := semHeld (semWord (semDecode s n))
  pairForward (bumpFree (writeCw s 66 n 0 (encodeCw 0)) 66) (storePort s) (semBytes n []) none
    (if held then [.semFree n] else [])

/-- SEM_CLEAR_STEP (R93): the next semaphore of a running clear, in a store cycle in which no queue presents an operation. -/
def execSemClearStep (s : State) : Host.Outcome State Fault Refusal :=
  if coreOn s && s.semServed != some s.time && s.semq.isEmpty && rdB s R_SEM_CLEAR SEM_CLEAR_BUSY && !pairBlocked s (storePort s) then
    let n := s.semClearAt
    let s' := { semClearOne s n with semServed := some s.time, semClearAt := n + 1 }
    .next (wrB s' R_SEM_CLEAR SEM_CLEAR_BUSY (decide (n + 1 < semClearEnd s)))
  else .next s

/-- A write of SEM_CTL: STAT_CLEAR clears the store's counters. -/
def wrSemCtl (s : State) (v : Word64) : State :=
  if acts v SEM_CTL_STAT_CLEAR then
    noteCleared ([R_SEM_FORCED, R_SEM_DENIED, R_SEM_TRYSTAT, R_SEM_NOTIFIED].foldl (fun s k => wr s k 0) s) 0x14
  else s

end Sys2Proof.Machine
end

