-- ==== Sys2Proof/Machine/Mbx.lean ====
section
/-! DEFINITION. The mailbox store: order of service (R124, R128), the operations on PAYLOAD and the control words (R120–R126, R129),
their commit and event (R127, R128), and the steps of a clear (R132). -/

namespace Sys2Proof.Machine

/-- The codewords that an operation addresses: those of its payload bytes, or the control codeword (R129). -/
def mbxCodewords (o : StoreOp) : List Nat :=
  if 0xC0 ≤ o.off then [6] else (List.range 6).filter (fun k => o.off < 32 * k + 32 && 32 * k < o.off + o.len)

/-- Decode codeword `k` of mailbox `n`. -/
def mbxDecode (s : State) (n k : Nat) : Decoded := decodeStoreCw false (readCw s 67 (7 * n + k) 0)
/-- The control words of a mailbox: DOORBELL, STATUS, BINDING, SEQ at word 0 to 3 of its control codeword. -/
def mbxWord (d : Decoded) (i : Nat) : Nat := leNat (sliceBytes (cwData d.cw) (8 * i) 8)
/-- EVENTS of a STATUS word. -/
def stEvents (st : Nat) : Nat := st % 0x10000
/-- OVERRUN of a STATUS word. -/
def stOverrun (st : Nat) : Bool := bitOf st 16

/-- STATUS after a doorbell by `w` (R123). -/
def doorbellStatus (st : Nat) (w : Who) : Nat :=
  min 0xFFFF (stEvents st + 1) + (b01 (stOverrun st || stEvents st != 0)) <<< 16 + whoId w <<< 32 + whoSlot w <<< 37

/-- STATUS after a claim (R125). -/
def claimedStatus (st : Nat) : Nat := (bitsOf st 38 32) <<< 32

/-- Bytes of a payload range that a WRITE enables, as offsets in the mailbox. -/
def mbxLanes (o : StoreOp) : List Nat :=
  ((List.range o.len).filter (fun i => bitOf o.mask.toNat i)).map (fun i => o.off + i)

/-- Whether an operation reads or merges codeword `k` that it addresses: all but a payload WRITE that enables every byte of it (R129). -/
def mbxMerges (o : StoreOp) (k : Nat) : Bool :=
  o.kind != .mbxPayloadWrite || !o.effect || ((mbxLanes o).filter (fun l => l / 32 = k)).length != 32

/-- The codewords that an operation stores anew, with their data. -/
def mbxStores (s : State) (o : StoreOp) : List (Nat × List Byte) :=
  let ctl (st seq db bind : Nat) : List (Nat × List Byte) := [(6, leBytes 8 db ++ leBytes 8 st ++ leBytes 8 bind ++ leBytes 8 seq)]
  let d := mbxDecode s o.n 6
  match o.kind with
  | .mbxPayloadWrite =>
    if o.effect then
      (mbxCodewords o).filterMap (fun k =>
        let ls := (mbxLanes o).filter (fun l => l / 32 = k)
        if ls.isEmpty then none
        else some (k, ls.foldl (fun bs l => setAt bs (l - 32 * k) (o.data.getD (l - o.off) 0)) (cwData (mbxDecode s o.n k).cw)))
    else []
  | .mbxDoorbell => ctl (doorbellStatus (mbxWord d 1) o.writer) (mbxWord d 3 + 1) o.value (mbxWord d 2)
  | .mbxClaim => ctl (claimedStatus (mbxWord d 1)) (mbxWord d 3) (mbxWord d 0) (mbxWord d 2)
  | .mbxBinding => ctl (mbxWord d 1) (mbxWord d 3) (mbxWord d 0) (o.value % 256)
  | _ => []

/-- The value checks of a BINDING write (R126). -/
def bindingStatus (v : Variant) (value : Nat) : Status :=
  if value % 4 = 3 then .range else if value % 4 = 2 && numEngines v ≤ bitsOf value 7 4 then .absent else .ok

/-- The status of an operation (table "Statuses of mailbox requests"). The table gives no order between UE and the value checks of a
BINDING write: UE comes first (DESIGN CHOICE, log entry 63). -/
def mbxStatus (s : State) (o : StoreOp) : Status :=
  if (mbxCodewords o).any (fun k => (mbxDecode s o.n k).outcome = .uncorrectable && mbxMerges o k) then .ue
  else if o.kind = .mbxBinding then bindingStatus s.variant o.value
  else .ok

/-- The data that a READ returns. -/
def mbxData (s : State) (o : StoreOp) : List Byte :=
  if 0xC0 ≤ o.off then leBytes 8 (mbxWord (mbxDecode s o.n 6) ((o.off - 0xC0) / 8))
  else sliceBytes ((List.range 6).flatMap (fun k => if (mbxCodewords o).contains k then cwData (mbxDecode s o.n k).cw
    else List.replicate 32 0)) o.off o.len

/-- Whether serving an operation changes its mailbox: a claim may find no event, and a BINDING write the value that stands. -/
def mbxChanges (s : State) (o : StoreOp) : Bool :=
  mbxStatus s o = .ok &&
  (match o.kind with
  | .mbxClaim => let d := mbxDecode s o.n 6; stEvents (mbxWord d 1) != 0 || stOverrun (mbxWord d 1)
  | .mbxBinding => o.value % 256 != mbxWord (mbxDecode s o.n 6) 2
  | _ => !(mbxStores s o).isEmpty)

/-- Whether a request is a WRITE to the mailbox store. -/
def isMbxWrite (r : Req) : Bool := r.op = .write && 0xFE400000 ≤ r.addr && r.addr < 0xFE500000

/-- Whether a request is a DOORBELL write. -/
def isDoorbell (r : Req) : Bool := isMbxWrite r && r.addr % 256 = 0xC0

/-- Whether a doorbell is held: an earlier WRITE of the same requester is not committed (R124). -/
def mbxHeld (s : State) (o : StoreOp) : Bool := o.kind = .mbxDoorbell && s.commits.any (fun c => c.write && c.who = o.who)

/-- Whether no queue presents an operation (R128, R132). -/
def mbxIdle (s : State) : Bool :=
  (List.range 32).all (fun id => match (opsOf s.mbxq id).head? with
    | some o => mbxHeld s o
    | none => true)

/-- Whether the oldest operation of a queue is not presented or not served: a held doorbell, a write of the vat unit in the cycle of its
tally step (R112), or a change that waits for a UTAG (R332). -/
def mbxWaits (s : State) (o : StoreOp) : Bool :=
  mbxHeld s o || (o.who = .vatUnit && s.time ≤ o.entered) || (pairBlocked s (storePort s) && !isUnitOp o && (o.kind = .mbxCopy || mbxChanges s o))

/-- The operation that the store serves next, by key (R128). -/
def mbxFront (s : State) : Option StoreOp :=
  (((List.range 32).map (fun k => (s.time + k) % 32)).filterMap (fun id =>
    match (opsOf s.mbxq id).head? with
    | some o => if mbxWaits s o then none else some o
    | none => none)).head?

/-- Held operations take places that free in their queues (R128, R112). -/
def mbxRefill (s : State) : State :=
  let ops := s.mbxStage
  ops.foldl mbxEnter { s with mbxStage := [] }

/-- Store codewords of mailbox `n`. -/
def mbxPut (s : State) (n : Nat) (cws : List (Nat × List Byte)) : State :=
  cws.foldl (fun s c => writeCw s 67 (7 * n + c.1) 0 (encodeCw (cwOfBytes c.2))) s

/-- MBX_CTL.OPEN of a mailbox. -/
def mbxOpen (s : State) (n : Nat) : Bool := rdB s (R_MBX_CTL n) MBX_CTL_OPEN

/-- The findings of an operation: each codeword that it addresses (R129, R226–R228). -/
def mbxFindings (s0 s : State) (o : StoreOp) (stored : List Nat) : State :=
  (mbxCodewords o).foldl (fun s k =>
    let d := mbxDecode s0 o.n k
    let log (kind : Nat) : State :=
      storeFinding s 67 (7 * o.n + k) (0xFE400000 + 256 * o.n + 32 * k)
        ⟨0, d, kind, whoId o.who, whoSlot o.who, kind = 1 && stored.contains k && mbxMerges o k⟩
    match d.outcome with
    | .corrected => log 1
    | .uncorrectable => log 2
    | _ => s) s

/-- The counters of a doorbell (R123). -/
def doorbellCount (s : State) (found : Nat) : State :=
  let s := occur (countWrap s 0x15 R_MBX_DOORBELLS MBX_DOORBELLS_COUNT 1) EV_DOORBELLS
  if found = 0 then s else countSat s 0x15 R_MBX_OVERRUNS MBX_OVERRUNS_COUNT 1

/-- Serve one operation of the mailbox store (R120–R129). -/
def mbxServeOp (s0 : State) (o : StoreOp) : State :=
  let st := mbxStatus s0 o
  let stores := if st = .ok then mbxStores s0 o else []
  let changed := mbxChanges s0 o
  let ce := st != .ue && (mbxCodewords o).any (fun k => (mbxDecode s0 o.n k).outcome = .corrected && mbxMerges o k)
  let data := if o.code = 1 && st = .ok then mbxData s0 o else []
  let ctl := mbxDecode s0 o.n 6
  let commits := st = .ok && (o.code != 1 || o.kind = .mbxClaim)
  let s := occur (mbxRefill { bumpFree s0 67 with mbxq := s0.mbxq.erase o, mbxServed := some s0.time }) EV_MBX_SERVED
  let s := samplePoint s o.who o.uid 2 0xFF 1 0
  let s := mbxPut s o.n stores
  let s := mbxFindings s0 s o (stores.map (fun c => c.1))
  let s := if st = .ok && o.kind = .mbxDoorbell then doorbellCount s (stEvents (mbxWord ctl 1)) else s
  let s := traceStore s o (0xFE400000 + 256 * o.n + o.off) 65 2 st ce data
  let s := answerPart s o.who o.uid 0 st ce false data (b01 commits + b01 changed)
  let s := if commits then
      { s with commits := s.commits ++
        [{ servedAt := s.time, who := o.who, write := o.code != 1, uid := o.uid,
           ringEvent := if o.kind = .mbxDoorbell then some (o.n, o.value, mbxWord ctl 2) else none,
           unitNum := if changed && pairForwards s then some s.nextUid else none }] }
    else s
  if changed then
    pairForward s (storePort s) (mbxBytes o.n ((stores.map (fun c => 2 ^ c.1)).foldl (· + ·) 0) (mbxOpen s o.n)
      (stores.flatMap (fun c => c.2))) none [.release o.who o.uid]
  else s

/-- The unit that an MBX operation of the partner's carries. -/
def rxMbxOf (s : State) (o : StoreOp) : Bool × List (Nat × List Byte) :=
  match s.pair.rxUnits.find? (fun u => u.num = o.uid) with
  | some u => (match u.body with
    | .mbx _ isOpen cws => (isOpen, cws)
    | _ => (mbxOpen s o.n, []))
  | none => (mbxOpen s o.n, [])

/-- An MBX unit is applied (R214, R333): the changed codewords and OPEN, in one store cycle; it commits like every write, and no event
follows. -/
def mbxUnitServe (s : State) (o : StoreOp) : State :=
  let x := rxMbxOf s o
  let bytes := x.2.flatMap (fun c => c.2)
  let s := traceStore s { o with len := bytes.length, data := bytes } (0xFE400000 + 256 * o.n + 32 * ((x.2.head?.map (fun c => c.1)).getD 0)) 65 2
    .ok false []
  let s := mbxRefill { bumpFree s 67 with mbxq := s.mbxq.erase o, mbxServed := some s.time }
  let s := wrB (mbxPut s o.n x.2) (R_MBX_CTL o.n) MBX_CTL_OPEN x.1
  { s with commits := s.commits ++ [{ servedAt := s.time, who := .pairFwd, write := true, uid := o.uid, ringEvent := none, unitNum := none }] }

/-- The copy of SYNCING reads a mailbox whole in a store cycle, and its unit enters the forward stream (R344); an uncorrectable codeword
stops the copy (R345). -/
def mbxCopyServe (s : State) (o : StoreOp) : State :=
  let addr := 0xFE400000 + 256 * o.n
  let ds := (List.range 7).map (mbxDecode s o.n)
  let s := mbxRefill { bumpFree s 67 with mbxq := s.mbxq.erase o, mbxServed := some s.time }
  let s := ds.zipIdx.foldl (fun s x =>
    (readFinding 0 x.1 (whoId o.who)).foldl (fun s f => storeFinding s 67 (7 * o.n + x.2) (addr + 32 * x.2) f) s) s
  if !syncAtItem s o.uid then s
  else if ds.any (fun d => d.outcome = .uncorrectable) then syncStop s (whoId o.who - 8) 1 addr
  else syncNext (pairForward s (storePort s) (mbxBytes o.n 0x7F (mbxOpen s o.n) (ds.flatMap (fun d => cwData d.cw))) none [])

/-- An MBX unit, or a read of the copy, that stands first at the store takes a free store cycle: when it arrives, or at the end of a cycle
(log entry 19). -/
def mbxUnitTurn (s : State) : State :=
  match mbxFront s with
  | some o =>
    if coreOn s && s.mbxServed != some s.time then
      (match o.kind with
      | .mbxUnit => mbxUnitServe s o
      | .mbxCopy => mbxCopyServe s o
      | _ => s)
    else s
  | none => s

/-- Serve the store's next operation when it is of this kind and the store has a cycle free (R128). -/
def mbxServeKind (s : State) (k : StoreKind) : State :=
  match mbxFront s with
  | some o => if coreOn s && s.mbxServed != some s.time && o.kind = k then mbxServeOp s o else s
  | none => s

/-- PAYLOAD_WRITE (R121). A WRITE of STATUS or SEQ, which has no effect, is served here too (log entry 21). -/
def execPayloadWrite (s : State) : Host.Outcome State Fault Refusal := .next (mbxServeKind s .mbxPayloadWrite)
/-- MAILBOX_READ (R121, R122). -/
def execMailboxRead (s : State) : Host.Outcome State Fault Refusal := .next (mbxServeKind s .mbxRead)
/-- DOORBELL (R123, R124). -/
def execDoorbell (s : State) : Host.Outcome State Fault Refusal := .next (mbxServeKind s .mbxDoorbell)
/-- MAILBOX_CLAIM (R125). -/
def execMailboxClaim (s : State) : Host.Outcome State Fault Refusal := .next (mbxServeKind s .mbxClaim)
/-- BINDING_WRITE (R126). -/
def execBindingWrite (s : State) : Host.Outcome State Fault Refusal := .next (mbxServeKind s .mbxBinding)

/-! ### Commit -/

/-- Add work to a unit that is still pending. -/
def deferOn (s : State) (num : Nat) (d : Deferred) : State :=
  { s with pair := { s.pair with units := s.pair.units.map (fun u =>
      if u.num = num then { u with deferred := u.deferred ++ [d] } else u) } }

/-- The event of a committed doorbell: at once, or with the acceptance of its unit (R127, R334). -/
def commitEvent (s : State) (c : MbxCommit) : State :=
  match c.ringEvent with
  | none => s
  | some (m, v, b) =>
    match c.unitNum with
    | some u => if s.pair.units.any (fun x => x.num = u) then deferOn s u (.ring m v b) else doorbellEvent s m v b
    | none => doorbellEvent s m v b

/-- What follows a commit: a unit of the partner's is accepted (R333), any other operation may be answered and produces its event. -/
def commitEffect (s : State) (c : MbxCommit) : State :=
  if c.who = .pairFwd then rxCommitted s c.uid else commitEvent (releaseWait s c.who c.uid) c

/-- MAILBOX_COMMIT (R128): four cycles after it was served, the oldest operation commits: it may be answered, doorbells behind it
may be presented, and its event is produced. -/
def execMailboxCommit (s : State) : Host.Outcome State Fault Refusal :=
  match s.commits with
  | [] => .next s
  | c :: cs => if c.servedAt + 4 ≤ s.time then .next (commitEffect { s with commits := cs } c) else .next s

/-! ### Clears (R132) -/

/-- One past the last mailbox of a clear: it stops at the last present mailbox, also for a COUNT above 4,096 (DESIGN CHOICE, log entry 77). -/
def mbxClearEnd (s : State) : Nat :=
  min (numMailboxes s.variant) (rdF s R_MBX_CLEAR MBX_CLEAR_FIRST + rdF s R_MBX_CLEAR MBX_CLEAR_COUNT)

/-- A write of MBX_CLEAR with a FIRST that is present: ignored while a clear runs. `mbxClearAt` counts store cycles, four for each mailbox. -/
def wrMbxClear (s : State) (v : Word64) : State :=
  if rdB s R_MBX_CLEAR MBX_CLEAR_BUSY then s
  else
    let s := plainWrite s R_MBX_CLEAR v
    if acts v MBX_CLEAR_START && rdF s R_MBX_CLEAR MBX_CLEAR_FIRST < mbxClearEnd s then
      { wrB s R_MBX_CLEAR MBX_CLEAR_BUSY true with mbxClearAt := 4 * rdF s R_MBX_CLEAR MBX_CLEAR_FIRST }
    else s

/-- The contents of a cleared mailbox: all zero but BINDING, which is at its reset value 1. -/
def mbxCleared : List (Nat × List Byte) :=
  (List.range 6).map (fun k => (k, List.replicate 32 0)) ++ [(6, leBytes 16 0 ++ leBytes 8 1 ++ leBytes 8 0)]

/-- Clear mailbox `n` whole. -/
def mbxClearOne (s : State) (n : Nat) : State :=
  let s := wrB (mbxPut (bumpFree s 67) n mbxCleared) (R_MBX_CTL n) MBX_CTL_OPEN false
  pairForward s (storePort s) (mbxBytes n 0x7F false (mbxCleared.flatMap (fun c => c.2))) none []

/-- MBX_CLEAR_STEP (R132): a store cycle in which no queue presents an operation; the fourth of a mailbox clears it whole. -/
def execMbxClearStep (s : State) : Host.Outcome State Fault Refusal :=
  if coreOn s && s.mbxServed != some s.time && mbxIdle s &&
      rdB s R_MBX_CLEAR MBX_CLEAR_BUSY && !pairBlocked s (storePort s) then
    let at_ := s.mbxClearAt + 1
    let s' := { s with mbxServed := some s.time, mbxClearAt := at_ }
    let s' := if at_ % 4 = 0 then mbxClearOne s' (at_ / 4 - 1) else s'
    .next (wrB s' R_MBX_CLEAR MBX_CLEAR_BUSY (decide (at_ < 4 * mbxClearEnd s)))
  else .next s

/-- A write of MBX_GCTL: STAT_CLEAR clears the store's counters. -/
def wrMbxGctl (s : State) (v : Word64) : State :=
  if acts v MBX_GCTL_STAT_CLEAR then
    noteCleared ([R_MBX_DOORBELLS, R_MBX_OVERRUNS, R_MBX_DENIED].foldl (fun s k => wr s k 0) s) 0x15
  else s

end Sys2Proof.Machine
end

