-- ==== Sys2Proof/Machine/Vat.lean ====
section
/-! DEFINITION. The vat unit: lookup (R98, R102), tally steps and completion (R110–R113), and the writes of vat entries
(R117–R119). -/

namespace Sys2Proof.Machine

/-- Base address of a vat. -/
def vatBase (s : State) (n : Nat) : Nat := rdF s (R_VAT_RANGE n) VAT_RANGE_BASE <<< 12
/-- Length of a vat in bytes. -/
def vatLen (s : State) (n : Nat) : Nat := rdF s (R_VAT_RANGE n) VAT_RANGE_LEN4K * 4096
/-- Whether a vat entry is valid. -/
def vatValid (s : State) (n : Nat) : Bool := rdB s (R_VAT_CTL n) VAT_CTL_VALID

/-- The number of the vat entry that a register belongs to. -/
def vatOfKey (key : Nat) : Nat := (key - 0x160000) / 0x40

/-- The vat entries that are valid, in ascending number: an entry that lists nothing is not. -/
def validVats (s : State) : List Nat :=
  (s.regs.filter (fun e => 0x160000 ≤ e.1 && e.1 < 0x170000 && e.1 % 0x40 = 0 && hasF e.2 VAT_CTL_VALID)).map (fun e => vatOfKey e.1)

/-- The vats whose VALID was cleared in this cycle: a lookup of the cycle still finds them (R119). -/
def lateVats (s : State) : List Nat :=
  (s.before.filter (fun x => x.2.1 = s.time && 0x160000 ≤ x.1 && x.1 < 0x170000 && !vatValid s (vatOfKey x.1))).map (fun x => vatOfKey x.1)

/-- The valid vat that covers an address (R94, R98). -/
def vatLookup (s : State) (addr : Nat) : Option Nat :=
  (validVats s ++ lateVats s).find? (fun n => vatBase s n ≤ addr && addr < vatBase s n + vatLen s n)

/-- How often a vat has been made invalid (R111, R119). -/
def vatGenOf (s : State) (n : Nat) : Nat := sget 0 s.vatGen n

/-- The number of a vat's validity that a lookup notes: for a vat whose VALID was cleared in this cycle, the one that has ended. -/
def lookupGen (s : State) (n : Nat) : Nat := if vatValid s n then vatGenOf s n else vatGenOf s n - 1

/-- The bytes of the completion record as the completing step samples them (R112). -/
def completionRecord (s : State) (n : Nat) : List Byte :=
  let flags := b01 (rdB s (R_VAT_FLAGS n) VAT_FLAGS_OVF) + 2 * b01 (rdB s (R_VAT_CTL n) VAT_CTL_AUTO_REARM) +
    4 * b01 (rdF s (R_VAT_LOSS n) VAT_LOSS_LOSS != 0) + 8 * b01 (rdF s (R_VAT_EVENTS n) VAT_EVENTS_NONFINITE != 0) +
    16 * b01 (rdF s (R_VAT_LOSS n) VAT_LOSS_MISMATCH != 0)
  leBytes 2 n ++ leBytes 1 flags ++ leBytes 1 1 ++ leBytes 4 (rdF s (R_VAT_COUNT n) VAT_COUNT_TALLY) ++
  leBytes 4 (rdF s (R_VAT_LOSS n) VAT_LOSS_LOSS) ++ leBytes 4 (rdF s (R_VAT_LOSS n) VAT_LOSS_MISMATCH) ++
  leBytes 4 (rdF s (R_VAT_FLAGS n) VAT_FLAGS_EARLY) ++ leBytes 4 (rdF s (R_VAT_EVENTS n) VAT_EVENTS_COMPLETIONS) ++ leBytes 8 s.time

/-- The doorbell value of a completion (table "Vat doorbell value"). -/
def completionDoorbell (s : State) (n : Nat) : Nat :=
  n + rdF s (R_VAT_EVENTS n) VAT_EVENTS_COMPLETIONS <<< 16 + 1 <<< 56

/-- A vat completes (R112): the count, the sampled record for the bound mailbox, and the re-arm or DONE. -/
def completeVat (s : State) (n : Nat) : State × List Deferred :=
  let s := occur (addWrap s (R_VAT_EVENTS n) VAT_EVENTS_COMPLETIONS 1) EV_COMPLETIONS
  let ds := if rdB s (R_VAT_MBX n) VAT_MBX_BIND then
      [Deferred.vatRecord (rdF s (R_VAT_MBX n) VAT_MBX_MAILBOX) (completionRecord s n) (completionDoorbell s n)] else []
  (if rdB s (R_VAT_CTL n) VAT_CTL_AUTO_REARM then wrF s (R_VAT_COUNT n) VAT_COUNT_TALLY 0
   else wrB s (R_VAT_CTL n) VAT_CTL_DONE true, ds)

/-- Whether a vat completes at its TALLY (R110). -/
def reachesExpected (s : State) (n : Nat) : Bool :=
  rdF s (R_VAT_COUNT n) VAT_COUNT_EXPECTED != 0 &&
  rdF s (R_VAT_COUNT n) VAT_COUNT_EXPECTED ≤ rdF s (R_VAT_COUNT n) VAT_COUNT_TALLY

/-- Complete a vat when it has reached its count. -/
def completeIfReached (s : State) (n : Nat) : State × List Deferred :=
  if reachesExpected s n then completeVat s n else (s, [])

/-- One tally step of a vat (R110). -/
def tallyVat (s : State) (n : Nat) : State × List Deferred :=
  let s := occur s EV_TALLY
  if rdB s (R_VAT_CTL n) VAT_CTL_DONE then (addSat s (R_VAT_FLAGS n) VAT_FLAGS_EARLY 1, [])
  else completeIfReached (addWrap s (R_VAT_COUNT n) VAT_COUNT_TALLY 1) n

/-- Whether a waiting tally step comes before another: by cycle, then by ascending bank (R111). -/
def tallyBefore (a b : TallyWait) : Bool := a.time < b.time || (a.time = b.time && a.bank < b.bank)

/-- The next tally step: its ACC's write-back slot has passed (R99, R110). -/
def nextTally (s : State) : Option TallyWait :=
  match s.tallies.filter (fun t => t.time < s.time) with
  | [] => none
  | t :: ts => some (ts.foldl (fun m x => if tallyBefore x m then x else m) t)

/-- TALLY_STEP (R110–R112): the vat unit takes the next tally step; one whose vat became invalid is dropped. The ACC is then
complete but for the partner's acceptance of the entry (R100, R334). -/
def execTallyStep (s : State) : Host.Outcome State Fault Refusal :=
  match nextTally s with
  | none => .next s
  | some t =>
    if pairBlocked s (storePort s) then .next s
    else
      let s := { s with tallies := s.tallies.erase t }
      if vatGenOf s t.vat = t.gen && vatValid s t.vat then
        let r := tallyVat s t.vat
        .next (forwardVat r.1 t.vat ([.release t.who t.uid, .vatEvent t.vat (vatView r.1 t.vat)] ++ r.2))
      else .next (releaseWait s t.who t.uid)

/-! ### Writes of vat entries -/

/-- What follows a register write that changes mirrored state: its unit, and what waits for the partner (R328, R334). -/
inductive Post where
  | none
  | vat (n : Nat) (ds : List Deferred)
  | mbxOpen (n : Nat)
  deriving DecidableEq, Repr

/-- The result of a register write. -/
structure Written where
  status : Status
  state : State
  post : Post

/-- A write accepted without more. -/
def accepted (s : State) : Written := { status := .ok, state := s, post := .none }
/-- A write refused as a whole; the register keeps its value. -/
def refusedWith (s : State) (st : Status) : Written := { status := st, state := s, post := .none }

/-- A refusal with a CODE of table "Vat entry refusal codes" (R118); what it stores in the entry is forwarded (R328). -/
def vatRefuse (s : State) (n code other : Nat) : Written :=
  { status := .range, state := wr s (R_VAT_REJECT n) (w64 (code + other <<< 16)), post := .vat n [] }

/-- An accepted write of a vat entry clears CODE and OTHER (R118) and is forwarded (R328). -/
def vatAccept (s : State) (n : Nat) (ds : List Deferred) : Written :=
  { status := .ok, state := wr s (R_VAT_REJECT n) 0, post := .vat n ds }

/-- Whether every byte of a range of 4 KiB units lies in the present array. -/
def rangePresent (v : Variant) (base len4k : Nat) : Bool :=
  (List.range len4k).all (fun i => arrayPresent v (base + i * 4096))

/-- A valid vat that a range overlaps, other than `n`. -/
def overlapping (s : State) (n base len : Nat) : Option Nat :=
  (validVats s).find? (fun m => m != n && base < vatBase s m + vatLen s m && vatBase s m < base + len)

/-- STAT_CLEAR of a vat (R116). -/
def vatStatClear (s : State) (n : Nat) : State :=
  let s := wrB s (R_VAT_FLAGS n) VAT_FLAGS_OVF false
  let s := wr s (R_VAT_LOSS n) 0
  wrF s (R_VAT_EVENTS n) VAT_EVENTS_NONFINITE 0

/-- REARM of a vat (R113). -/
def vatRearmStep (s : State) (n : Nat) : State × List Deferred :=
  if rdB s (R_VAT_CTL n) VAT_CTL_DONE then
    let s := wrB s (R_VAT_CTL n) VAT_CTL_DONE false
    let s := wrF s (R_VAT_COUNT n) VAT_COUNT_TALLY (rdF s (R_VAT_FLAGS n) VAT_FLAGS_EARLY)
    completeIfReached (wrF s (R_VAT_FLAGS n) VAT_FLAGS_EARLY 0) n
  else (s, [])

/-- The checks of a write that sets VALID (R118), on the values it leaves: `none` when all hold. -/
def vatValidCheck (s : State) (n : Nat) (v : Word64) : Option Written :=
  let fmt := getF v VAT_CTL_FMT
  let len4k := rdF s (R_VAT_RANGE n) VAT_RANGE_LEN4K
  if !fmtOpAllowed fmt (getF v VAT_CTL_OP) then some (vatRefuse s n 2 0)
  else if len4k = 0 || 4096 < len4k || !rangePresent s.variant (vatBase s n) len4k then some (vatRefuse s n 3 0)
  else
    match overlapping s n (vatBase s n) (vatLen s n) with
    | some m => some (vatRefuse s n 1 m)
    | none => none

/-- Whether a write would change FMT, OP or SCALE (R117). -/
def vatFixedChange (old v : Word64) : Bool :=
  getF old VAT_CTL_FMT != getF v VAT_CTL_FMT || getF old VAT_CTL_OP != getF v VAT_CTL_OP ||
  getF old VAT_CTL_SCALE != getF v VAT_CTL_SCALE

/-- An accepted write of VAT_CTL: the fields, VALID cleared (for lookups from the next cycle on, R119), the clear, then the re-arm (R113). -/
def vatCtlApply (s : State) (n : Nat) (v : Word64) : Written :=
  let was := vatValid s n
  let s := plainWrite (if was then noteBefore s (R_VAT_CTL n) else s) (R_VAT_CTL n) v
  let cleared := was && !vatValid s n
  let s := if cleared then { s with vatGen := sset 0 s.vatGen n (vatGenOf s n + 1) } else s
  let s := if acts v VAT_CTL_STAT_CLEAR then vatStatClear s n else s
  let r := if acts v VAT_CTL_REARM then vatRearmStep s n else (s, [])
  vatAccept r.1 n ((if cleared || acts v VAT_CTL_REARM then [.vatEvent n (vatView r.1 n)] else []) ++ r.2)

/-- A write of VAT_CTL (R117, R118); FW128, which JZ4-128 lacks, is refused before any other ground (R4). -/
def wrVatCtl (s : State) (n : Nat) (v : Word64) : Written :=
  if getF v VAT_CTL_FMT = 8 && !bigVariant s.variant then refusedWith s .absent
  else if vatValid s n then
    if vatFixedChange (rd s (R_VAT_CTL n)) v then vatRefuse s n 5 0 else vatCtlApply s n v
  else if hasF v VAT_CTL_VALID then
    match vatValidCheck s n v with
    | some w => w
    | none => vatCtlApply s n v
  else vatCtlApply s n v

/-- A write of another register of a vat entry (R117, R118). -/
def wrVatOther (s : State) (key : Nat) (v : Word64) : Written :=
  let n := vatOfKey key
  let old := rd s key
  if key = R_VAT_RANGE n then
    if vatValid s n && (getF old VAT_RANGE_BASE != getF v VAT_RANGE_BASE || getF old VAT_RANGE_LEN4K != getF v VAT_RANGE_LEN4K) then
      vatRefuse s n 5 0
    else vatAccept (plainWrite s key v) n []
  else if key = R_VAT_COUNT n then
    if vatValid s n && getF old VAT_COUNT_TALLY != getF v VAT_COUNT_TALLY then vatRefuse s n 5 0
    else vatAccept (plainWrite s key v) n []
  else if key = R_VAT_MBX n then
    if numMailboxes s.variant ≤ getF v VAT_MBX_MAILBOX then refusedWith s .absent else vatAccept (plainWrite s key v) n []
  else vatAccept (plainWrite s key v) n []

end Sys2Proof.Machine
end

