-- ==== Sys2Proof/Machine/Integrity.lean ====
section
/-! DEFINITION. The integrity machinery's own steps: scrub visits (R231, R232), the logs (R229, R230), remap copies (R235) and the writes of
its registers (R239, R240). -/

namespace Sys2Proof.Machine

/-- What a visit finds in a codeword of a store: a correction is written back and logged, an uncorrectable error is logged and raises
SCRUB_UE (R232). -/
def scrubStoreFound (s : State) (unit i addr : Nat) (d : Decoded) : State :=
  match d.outcome with
  | .corrected => storeFinding (writeCw s unit i 0 (encodeCw d.cw.data)) unit i addr ⟨0, d, 1, 27, 0, true⟩
  | .uncorrectable => setIntStat (storeFinding s unit i addr ⟨0, d, 2, 27, 0, false⟩) INT_STAT_SCRUB_UE (some 4128)
  | _ => s

/-- A visit to a store codeword (R232): unit 66 or 67 and its codeword number. -/
def scrubStore (s : State) (unit i addr : Nat) : State :=
  let d := decodeStoreCw (unit = 66) (readCw s unit i 0)
  let s := occur (bumpFree s unit) EV_SCRUB
  let s := trace s { time := s.time, addr := addr, req := 27, slot := 0, half2 := false, opcode := 0xE0, len := 32, status := .ok, ce := false,
                     sup := false, unit := unit - 2, gsize := 1, gpos := 0, rot := 0, tag := 0, data := [], cls := 4,
                     dest := unit - 65 }
  scrubStoreFound s unit i addr d

/-- A visit to a line: a request of the scrub agent at the line's bank, which wakes a resting region; a line of a region that is off is
passed over (R231, R351). -/
def scrubLineVisit (s : State) (b line : Nat) : State :=
  if regionRefuses s (b / 8) && (waitingCopy s b .scrub 0xE0).isNone then scrubAdvance s
  else copyAccess s b .scrub 0xE0 (lineAddr s.variant b line)

/-- A visit to the stores: in a store cycle in which no queue presents an operation. -/
def scrubStoreVisit (s : State) : State :=
  let i := s.integ.storeIndex
  if i < 65536 then
    if s.semq.isEmpty && s.semServed != some s.time then
      scrubAdvance (scrubStore { s with semServed := some s.time } 66 i (0xFE000000 + 64 * i))
    else s
  else if mbxIdle s && s.mbxServed != some s.time then
    let k := i - 65536
    scrubAdvance (scrubStore { s with mbxServed := some s.time } 67 k (0xFE400000 + 256 * (k / 7) + 32 * (k % 7)))
  else s

/-- Whether the scrubber runs (R240, R352, R358). -/
def scrubRuns (s : State) : Bool := coreOn s && rdB s R_INT_CTL INT_CTL_SCRUB_EN && !inHold s && !devSleep s

/-- Whether a visit to a line waits at its bank. -/
def scrubWaits (s : State) : Bool :=
  (waitingCopy s (rdF s R_INT_SCRUB_POS INT_SCRUB_POS_BANK) .scrub 0xE0).isSome && !rdB s R_INT_SCRUB_POS INT_SCRUB_POS_STORES

/-- SCRUB_VISIT (R231, R232): the visit that is due. A visit that already waits at its bank is finished whatever SCRUB_EN says. -/
def execScrubVisit (s : State) : Host.Outcome State Fault Refusal :=
  if (scrubRuns s && s.integ.nextVisit ≤ s.time) || scrubWaits s then
    if rdB s R_INT_SCRUB_POS INT_SCRUB_POS_STORES then .next (scrubStoreVisit s)
    else .next (scrubLineVisit s (rdF s R_INT_SCRUB_POS INT_SCRUB_POS_BANK) (rdF s R_INT_SCRUB_POS INT_SCRUB_POS_LINE))
  else .next s

/-! ### The logs -/

/-- Order of entries within a log: by cycle, then ascending PHYS, then ascending ADDR (R230). -/
def logBefore (a b : LogEntry) : Bool :=
  a.time < b.time || (a.time = b.time && (a.phys < b.phys || (a.phys = b.phys && a.addr < b.addr)))

/-- Insert an entry at its place. -/
def logInsert (e : LogEntry) : List LogEntry → List LogEntry
  | [] => [e]
  | x :: xs => if logBefore e x then e :: x :: xs else x :: logInsert e xs

/-- Write the four words of a log entry. -/
def logPut (s : State) (key : Nat → Nat) (e : LogEntry) (seq : Nat) : State :=
  let bs := e.bytes ++ leBytes 4 seq
  (List.range 4).foldl (fun s k => wr s (key k) (w64 (leNat (sliceBytes bs (8 * k) 8)))) s

/-- Place a lees entry (R229). -/
def leesPlace (s : State) (e : LogEntry) : State :=
  let head := rdF s R_INT_LEES_CTL INT_LEES_CTL_HEAD
  let count := rdF s R_INT_LEES_CTL INT_LEES_CTL_COUNT
  let put (s : State) : State :=
    { logPut s (fun k => R_INT_LEES ((head + count) % 32) k) e s.integ.leesSeq with
      integ := { s.integ with leesSeq := (s.integ.leesSeq + 1) % 2 ^ 32 } }
  if count < 32 then
    let s := wrF (put s) R_INT_LEES_CTL INT_LEES_CTL_COUNT (count + 1)
    if count = 31 then setIntStat s INT_STAT_LEES_FULL (some 4131) else s
  else if rdB s R_INT_CTL INT_CTL_LEES_LOCK then addSat s R_INT_LEES_CTL INT_LEES_CTL_LOST 1
  else wrF (put s) R_INT_LEES_CTL INT_LEES_CTL_HEAD ((head + 1) % 32)

/-- Place a UE entry (R229). -/
def uePlace (s : State) (e : LogEntry) : State :=
  let head := rdF s R_INT_UE_CTL INT_UE_CTL_HEAD
  let count := rdF s R_INT_UE_CTL INT_UE_CTL_COUNT
  let put (s : State) : State :=
    { logPut s (fun k => R_INT_UELOG ((head + count) % 16) k) e s.integ.ueSeq with
      integ := { s.integ with ueSeq := (s.integ.ueSeq + 1) % 2 ^ 32 } }
  if count < 16 then wrF (put s) R_INT_UE_CTL INT_UE_CTL_COUNT (count + 1)
  else if rdB s R_INT_CTL INT_CTL_UE_LOCK then addSat s R_INT_UE_CTL INT_UE_CTL_LOST 1
  else wrF (put s) R_INT_UE_CTL INT_UE_CTL_HEAD ((head + 1) % 16)

/-- The entries of one log in the intake, in the order in which they are written. -/
def intakeOf (s : State) (lees : Bool) : List LogEntry :=
  (s.integ.intake.filter (fun e => isLees e = lees)).foldl (fun l e => logInsert e l) []

/-- The words of a log that its next four entries take. -/
def logKeys (s : State) : List Nat :=
  let at_ (ctl : Nat) (head count : Fld) (i : Nat) : Nat := rdF s ctl head + rdF s ctl count + i
  (List.range 4).flatMap (fun i => (List.range 4).flatMap (fun k =>
    [R_INT_LEES (at_ R_INT_LEES_CTL INT_LEES_CTL_HEAD INT_LEES_CTL_COUNT i % 32) k,
     R_INT_UELOG (at_ R_INT_UE_CTL INT_UE_CTL_HEAD INT_UE_CTL_COUNT i % 16) k]))

/-- Entries are written into both logs, and what that changed is kept for the rest of the cycle. -/
def logPlace (s : State) (lees ue : List LogEntry) : State :=
  let t := ue.foldl uePlace (lees.foldl leesPlace s)
  let u : LogUndo :=
    { words := ([R_INT_LEES_CTL, R_INT_UE_CTL] ++ logKeys s).map (fun k => (k, rd s k)), leesSeq := s.integ.leesSeq,
      ueSeq := s.integ.ueSeq, lees := lees, ue := ue,
      leesLost := rdF t R_INT_LEES_CTL INT_LEES_CTL_LOST - rdF s R_INT_LEES_CTL INT_LEES_CTL_LOST,
      ueLost := rdF t R_INT_UE_CTL INT_UE_CTL_LOST - rdF s R_INT_UE_CTL INT_UE_CTL_LOST,
      wasFull := rdB s R_INT_STAT INT_STAT_LEES_FULL,
      raised := rdF t R_INT_LEES_CTL INT_LEES_CTL_COUNT = 32 && rdF s R_INT_LEES_CTL INT_LEES_CTL_COUNT < 32 }
  { t with integ := { t.integ with logUndo := some u } }

/-- The logs as they stood before this cycle's entries; LOST keeps what the intake has counted since. -/
def logTakeBack (s : State) (u : LogUndo) : State :=
  let lees := rdF s R_INT_LEES_CTL INT_LEES_CTL_LOST - u.leesLost
  let ue := rdF s R_INT_UE_CTL INT_UE_CTL_LOST - u.ueLost
  let s := u.words.foldl (fun s w => wr s w.1 w.2) s
  let s := wrF (wrF s R_INT_LEES_CTL INT_LEES_CTL_LOST lees) R_INT_UE_CTL INT_UE_CTL_LOST ue
  let s := if u.raised then
      { wrB s R_INT_STAT INT_STAT_LEES_FULL u.wasFull with intcEvents := s.intcEvents.erase 4131 } else s
  { s with integ := { s.integ with leesSeq := u.leesSeq, ueSeq := u.ueSeq, logUndo := none } }

/-- LOG_WRITE (R229, R230): up to four entries of each log leave the intake. -/
def execLogWrite (s : State) : Host.Outcome State Fault Refusal :=
  if coreOn s && s.integ.lastLogWrite != some s.time && !s.integ.intake.isEmpty then
    let lees := intakeOf s true
    let ue := intakeOf s false
    let s := { s with integ := { s.integ with intake := lees.drop 4 ++ ue.drop 4, lastLogWrite := some s.time } }
    .next (logPlace s (lees.take 4) (ue.take 4))
  else .next s

/-! ### Remaps -/

/-- REMAP_COPY (R235): the oldest remap that waits, in a slot of its bank presented as requester 24. A unit that holds no bank's data needs
no slot, and waits for a test that has the lines (R248). -/
def execRemapCopy (s : State) : Host.Outcome State Fault Refusal :=
  match s.integ.remaps with
  | [] => .next s
  | j :: _ =>
    match dataBank s j.unit with
    | none => .next (if agentHolds s j then s else remapCopyNow s j 0)
    | some b => .next (copyAccess s b .sc 0xE3 (lineAddr s.variant b j.line))

/-! ### Register writes -/

/-- LOG_CLEAR (R229): both logs emptied, LOST unchanged. -/
def logClearStep (s : State) : State :=
  let s := wrF (wrF s R_INT_LEES_CTL INT_LEES_CTL_HEAD 0) R_INT_LEES_CTL INT_LEES_CTL_COUNT 0
  let s := wrF (wrF s R_INT_UE_CTL INT_UE_CTL_HEAD 0) R_INT_UE_CTL INT_UE_CTL_COUNT 0
  { s with integ := { s.integ with leesSeq := 0, ueSeq := 0 } }

/-- STAT_CLEAR of INT_CTL (R240). -/
def intStatClearStep (s : State) : State :=
  let s := [R_INT_TOTALS, R_INT_POISON, R_INT_SCRUB_STAT, R_INT_HFCOUNT].foldl (fun s k => wr s k 0) s
  let s := wrF s R_INT_TK_STAT INT_TK_STAT_DISAGREE 0
  let s := (List.range 68).foldl (fun s u => wrBeside (wrBeside s (R_INT_UNITERR u) INT_UNITERR_CE 0) (R_INT_UNITERR u) INT_UNITERR_UE 0) s
  noteCleared s 0x11

/-- The fields of INT_CTL and its LOG_CLEAR. SCRUB_EN set again resumes the visits from INT_SCRUB_POS (R231). -/
def intCtlApply (s : State) (v : Word64) : State :=
  let was := rdB s R_INT_CTL INT_CTL_SCRUB_EN
  let s := plainWrite s R_INT_CTL v
  let s := if !was && rdB s R_INT_CTL INT_CTL_SCRUB_EN then { s with integ := { s.integ with nextVisit := s.time } } else s
  if acts v INT_CTL_LOG_CLEAR then logClearStep s else s

/-- A write of INT_CTL. Its LOCKs apply to every entry written in the same cycle, and its LOG_CLEAR comes before them (R230), also when
LOG_WRITE came first. -/
def wrIntCtl (s : State) (v : Word64) : State :=
  let s := match s.integ.logUndo with
    | some u =>
      if s.integ.lastLogWrite = some s.time then logPlace (intCtlApply (logTakeBack s u) v) u.lees u.ue else intCtlApply s v
    | none => intCtlApply s v
  if acts v INT_CTL_STAT_CLEAR then intStatClearStep s else s

/-- A write of INT_INJECT (R239). -/
def wrIntInject (s : State) (v : Word64) : Written :=
  let bad (f : Fld) : Bool := 275 ≤ getF v f && getF v f != 0x1FF
  if !arrayPresent s.variant (getF v INT_INJECT_ADDR * 32) then refusedWith s .absent
  else if bad INT_INJECT_POS_A || bad INT_INJECT_POS_B || bad INT_INJECT_POS_C then refusedWith s .range
  else accepted (plainWrite s R_INT_INJECT v)

/-- A write of INT_SCRUB_CFG: a period below 10 minutes is refused (R240). -/
def wrIntScrubCfg (s : State) (v : Word64) : Written :=
  if getF v INT_SCRUB_CFG_PERIOD_MIN < 10 then refusedWith s .range else accepted (plainWrite s R_INT_SCRUB_CFG v)

/-- A write of INT_HF_CFG: a window of 0 is refused (R240). -/
def wrIntHfCfg (s : State) (v : Word64) : Written :=
  if getF v INT_HF_CFG_WINDOW_S = 0 then refusedWith s .range else accepted (plainWrite s R_INT_HF_CFG v)

end Sys2Proof.Machine
end

