-- ==== Sys2Proof/Machine/TestRepair.lean ====
section
/-! DEFINITION. Online test and repair: background and foreground tests (R245–R253), ordered remaps (R254), retirement (R255–R258),
the start of an engine self-test (R260) and the register writes of block 0x12 (R261, R262). -/

namespace Sys2Proof.Machine

/-- Whether a bank's background test may not run (R352, R358). -/
def testPaused (s : State) : Bool := inHold s || devSleep s

/-! ### Background tests -/

/-- Whether TST_BG.GAP_US, as it stands now, has passed since a group or a pass ended (R247). -/
def gapOver (s : State) (ended : Option Nat) : Bool :=
  match ended with
  | some t => t + rdF s R_TST_BG TST_BG_GAP_US * 1600 ≤ s.time
  | none => true

/-- The background test or a foreground test begins a group on bank `b` (R247). A foreground test waits neither for the gap nor for the
idle run (R252). -/
def bgGroupBegin (s : State) (b : Nat) : State :=
  let unit := physUnit s b 0
  let k := bankOf s b
  if !coreOn s || !bankPresent s.variant b || k.borrow.isSome || bankRacking s b ||
      !(regionState s (b / 8) = RS_ACTIVE || regionState s (b / 8) = RS_DEFERRED) then s
  else if fgOnBank s b then fgBeginGroup s b
  else if rdB s R_TST_BG TST_BG_BG_EN && bitOf (rd s R_TST_BG_BANKS).toNat b && 64 ≤ k.idleRun && gapOver s k.groupEnd &&
      !testPaused s && regionState s (b / 8) = RS_ACTIVE then
    borrowGroup s b unit (rdF s (R_TST_BGPOS unit) TST_BGPOS_GROUP) (rdF s R_TST_BG TST_BG_ALGO) false false
  else s

/-- BG_GROUP_BEGIN (R247). -/
def execBgGroupBegin (bank : BitVec 6) (s : State) : Host.Outcome State Fault Refusal := .next (bgGroupBegin s bank.toNat)

/-- Record the failing lines of a unit that a march has found (R243). -/
def marchFinds (s : State) (unit : Nat) (ls : List (Nat × Nat)) : State := ls.foldl (fun s l => lineFails s unit l.1 l.2 false) s

/-! ### Runs on units that no arbiter serves -/

/-- The run on a unit without an arbiter. -/
def agentOf (s : State) (u : Nat) : Option TestRun := s.test.agents.find? (fun r => r.unit = u)

/-- Take a run away. -/
def dropAgent (s : State) (u : Nat) : State := { s with test := { s.test with agents := s.test.agents.filter (fun r => r.unit != u) } }

/-- A run begins on a unit without an arbiter; an earlier one of the unit is given up. -/
def addAgent (s : State) (r : TestRun) : State :=
  { s with test := { s.test with agents := s.test.agents.filter (fun x => x.unit != r.unit) ++ [r] } }

/-- SPARE_TEST_PASS_BEGIN (R247): a destructive pass over a FREE spare begins. -/
def execSpareTestPassBegin (spare : BitVec 1) (s : State) : Host.Outcome State Fault Refusal :=
  let i := spare.toNat
  let u := 64 + i
  if coreOn s && rdB s R_TST_BG TST_BG_SPARES && (freeSpares s).contains i && !testPaused s && s.test.fgUnit != some u &&
      (agentOf s u).isNone && gapOver s (sget none s.test.spareEnd i) then
    .next (addAgent s (newRun u 0 0 false true))
  else .next s

/-- A background pass over a spare has ended: it is counted, and the SC marks a spare that failed UNUSABLE (R247, R258). -/
def spareDone (s : State) (r : TestRun) : State :=
  let i := r.unit - 64
  let s := clearUnit (dropAgent s r.unit) r.unit
  let s := addWrap { s with test := { s.test with spareEnd := sset none s.test.spareEnd i (some s.time) } } (R_TST_BGPOS r.unit) TST_BGPOS_PASSES 1
  if r.failed.isEmpty || s.power.scHalted then s else setSpareState s i 3

/-- What follows an access of a run on a unit without an arbiter: a spare's pass or a foreground group that has ended, and the next
group. A destructive foreground run stays until FOREGROUND_TEST_END. -/
def agentNext (s : State) (r : TestRun) : State :=
  if r.phase != .ended then addAgent s r
  else if !r.foreground then spareDone s r
  else if r.destructive then addAgent s r
  else
    let s := if r.yielding then dropAgent s r.unit else fgGroupDone (dropAgent s r.unit)
    if s.test.fgGroup < s.test.fgEnd && !s.test.fgAborting && !r.yielding then
      addAgent s (newRun r.unit s.test.fgGroup s.test.fgAlgo true false)
    else s

/-- Whether a run on a unit without an arbiter has its access in this cycle: a store's, when its store cycle is free (R251); a pass over a
spare, while SPARES is 1 (R247; it rests otherwise, DESIGN CHOICE, log entry 83). -/
def agentTurn (s : State) (r : TestRun) : Bool :=
  runReady s.time r && (r.foreground || (!testPaused s && rdB s R_TST_BG TST_BG_SPARES)) &&
  (if r.unit = 66 then s.semServed != some s.time else if r.unit = 67 then s.mbxServed != some s.time else true)

/-- One access of a run on a unit without an arbiter. -/
def agentStep (s : State) (r : TestRun) : State :=
  if agentTurn s r then
    let s := if r.unit = 66 then { s with semServed := some s.time } else if r.unit = 67 then { s with mbxServed := some s.time } else s
    let x := runAccess (occur s EV_TEST) r
    agentNext x.1 x.2
  else s

/-- The runs on units without an arbiter, in a core cycle: one access each. -/
def agentsCycle (s : State) : State := if coreOn s then s.test.agents.foldl agentStep s else s

/-- End every group that the background test has borrowed (R247, R352, R358). -/
def yieldBackground (s : State) : State :=
  (List.range 64).foldl (fun s b => match (bankOf s b).borrow with
    | some bo => if bo.foreground then s else yieldGroup s b
    | none => s) s

/-- A write of TST_BG: BG_EN cleared ends each borrowed group. -/
def wrTstBg (s : State) (v : Word64) : State :=
  let s := plainWrite s R_TST_BG v
  if rdB s R_TST_BG TST_BG_BG_EN then s else yieldBackground s

/-! ### Foreground tests -/

/-- Whether a unit is being racked, as source or as target (R246). -/
def unitRacking (s : State) (u : Nat) : Bool :=
  (List.range (numSpares s.variant)).any (fun i => spareState s i = 1 &&
    (u = 64 + i || dataBank s u = some (spareBank s i)))

/-- The region that a unit's power follows (R348). -/
def unitRegion (s : State) (u : Nat) : Option Nat :=
  if u < 64 then some (u / 8) else (dataBank s u).map (fun b => b / 8)

/-- The refusal code of a TST_CMD with START; 0 for none (R253, R262). -/
def tstCmdCode (s : State) (v : Word64) : Nat :=
  let u := getF v TST_CMD_UNIT
  let mode := getF v TST_CMD_MODE
  let destroys := mode = 2 || 66 ≤ u
  let inService := 66 ≤ u || (dataBank s u).isSome
  let allowed := if inService then hasF v TST_CMD_EMPTY else u < 64 || spareState s (u - 64) = 0
  if rdF s R_TST_STAT TST_STAT_STATE = 1 then 1
  else if mode = 3 || (mode = 2 && !allowed) then 2
  else if unitRacking s u || (match unitRegion s u with | some h => regionState s h != RS_ACTIVE | none => false) then 3
  else if 66 ≤ u && ((List.range (numPorts s.variant)).any (fun p => rdF s (R_LPH_STAT p) LPH_STAT_STATE = 5) ||
      (List.range (numEngines s.variant)).any (fun e => rdF s (R_ENG_STAT e) ENG_STAT_STATE != 2)) then 4
  else if (66 ≤ u && mode = 1) || (mode = 1 && 1024 < getF v TST_CMD_GROUP) then 5
  else if destroys && u < 66 && !allowed then 2
  else 0

/-- A foreground test begins (R252): background testing of the unit gives up its group first. -/
def fgBegin (s : State) (u : Nat) : State :=
  if u < 66 then
    match dataBank s u with
    | some b => fgBeginGroup (yieldGroup s b) b
    | none => addAgent s (newRun u s.test.fgGroup s.test.fgAlgo true (s.test.fgMode = 2))
  else addAgent s (newRun u s.test.fgGroup s.test.fgAlgo true (s.test.fgMode = 2))

/-- A write of TST_CMD (R252, R253); UNIT may not name an absent unit (R4). -/
def wrTstCmd (s : State) (v : Word64) : Written :=
  let u := getF v TST_CMD_UNIT
  if !unitPresent s.variant u then refusedWith s .absent
  else if acts v TST_CMD_START then
    if tstCmdCode s v != 0 then refusedWith (wrF s R_TST_STAT TST_STAT_CODE (tstCmdCode s v)) .range
    else
      let s := plainWrite s R_TST_CMD v
      let mode := if 66 ≤ u then 2 else getF v TST_CMD_MODE
      let g := if mode = 1 then getF v TST_CMD_GROUP else 0
      let s := wr s R_TST_STAT 1
      let s := { s with test := { s.test with fgUnit := some u, fgMode := mode, fgAlgo := getF v TST_CMD_ALGO,
                                              fgEmpty := hasF v TST_CMD_EMPTY, fgGroup := g, fgFails := 0, fgAborting := false,
                                              fgEnd := if mode = 1 then g + 1 else 1025 } }
      accepted (fgBegin s u)
  else accepted (wrF (plainWrite s R_TST_CMD v) R_TST_STAT TST_STAT_CODE 0)

/-- Clear the semaphore store as a full SEM_CLEAR does (R251, R93). -/
def clearSemStore (s : State) : State := clearUnit s 66

/-- Clear the mailbox store as a full MBX_CLEAR does (R251, R132). -/
def clearMbxStore (s : State) : State :=
  (List.range (numMailboxes s.variant)).foldl (fun s n =>
    wrB (mbxPut s n [(6, leBytes 16 0 ++ leBytes 8 1 ++ leBytes 8 0)]) (R_MBX_CTL n) MBX_CTL_OPEN false) (clearUnit s 67)

/-- A test ends: PASSED, or FAILED when a line failed; a retirement that waited for it starts (R255), and a change of its region that was
deferred takes effect (R252, R246). -/
def fgFinish (s : State) (u : Nat) : State :=
  let s := wrF s R_TST_STAT TST_STAT_STATE (if s.test.fgFails = 0 then 2 else 3)
  let s := { s with test := { s.test with fgUnit := none, fgAborting := false, fgEmpty := false } }
  let s := retireStart s
  match unitRegion s u with
  | some h => settleDeferred s h
  | none => s

/-- What a destructive test leaves: the unit clean and zero (R245, R251). -/
def fgClear (s : State) (u : Nat) : State :=
  if u = 66 then clearSemStore s else if u = 67 then clearMbxStore s else clearUnit s u

/-- The bank in whose test slots a foreground test of a unit runs, when an arbiter serves the unit. -/
def fgBank (s : State) (u : Nat) : Option Nat := if u < 66 then dataBank s u else none

/-- The run of the foreground test of a unit. -/
def fgRun (s : State) (u : Nat) : Option TestRun :=
  (match fgBank s u with
   | some b => (bankOf s b).borrow
   | none => agentOf s u).filter (fun r => r.foreground && r.unit = u)

/-- Take the run of the foreground test of a unit away. -/
def fgDropRun (s : State) (u : Nat) : State :=
  match fgBank s u with
  | some b => if (fgRun s u).isSome then setBank s b { bankOf s b with borrow := none } else s
  | none => dropAgent s u

/-- Whether a foreground test is over: its destructive run has ended, or its groups have all been run, or given up, or its unit has come
to be racked (R246, R252). -/
def fgOver (s : State) (u : Nat) : Bool :=
  match fgRun s u with
  | some r => r.phase = .ended
  | none => s.test.fgGroup = s.test.fgEnd || s.test.fgAborting || unitRacking s u

/-- A destructive test has ended: the unit is clean and zero (R245, R251), and the SC marks a FREE spare that failed UNUSABLE (R258). -/
def fgDestroyed (s : State) (u : Nat) : State :=
  let s := wrF (fgClear (fgDropRun s u) u) R_TST_STAT TST_STAT_GROUPS (if 66 ≤ u then 0 else 1025)
  if 64 ≤ u && u < 66 && spareState s (u - 64) = 0 && s.test.fgFails != 0 && !s.power.scHalted then setSpareState s (u - 64) 3 else s

/-- FOREGROUND_TEST_END (R252). -/
def execForegroundTestEnd (s : State) : Host.Outcome State Fault Refusal :=
  match s.test.fgUnit with
  | none => .next s
  | some u => if fgOver s u then .next (fgFinish (if s.test.fgMode = 2 && (fgRun s u).isSome then fgDestroyed s u else s) u) else .next s

/-- ABORT (R252): a preserving test gives up its group and ends once it is restored; a destructive one stops at once and leaves its unit
undefined. -/
def abortStep (s : State) : State :=
  match s.test.fgUnit with
  | none => s
  | some u =>
    if s.test.fgMode = 2 then
      let s := fgDropRun s u
      fgFinish { s with test := { s.test with undef := (u, s.time) :: s.test.undef.filter (fun x => x.1 != u) } } u
    else
      let s := { s with test := { s.test with fgAborting := true } }
      let s := match fgBank s u, fgRun s u with
        | some b, some _ => yieldGroup s b
        | none, some r => if runHolds r then addAgent s (yieldRun s.time r) else dropAgent s u
        | _, none => s
      if (fgRun s u).isNone then fgFinish s u else s

/-- A write of TST_CTL: STAT_CLEAR clears TST_HOLDS, ABORT ends the foreground test. -/
def wrTstCtl (s : State) (v : Word64) : State :=
  let s := if acts v TST_CTL_STAT_CLEAR then noteCleared (wr s R_TST_HOLDS 0) 0x12 else s
  if acts v TST_CTL_ABORT then abortStep s else s

/-- A write of TST_RESULT: VALID written as 1 clears VALID and FAILS. -/
def wrTstResult (s : State) (v : Word64) : State :=
  if acts v TST_RESULT_VALID then wrF (wrB s R_TST_RESULT TST_RESULT_VALID false) R_TST_RESULT TST_RESULT_FAILS 0 else s

/-! ### Remap, retirement, engine self-test -/

/-- A write of RMP_CMD (R254); UNIT may not name an absent unit (R4). -/
def wrRmpCmd (s : State) (v : Word64) : Written :=
  let u := getF v RMP_CMD_UNIT
  if 65 < u || !unitPresent s.variant u then refusedWith s .absent
  else if acts v RMP_CMD_GO then
    let line := getF v RMP_CMD_LINE
    let code := if rdB s R_RMP_STAT RMP_STAT_BUSY then 2
      else if (u < 64 && (dataBank s u).isNone) || (64 ≤ u && spareState s (u - 64) = 0) then 3 else 0
    if code != 0 then refusedWith (wrF s R_RMP_STAT RMP_STAT_CODE code) .range
    else
      let s := wr (plainWrite s R_RMP_CMD v) R_RMP_STAT 1
      if s.integ.remaps.any (fun j => j.unit = u && j.line = line) then
        accepted { s with integ := { s.integ with remaps := s.integ.remaps.map (fun j =>
          if j.unit = u && j.line = line then { j with ordered := true } else j) } }
      else accepted (startRemap s u line true)
  else accepted (wrF (plainWrite s R_RMP_CMD v) R_RMP_STAT RMP_STAT_CODE 0)

/-- Whether a racking job runs. -/
def rackRuns (s : State) : Bool := (List.range 2).any (fun i => spareState s i = 1)

/-- The refusal code of a request to retire bank `b` on an engine; 0 for none (R262). -/
def retireCode (s : State) (b : Nat) (sel : Option Nat) : Nat :=
  let free := !(freeSpares s).isEmpty
  let retired := (List.range 2).any (fun i => spareState s i = 2 && spareBank s i = b)
  if !free && !retired && !bankRacking s b then 1
  else if bankRacking s b || (retired && !free) then 2
  else if (match sel with | some e => !(onlineEngines s).contains e | none => false) then 3
  else if rdB s R_RET_STAT RET_STAT_PENDING || rackRuns s then 4
  else if !rdB s R_PWR_DEVSTAT PWR_DEVSTAT_READY then 5
  else 0

/-- Ask the SC to retire a bank (R255). -/
def retireRequest (s : State) (b : Nat) (sel : Option Nat) : State :=
  retireStart (wrB { s with test := { s.test with retPend := some (b, sel) } } R_RET_STAT RET_STAT_PENDING true)

/-- A write of RET_CMD (R255); BANK and ENGINE may not name absent units (R4). -/
def wrRetCmd (s : State) (v : Word64) : Written :=
  let b := getF v RET_CMD_BANK
  if !bankPresent s.variant b || numEngines s.variant ≤ getF v RET_CMD_ENGINE then refusedWith s .absent
  else if acts v RET_CMD_START then
    let sel := if hasF v RET_CMD_ENG_SEL then some (getF v RET_CMD_ENGINE) else none
    if retireCode s b sel != 0 then refusedWith (wrF s R_RET_STAT RET_STAT_CODE (retireCode s b sel)) .range
    else accepted (retireRequest (wrF (plainWrite s R_RET_CMD v) R_RET_STAT RET_STAT_CODE 0) b sel)
  else accepted (wrF (plainWrite s R_RET_CMD v) R_RET_STAT RET_STAT_CODE 0)

/-- SC_REPAIR_POLICY (R255): the SC makes the same request of itself, on the default engine; what a register write would be
refused for, it does not do. -/
def execScRepairPolicy (bank : BitVec 6) (s : State) : Host.Outcome State Fault Refusal :=
  let b := bank.toNat
  if coreOn s && !s.power.scHalted && bankPresent s.variant b && retireCode s b none = 0 then .next (retireRequest s b none)
  else .next s

/-- A write of TST_ENG (R260): the self-test of an offline engine runs for 50 µs; ENGINE may not name an absent engine (R4). -/
def wrTstEng (s : State) (v : Word64) : Written :=
  let e := getF v TST_ENG_ENGINE
  if numEngines s.variant ≤ e then refusedWith s .absent
  else if acts v TST_ENG_GO then
    if rdF s (R_ENG_STAT e) ENG_STAT_STATE != 2 then refusedWith (wrF s R_TST_STAT TST_STAT_CODE 6) .range
    else
      let s := wrF (plainWrite s R_TST_ENG v) R_TST_STAT TST_STAT_CODE 0
      let s := wrF s R_TST_ENGRES TST_ENGRES_RUNNING (rdF s R_TST_ENGRES TST_ENGRES_RUNNING ||| 2 ^ e)
      accepted { s with test := { s.test with selfEnd := s.test.selfEnd.filter (fun x => x.1 != e) ++ [(e, s.time + 80000)] } }
  else accepted (wrF (plainWrite s R_TST_ENG v) R_TST_STAT TST_STAT_CODE 0)

end Sys2Proof.Machine
end

