-- ==== Sys2Proof/Machine/Access.lean ====
section
/-! DEFINITION. Accesses to the data array and the two stores, from any requester: the checks of decode in the order of R34
(R27, R29, R33, R72, R79, R96, R97, R121, R122, R336), admission (R350, R358, R416), the vat lookup (R98, R102) and the way to a
bank or store queue (R49, R52, R128). -/

namespace Sys2Proof.Machine

/-- The address spaces (R25). -/
inductive Space where
  | array | sem | mbx | reg | nothing
  deriving DecidableEq, Repr

/-- The space of an address. -/
def spaceOf (addr : Nat) : Space :=
  if addr < 0x10000000 then .array
  else if 0xFE000000 ≤ addr && addr < 0xFE400000 then .sem
  else if 0xFE400000 ≤ addr && addr < 0xFE500000 then .mbx
  else if 0xFF000000 ≤ addr && addr < 0x100000000 then .reg
  else .nothing

/-- Whether an operation is a READ or a WRITE. -/
def plainOp (o : Op) : Bool := o = .read || o = .write

/-- The addresses of the bytes of a request. -/
def reqBytes (r : Req) : List Nat := (List.range r.len).map (fun i => r.addr + i)

/-- Whether a WRITE enables every byte below its length. -/
def allEnabled (r : Req) : Bool := (List.range r.len).all (fun i => bitOf r.mask.toNat i)

/-! ### Decode -/

/-- Check (1) of R34: any absent byte. -/
def absentAccess (v : Variant) (r : Req) : Bool :=
  match spaceOf r.addr with
  | .array => !(reqBytes r).all (arrayPresent v) || (r.op = .acc && (r.opfmt = 8 || r.opfmt = 9) && !bigVariant v)
  | .sem => (reqBytes r).any (fun a => spaceOf a != .sem || 0x30 ≤ a % 64)
  | .mbx => (reqBytes r).any (fun a => spaceOf a != .mbx || 0xE0 ≤ a % 256 || numMailboxes v ≤ (a - 0xFE400000) / 256)
  | .reg => false
  | .nothing => true

/-- Whether a requester has the rights of the owner side of mailbox `n` (R122). -/
def ownerSide (s : State) (who : Who) (n : Nat) : Bool :=
  match rightsPort s who with
  | some p => portPrivileged s p || n / 512 = p
  | none => true

/-- Whether a requester has the rights of a privileged port or the SC (R122, R135). -/
def privilegedRights (s : State) (who : Who) : Bool :=
  match rightsPort s who with
  | some p => portPrivileged s p
  | none => true

/-- Whether the mailbox rights allow a byte at an offset to be read or written (table "Mailbox access rights"). -/
def mbxByteAllowed (s : State) (r : Req) (n off : Nat) : Bool :=
  if r.op = .read then ownerSide s r.who n
  else if off < 0xC0 then ownerSide s r.who n || mbxOpen s n
  else if off < 0xC8 then true
  else if 0xD0 ≤ off && off < 0xD8 then privilegedRights s r.who
  else ownerSide s r.who n

/-- Whether a WRITE enables no byte, and so changes nothing (R47). -/
def emptyWrite (r : Req) : Bool := r.op = .write && !(List.range r.len).any (fun i => bitOf r.mask.toNat i)

/-- The addresses of the bytes that a request may change: those that a WRITE enables, all of another (R46, R47). -/
def changedBytes (r : Req) : List Nat :=
  if r.op = .write then ((List.range r.len).filter (fun i => bitOf r.mask.toNat i)).map (fun i => r.addr + i) else reqBytes r

/-- Whether a request would change mirrored state, as far as decode can tell (R336). -/
def changesMirrored (s : State) (r : Req) : Bool :=
  !emptyWrite r &&
  match spaceOf r.addr with
  | .array => r.op != .read && r.op != .rdcv && (changedBytes r).any (mirroredAddr s)
  | .sem =>
    let o := r.addr % 64
    plainOp r.op && r.len = 8 &&
    (if r.op = .read then o = 0 || o = 0x10 else allEnabled r && (o = 0 || o = 8 || o = 0x18 || o = 0x28))
  | .mbx =>
    let o := r.addr % 256
    plainOp r.op && (if r.op = .read then o = 0xC8 && r.len = 8 else o < 0xC0 || o = 0xC0 || o = 0xD0)
  | _ => false

/-- Check (2) of R34 for the array and the stores. -/
def deniedAccess (s : State) (r : Req) : Bool :=
  (r.who != .pairFwd && pairRefuses s && changesMirrored s r) ||
  (match spaceOf r.addr with
   | .sem => r.op = .write && (reqBytes r).any (fun a => a % 64 < 8) && !isPrivileged s r.who
   | .mbx => plainOp r.op && !(reqBytes r).all (fun a => mbxByteAllowed s r ((a - 0xFE400000) / 256) (a % 256))
   | _ => false)

/-- Check (3) of R34: an opcode class that the space does not accept, or an undefined OPFMT (R96). -/
def rangeAccess (r : Req) : Bool :=
  match spaceOf r.addr with
  | .array => r.op = .acc && !opfmtDefined r.opfmt
  | _ => !plainOp r.op

/-- Check (4) of R34: length, alignment or shape (R72, R79, R97, R102, R121). -/
def misalignedAccess (r : Req) : Bool :=
  let shape (n : Nat) : Bool := n ≤ r.len && r.len ≤ 64 && r.len % n = 0 && r.addr % n = 0 && r.addr % 64 + r.len ≤ 64
  match spaceOf r.addr with
  | .array =>
    match r.op with
    | .atomic _ => !((r.len = 4 || r.len = 8) && r.addr % r.len = 0)
    | .acc => !shape (storedSize r.opfmt)
    | .rdcv => !shape 16
    | _ => false
  | .sem => !(r.len = 8 && r.addr % 8 = 0 && (r.op = .read || allEnabled r))
  | .mbx =>
    let o := r.addr % 256
    if o + r.len ≤ 0xC0 then false
    else !(0xC0 ≤ o && r.len = 8 && o % 8 = 0 && (r.op = .read || allEnabled r))
  | _ => false

/-- The first failing check of decode, for an access to the array or a store; a register address is refused to an engine (R38). -/
def decodeAccess (s : State) (r : Req) : Option Status :=
  if r.op = .fence then none
  else if spaceOf r.addr = .reg then some .denied
  else if absentAccess s.variant r then some .absent
  else if deniedAccess s r then some .denied
  else if rangeAccess r then some .range
  else if misalignedAccess r then some .misalign
  else none

/-- Counters of a request answered DENIED at decode (R92, R122, R336). -/
def countDenied (s : State) (r : Req) : State :=
  let s := if pairRefuses s && changesMirrored s r then addSat s R_PR_COUNTS PR_COUNTS_DENIED 1 else s
  match spaceOf r.addr with
  | .mbx => if plainOp r.op then countSat s 0x15 R_MBX_DENIED MBX_DENIED_COUNT 1 else s
  | .sem => if r.op = .write && r.addr % 64 = 8 then countSat s 0x14 R_SEM_DENIED SEM_DENIED_COUNT 1 else s
  | _ => s

/-! ### Admission -/

/-- Whether a READ or WRITE of a store is one that HOLD refuses (R89, R130, table "Requests in HOLD"). -/
def holdRefuses (r : Req) : Bool :=
  match r.op with
  | .read =>
    match spaceOf r.addr with
    | .sem => r.addr % 64 = 0 || r.addr % 64 = 0x10
    | .mbx => r.addr % 256 = 0xC8
    | _ => false
  | .rdcv => false
  | .fence => false
  | _ => true

/-- Whether HOLD answers an access RETRY; every access of a rack engine is (R358). -/
def holdRetry (s : State) (r : Req) : Bool :=
  inHold s && (holdRefuses r || (match r.who with | .engine _ _ => true | _ => false))

/-- Whether a fatal error has been detected and not ended by a reset (R416). -/
def fatalState (s : State) : Bool := s.power.fatalAt.isSome

/-! ### Destinations -/

/-- The trace entry of a request, or of half of one, refused before it reached a destination (R413, R414). -/
def traceRefused (s : State) (r : Req) (half2 : Bool) (st : Status) : State :=
  let dest := match spaceOf r.addr with
    | .array => 0
    | .sem => 1
    | .mbx => 2
    | _ => 3
  trace s { time := s.time, addr := r.addr, req := whoId r.who, slot := whoSlot r.who, half2 := half2, opcode := r.code, len := r.len,
            status := st, ce := false, sup := false, unit := 67, gsize := 1, gpos := 0, rot := 0, tag := r.tag, data := [],
            cls := traceClass r.op, dest := dest }

/-- Answer a request without a destination: every half of it at once. -/
def refuse (s : State) (r : Req) (uid halves : Nat) (st : Status) : State :=
  let s := traceRefused s r false st
  (List.range halves).foldl (fun s h => answerPart s r.who uid h st false false [] 0) s

/-- Whether a request is split under R49. -/
def isSplit (r : Req) : Bool := spaceOf r.addr = .array && 64 < r.addr % 64 + r.len

/-- The halves of an array request (R49): number, address, length, mask and data. -/
def halvesOf (r : Req) : List (Nat × Nat × Nat × BitVec 64 × List Byte) :=
  if isSplit r then
    let n := 64 - r.addr % 64
    [(0, r.addr, n, r.mask, r.data.take n), (1, r.addr + n, r.len - n, r.mask >>> n, r.data.drop n)]
  else [(0, r.addr, r.len, r.mask, r.data)]

/-- Send the halves of an array request to their banks; a half in a region that is off answers RETRY on its own (R50, R350). An ACC or RDCV
takes OP and SCALE as its lookup finds them, whatever is written before it is served (DESIGN CHOICE, log entry 65). -/
def toBanks (s : State) (r : Req) (uid : Nat) (vat : Option Nat) : State :=
  let gen := match vat with
    | some n => lookupGen s n
    | none => 0
  let ctl := match vat with
    | some n => rdBefore s (R_VAT_CTL n)
    | none => 0
  let op := getF ctl VAT_CTL_OP
  let scale := getF ctl VAT_CTL_SCALE
  (halvesOf r).foldl (fun s h =>
    let (k, addr, len, mask, data) := h
    if regionRefuses s (regionOf addr) then
      answerPart (traceRefused s { r with addr := addr, len := len } (k = 1) .retry) r.who uid k .retry false false [] 0
    else
      let b := bankIndex s.variant addr
      let s := sampleQueued s r.who uid 0 b (queueAt (bankOf s b) (whoId r.who)).length
      enterBank s { uid := uid, half := k, who := r.who, op := r.op, code := r.code, addr := addr, len := len, mask := mask,
                    data := data, opfmt := r.opfmt, tally := r.tally, vat := vat, vatGen := gen, vop := op, vscale := scale,
                    entered := s.time, setAside := none, tag := r.tag }) s

/-- Whether a vat's format is not the one that an ACC or RDCV asks for (R98, R102). -/
def fmtDiffers (s : State) (r : Req) (n : Nat) : Bool :=
  let fmt := getF (rdBefore s (R_VAT_CTL n)) VAT_CTL_FMT
  if r.op = .acc then !opfmtMatches r.opfmt fmt else fmt != 8

/-- Whether an ACC or RDCV would meet a vat of another format: a change of the vat's entry (R98, R102). -/
def meetsMismatch (s : State) (r : Req) : Bool :=
  (r.op = .acc || r.op = .rdcv) && spaceOf r.addr = .array && (decodeAccess s r).isNone &&
  (match vatLookup s r.addr with
   | some n => fmtDiffers s r n
   | none => false)

/-- Whether such a change waits for a UTAG (R332). -/
def lookupBlocked (s : State) (r : Req) : Bool := pairBlocked s (storePort s) && meetsMismatch s r

/-- An ACC or RDCV that meets a vat of another format (R98, R102): MISMATCH rises by 1, and RANGE is answered when the partner has accepted
the entry (R334). -/
def vatMismatch (s : State) (r : Req) (uid n : Nat) : State :=
  let s := addSat (traceRefused s r false .range) (R_VAT_LOSS n) VAT_LOSS_MISMATCH 1
  forwardVat (answerPart s r.who uid 0 .range false false [] 1) n [.release r.who uid]

/-- The vat lookup of an ACC or RDCV (R98, R102), and the way to the bank. -/
def toVat (s : State) (r : Req) (uid : Nat) : State :=
  if regionRefuses s (regionOf r.addr) then refuse s r uid 1 .retry
  else
    match vatLookup s r.addr with
    | none => refuse s r uid 1 .novat
    | some n => if fmtDiffers s r n then vatMismatch s r uid n else toBanks s r uid (some n)

/-- The operation of a semaphore request (table "Semaphore operations"). -/
def semOpOf (r : Req) (uid : Nat) (priv : Bool) : StoreOp :=
  let o := r.addr % 64
  let rdk := r.op = .read
  let kind : StoreKind := match o / 8 with
    | 0 => if rdk then .semTry else .semState
    | 1 => .semRelease
    | 2 => .semTicket
    | 3 => .semServe
    | 4 => .semPeek
    | _ => if rdk then .semNotifyRead else .semNotifyWrite
  let effect := match o / 8 with
    | 1 => !rdk
    | 2 => rdk
    | 3 => !rdk
    | 4 => rdk
    | _ => true
  { uid := uid, who := r.who, writer := r.who, priv := priv, kind := kind, effect := effect, n := (r.addr - 0xFE000000) / 64, off := o, len := r.len,
    mask := r.mask, data := r.data, value := leNat (sliceBytes r.data 0 8), code := if rdk then 1 else 2, tag := r.tag,
    entered := 0 }

/-- The operation of a mailbox request (R121, table "Mailbox access rights"). -/
def mbxOpOf (r : Req) (uid : Nat) (priv : Bool) : StoreOp :=
  let o := r.addr % 256
  let rdk := r.op = .read
  let kind : StoreKind := if rdk then (if o = 0xC8 then .mbxClaim else .mbxRead)
    else if o = 0xC0 then .mbxDoorbell else if o = 0xD0 then .mbxBinding else .mbxPayloadWrite
  { uid := uid, who := r.who, writer := r.who, priv := priv, kind := kind, effect := rdk || o < 0xC0 || o = 0xC0 || o = 0xD0,
    n := (r.addr - 0xFE400000) / 256, off := o, len := r.len, mask := r.mask, data := r.data,
    value := leNat (sliceBytes r.data 0 8), code := if rdk then 1 else 2, tag := r.tag,
    entered := 0 }

/-- An admitted request goes to its destination. -/
def deliver (s : State) (r : Req) (uid : Nat) : State :=
  match spaceOf r.addr with
  | .array =>
    match r.op with
    | .acc => toVat s r uid
    | .rdcv => toVat s r uid
    | _ => toBanks (if isSplit r then countWrap (occur s EV_SPLIT) 0x10 R_ARB_SPLITS ARB_SPLITS_COUNT 1 else s) r uid none
  | .sem =>
    let s := sampleQueued s r.who uid 1 0xFF (opsOf s.semq (whoId r.who)).length
    semEnter s (semOpOf r uid (privilegedRights s r.who))
  | .mbx =>
    let s := sampleQueued s r.who uid 2 0xFF (opsOf s.mbxq (whoId r.who)).length
    mbxEnter s (mbxOpOf r uid (privilegedRights s r.who))
  | _ => s

/-- Decode, admit and deliver an access to the array or a store; `retry` refuses it at admission. -/
def submitAccess (s : State) (r : Req) (uid : Nat) (retry : Bool) : State :=
  let halves := if isSplit r then 2 else 1
  match decodeAccess s r with
  | some .denied => refuse (countDenied s r) r uid halves .denied
  | some st => refuse s r uid halves st
  | none => if retry then refuse s r uid halves .retry else deliver s r uid

end Sys2Proof.Machine
end

