-- ==== Sys2Proof/Machine/EngineBase.lean ====
section
/-! DEFINITION. Rack engines, the shared part: rights and accesses of a queue (R135, R151), reissue (R145, R350), what an answer does
to the descriptor in progress (R147–R150, R440), starting descriptors (R143, R147) and queue states (R136, R169–R171). -/

namespace Sys2Proof.Machine

/-! ### Descriptor fields and statuses -/

/-- COND -/
def dCond (d : List Byte) : Nat := dByte d 1 % 4
/-- ACTION -/
def dAction (d : List Byte) : Nat := bitsOf (dByte d 1) 3 2
/-- ORDERED -/
def dOrdered (d : List Byte) : Bool := bitOf (dByte d 1) 4
/-- TALLY -/
def dTally (d : List Byte) : Bool := bitOf (dByte d 1) 5
/-- OPFMT -/
def dOpfmt (d : List Byte) : Nat := dByte d 3
/-- STATUS_ADDR -/
def dStatusAddr (d : List Byte) : Nat := dWord d 56 4
/-- POST_MBX -/
def dPostMbx (d : List Byte) : Nat := dWord d 60 2 % 4096
/-- USER -/
def dUser (d : List Byte) : Nat := dWord d 62 2
/-- Addition of addresses modulo 2^32 (R150). -/
def addr32 (a b : Nat) : Nat := (a + b) % 2 ^ 32

/-! Descriptor statuses (table "Descriptor statuses"). -/

/-- OK -/
def DS_OK : Nat := 0x00
/-- ABSENT -/
def DS_ABSENT : Nat := 0x01
/-- DENIED -/
def DS_DENIED : Nat := 0x02
/-- MISALIGN -/
def DS_MISALIGN : Nat := 0x03
/-- RANGE -/
def DS_RANGE : Nat := 0x04
/-- NOVAT -/
def DS_NOVAT : Nat := 0x05
/-- BUSY -/
def DS_BUSY : Nat := 0x07
/-- UE -/
def DS_UE : Nat := 0x08
/-- POISON -/
def DS_POISON : Nat := 0x09
/-- BADDESC -/
def DS_BADDESC : Nat := 0x0A
/-- MISCOMPARE -/
def DS_MISCOMPARE : Nat := 0x10
/-- HELD -/
def DS_HELD : Nat := 0x11
/-- TIMEOUT -/
def DS_TIMEOUT : Nat := 0x12
/-- PORTDOWN -/
def DS_PORTDOWN : Nat := 0x13
/-- ABORTED -/
def DS_ABORTED : Nat := 0x14

/-- The descriptor status that an access's answer gives. A RETRY that is not reissued ends with RANGE (R350). -/
def descStatus : Status → Nat
  | .ok => DS_OK
  | .absent => DS_ABSENT
  | .denied => DS_DENIED
  | .misalign => DS_MISALIGN
  | .range => DS_RANGE
  | .retry => DS_RANGE
  | .novat => DS_NOVAT
  | .busy => DS_BUSY
  | .ue => DS_UE
  | .poison => DS_POISON

/-- Whether a descriptor status is of class fault. -/
def faultClass (st : Nat) : Bool := st = DS_UE || st = DS_POISON || st = DS_BADDESC

/-! ### Queues and runs -/

/-- Engine state (ENG_STAT.STATE): 0 ONLINE, 1 GOING_OFFLINE, 2 OFFLINE, 3 FROZEN, 4 RESETTING. -/
def engState (s : State) (e : Nat) : Nat := rdF s (R_ENG_STAT e) ENG_STAT_STATE
/-- Set the engine state. -/
def setEngState (s : State) (e v : Nat) : State := wrF s (R_ENG_STAT e) ENG_STAT_STATE v

/-- A queue that leaves STOPPED, FAULT or DISABLED: RUNNING, or IDLE when empty; OFFLINE while its engine is not online
(DESIGN CHOICE, log entry 78). -/
def toRunOrIdle (s : State) (e q : Nat) : State :=
  if engState s e = 0 then runOrIdle s e q
  else setQState (setQueue s e q { queueOf s e q with stopping := true, offlined := true }) e q QS_OFFLINE

/-- Replace the run of a descriptor. -/
def mapRun (s : State) (e q index : Nat) (f : Run → Run) : State :=
  let k := queueOf s e q
  setQueue s e q { k with runs := k.runs.map (fun r => if r.index = index then f r else r) }

/-- The run of a descriptor. -/
def runOf (s : State) (e q index : Nat) : Option Run := (queueOf s e q).runs.find? (fun r => r.index = index)

/-- A descriptor's work has ended with a status (R148). -/
def endRun (r : Run) (st result : Nat) : Run := { r with status := st, result := result, ended := true }

/-- A failing access ends a descriptor's work: the first failure gives the status, and its address the result (R150, R440). -/
def failRun (r : Run) (st addr : Nat) : Run :=
  if r.ended then r else { r with status := st, failAddr := addr, result := addr, ended := true }

/-- A new run. -/
def blankRun (index : Nat) (desc : List Byte) (began : Nat) : Run :=
  { index := index, desc := desc, began := began, status := 0, failAddr := 0, result := 0, ce := false, rpos := 0, wpos := 0,
    xpos := 0, buf := [], buf2 := [], entries := [], crc := 0, phase := 0, ended := false, skipped := false, actionPhase := 0,
    recheck := false, matchTime := 0, actionFault := false, lockWaited := false,
    mctx := { k := 0, lockSem := 0, header := 0, pool := 0, count := 0 }, found := [], seen := none }

/-- The accesses of a descriptor still outstanding. -/
def accsOf (k : Queue) (index : Nat) : List EngAcc := k.accs.filter (fun a => a.run = index)

/-! ### Accesses -/

/-- A request of an engine queue. -/
def engReq (e q : Nat) (op : Op) (code addr len : Nat) (data : List Byte) : Req :=
  { who := .engine e q, tag := 0, mgmt := false, ord := false, op := op, code := code, addr := addr, len := len,
    mask := BitVec.allOnes 64, opfmt := 0, tally := false, data := data }

/-- A read of a queue. -/
def engRead (e q addr len : Nat) : Req := engReq e q .read 1 addr len []
/-- A write of a queue. -/
def engWrite (e q addr : Nat) (data : List Byte) : Req := engReq e q .write 2 addr data.length data

/-- Bytes of a range from an address that lie in its line. -/
def chunkLen (addr left : Nat) : Nat := min left (64 - addr % 64)

/-- What R151 says of an access of a mover before it is issued: the status that ends the descriptor, or none. -/
def moverCheck (s : State) (addr : Nat) : Option Nat :=
  match spaceOf addr with
  | .sem => some DS_RANGE
  | .mbx =>
    if numMailboxes s.variant ≤ (addr - 0xFE400000) / 256 then some DS_ABSENT
    else if 0xC0 ≤ addr % 256 then some DS_RANGE else none
  | _ => none

/-- Whether the bank queue of an array access is full for this engine (R54, R142). -/
def bankFull (s : State) (r : Req) : Bool :=
  spaceOf r.addr = .array && arrayPresent s.variant r.addr &&
  (let k := bankOf s (bankIndex s.variant r.addr)
   8 ≤ (queueAt k (whoId r.who)).length || k.staging.any (fun x => whoId x.who = whoId r.who))

/-- An access that has been issued once. -/
def newAcc (uid run : Nat) (req : Req) (use : AccUse) : EngAcc :=
  { uid := uid, run := run, servedAt := 0, doneAt := none, req := req, use := use, left := 1, waits := 0, status := .ok, ce := false, data0 := [],
    data1 := [], busy := 0, again := none }

/-- The engine's issue slot of this cycle is used, and the access counted (R142, R175). -/
def useIssue (s : State) (e : Nat) : State :=
  occur (addWrap (setEngine s e { engineOf s e with issued := some s.time }) (R_ENG_ACCESSES e) ENG_ACCESSES_COUNT 1) (evEngine e 1)

/-- The issue slot is used for a queue. -/
def useIssueFor (s : State) (e q : Nat) : State :=
  let s := useIssue s e
  setEngine s e { engineOf s e with lastQ := q }

/-- Whether an engine's access answers RETRY at admission (R358, R416). -/
def engRetry (s : State) (r : Req) : Bool := holdRetry s r || fatalState s

/-- Issue an access for a descriptor of a queue: one issue slot of the engine (R142). -/
def issueAccess (s : State) (e q index : Nat) (use : AccUse) (r : Req) : State :=
  let (uid, s) := takeUid s
  let k := queueOf s e q
  let s := useIssueFor (setQueue s e q { k with accs := k.accs ++ [newAcc uid index r use] }) e q
  submitAccess s r uid (engRetry s r)

/-- Issue an access again (R145, R350). -/
def reissueAccess (s : State) (e q : Nat) (a : EngAcc) : State :=
  let s := mapAcc s e q a.uid (fun x =>
    { x with left := 1, waits := 0, status := .ok, ce := false, again := none, doneAt := none })
  submitAccess (useIssueFor s e q) a.req a.uid (engRetry s a.req)

/-- Whether an engine may issue in this cycle: it has a clock and its issue slot, and is neither frozen nor offline. -/
def engMayIssue (s : State) (e : Nat) : Bool :=
  coreOn s && !s.power.warmPending && e < numEngines s.variant && (engineOf s e).issued != some s.time &&
  (engState s e = 0 || engState s e = 1) && !(engineOf s e).resetting

/-! ### Answers -/

/-- Put bytes at an offset into a run's buffer. -/
def bufPut (buf : List (Nat × Byte)) (off : Nat) (bs : List Byte) : List (Nat × Byte) :=
  buf ++ (bs.zipIdx).map (fun b => (off + b.2, b.1))
/-- A byte of a run's buffer. -/
def bufByte (buf : List (Nat × Byte)) (off : Nat) : Byte := ((buf.find? (fun e => e.1 = off)).map (fun e => e.2)).getD 0
/-- Whether a range of offsets is in a run's buffer. -/
def bufHas (buf : List (Nat × Byte)) (off n : Nat) : Bool := (List.range n).all (fun i => buf.any (fun e => e.1 = off + i))
/-- The bytes of a range of offsets. -/
def bufTake (buf : List (Nat × Byte)) (off n : Nat) : List Byte := (List.range n).map (fun i => bufByte buf (off + i))
/-- Drop a range of offsets. -/
def bufDrop (buf : List (Nat × Byte)) (off n : Nat) : List (Nat × Byte) := buf.filter (fun e => e.1 < off || off + n ≤ e.1)

/-- The word that an 8-byte access returned. -/
def accWord (a : EngAcc) : Nat := leNat (sliceBytes a.data0 0 8)

/-- What a WAIT of kind 2 or 3 does with the answer to its PEEK or TRY (R160, R161): `phase` 3 says that its timeout has passed
in the meantime. -/
def waitAnswer (e : Nat) (r : Run) (w : Nat) : Run :=
  let met := !semHeld w
  if met then endRun r DS_OK (if dSub r.desc = 3 then takenWord w (.engine e 0) else w)
  else if r.phase = 3 then endRun r DS_TIMEOUT 0
  else { r with phase := 0 }

/-- What a SEMA does with its answer (R158). -/
def semaAnswer (r : Run) (w : Nat) : Run :=
  match dSub r.desc with
  | 0 => if semHeld w then endRun r DS_HELD w else endRun r DS_OK w
  | 2 => endRun r DS_OK w
  | 4 => endRun r DS_OK w
  | _ => endRun r DS_OK 0

/-- What an OK answer does to its run. A MATCH's TIME is the cycle in which its TRY took the lock (R192). -/
def okAnswer (e : Nat) (a : EngAcc) (r : Run) : Run :=
  let r := { r with ce := r.ce || a.ce }
  match a.use with
  | .statusWord => { r with actionPhase := 2 }
  | .postBell => { r with actionPhase := 4 }
  | use =>
  if r.ended then r else
  match use with
  | .source off => { r with buf := bufPut r.buf off a.data0 }
  | .other off => { r with buf2 := bufPut r.buf2 off a.data0 }
  | .entry j => { r with entries := r.entries ++ [(j, accWord a % 2 ^ 32)] }
  | .acc _ => { r with result := r.result + 1 }
  | .sema => if dOp r.desc = 0x0B then waitAnswer e r (accWord a) else semaAnswer r (accWord a)
  | .lock =>
    if semHeld (accWord a) then
      (if r.phase = 3 then { endRun r DS_TIMEOUT (accWord a) with phase := 9 } else { r with phase := 1, result := accWord a })
    else { r with phase := 4, matchTime := a.servedAt }
  | .unlock => { r with phase := 9, ended := true }
  | .walk => { r with found := r.found ++ [sliceBytes a.data0 0 a.req.len] }
  | _ => r

/-- What a failing answer does to its run: a completion action's failure is counted (R149); a failing read of a MATCH releases its lock, a
failing write is left to the MATCH (R191); a RELEASE that fails after another failure leaves that one's status (R440). -/
def badAnswer (a : EngAcc) (r : Run) : Run :=
  let r := { r with ce := r.ce || a.ce }
  match a.use with
  | .statusWord => { r with actionPhase := 2 }
  | .postBell => { r with actionPhase := 4 }
  | .lock => { failRun r (descStatus a.status) a.req.addr with phase := 9 }
  | .unlock => { (if r.status = 0 then failRun r (descStatus a.status) a.req.addr else { r with ended := true }) with phase := 9 }
  | _ =>
    if dOp r.desc = 0x08 then
      (if r.status = 0 then { r with status := descStatus a.status, failAddr := a.req.addr, result := a.req.addr,
                                     phase := if a.use = .walk then 8 else r.phase } else r)
    else failRun r (descStatus a.status) a.req.addr

/-- Whether an access of a completion action failed, and whether that puts the queue into FAULT (R149). -/
def actionFailed (a : EngAcc) : Bool := (a.use = .statusWord || a.use = .postBell) && a.status != .ok

/-- Whether an access of an engine answered RETRY is to be issued again: in HOLD, or when its region wakes or has woken (R145,
R350). One refused after a fatal error is issued again too (DESIGN CHOICE, log entry 66). -/
def retryAgain (s : State) (a : EngAcc) : Bool :=
  !(spaceOf a.req.addr = .array && regionRefuses s (regionOf a.req.addr) && !regionWakes s (regionOf a.req.addr))

/-- A pseudo-run for a descriptor whose fetch failed: opcode 0xFF, no completion action (R167). -/
def fetchFailed (s : State) (index st addr : Nat) : Run :=
  { failRun (blankRun index (BitVec.ofNat 8 0xFF :: List.replicate 63 0) s.time) st addr with phase := 99 }

/-- The messages of a PUSH whose descriptor goes: what is still to be sent or acknowledged belongs to no descriptor any more (R164). -/
def dropPushes (s : State) (gone : PushWait → Bool) : State :=
  { s with pushes := (s.pushes.map (fun w => if gone w then { w with run := 2 ^ 32 } else w)).filter (fun w =>
      !(w.run = 2 ^ 32 && (w.acked || w.failed))) }

/-- A MATCH that finds its lock held is counted once (R183, R193). -/
def lockWaitCount (s : State) (e q : Nat) (a : EngAcc) : State :=
  match runOf s e q a.run with
  | some r =>
    if a.use = .lock && a.status = .ok && semHeld (accWord a) && !r.lockWaited then
      mapRun (countSat s 0x19 (R_MC_ERR (dA r.desc % 256)) MC_ERR_LOCKWAIT 1) e q a.run (fun x => { x with lockWaited := true })
    else s
  | none => s

/-- A complete access is taken off its queue and its answer applied; BUSY and RETRY are put down for a reissue (R145). -/
def takeAnswer (s : State) (e q : Nat) (a : EngAcc) : State :=
  let k := queueOf s e q
  let at_ := a.doneAt.getD s.time
  if a.status = .retry && retryAgain s a then
    setQueue s e q { k with accs := k.accs.map (fun x => if x.uid = a.uid then { x with again := some (at_ + 1600) } else x) }
  else if a.status = .busy && a.busy < 16 then
    setQueue s e q { k with accs := k.accs.map (fun x =>
      if x.uid = a.uid then { x with again := some (at_ + 1600), busy := x.busy + 1 } else x) }
  else
    let s := if a.status = .poison then countSat s 0x11 R_INT_POISON INT_POISON_ANSWERS 1 else s
    let k := { k with accs := k.accs.filter (fun x => x.uid != a.uid) }
    match a.use with
    | .fetch index =>
      if a.status = .ok then setQueue s e q { k with fetched := k.fetched ++ [(index, a.ce, sliceBytes a.data0 0 64)] }
      else setQueue s e q { k with runs := k.runs ++ [fetchFailed s index (descStatus a.status) a.req.addr] }
    | _ =>
      let s := setQueue s e q k
      let s := if actionFailed a then addSat s (R_Q_COUNT e q) Q_COUNT_FAILED 1 else s
      let s := lockWaitCount s e q a
      mapRun s e q a.run (fun r =>
        if a.status = .ok then okAnswer e a r
        else
          let r := badAnswer a r
          if actionFailed a && (a.status = .ue || a.status = .poison) && !r.actionFault then
            { r with actionFault := true, failAddr := if faultClass r.status then r.failAddr else a.req.addr }
          else r)

/-- Apply every complete answer of a queue. -/
def collect (s : State) (e q : Nat) : State :=
  ((queueOf s e q).accs.filter (fun a => a.doneAt.isSome && a.again.isNone)).foldl (fun s a => takeAnswer s e q a) s

end Sys2Proof.Machine
end

