-- ==== Sys2Proof/Machine/Matching.lean ====
section
/-! DEFINITION. The list work of the matching assist (R176–R192), as a function of what a MATCH has read: entries and chains, the walks and
their checks, the four operations, the writes that follow and the record. A walk asks for one read at a time; it is run again with each
answer, and the writes are those of the walk that asks for nothing more. -/

namespace Sys2Proof.Machine

/-! ### The descriptor (R184) -/

/-- Context. -/
def mCtx (d : List Byte) : Nat := dA d % 256
/-- IGNORE. -/
def mIgnore (d : List Byte) : Nat := dWord d 32 8
/-- COOKIE. -/
def mCookie (d : List Byte) : Nat := dWord d 40 8
/-- MSG_LEN. -/
def mMsgLen (d : List Byte) : Nat := dWord d 48 4

/-! ### Areas, entries, matching (R176–R181) -/

/-- Bucket number of match bits (R181). -/
def mcHash (k bits : Nat) : Nat :=
  let x := (bits % 2 ^ 32) ^^^ (bits / 2 ^ 32 % 2 ^ 32)
  if k = 0 then 0 else (x * 0x9E3779B1 % 2 ^ 32) >>> (32 - k)

/-- Address of posted bucket `h`. -/
def postedBucket (c : MatchCtx) (h : Nat) : Nat := c.header + 0x40 + 8 * h
/-- Address of unexpected bucket `h`. -/
def unexpBucket (c : MatchCtx) (h : Nat) : Nat := c.header + 0x40 + 8 * 2 ^ c.k + 8 * h

/-- Whether a link is an entry address (R190). -/
def linkGood (c : MatchCtx) (l : Nat) : Bool := l = 0 || (l % 64 = 0 && c.pool ≤ l && l < c.pool + 64 * c.count)

/-- R180. -/
def matchesEntry (m bits ignore : Nat) : Bool := (m ^^^ bits) &&& ((2 ^ 64 - 1) ^^^ ignore) = 0

/-! Fields of the context header and of an entry. -/

/-- A 4-byte field of bytes. -/
def f32 (bs : List Byte) (i : Nat) : Nat := dWord bs i 4
/-- An 8-byte field of bytes. -/
def f64 (bs : List Byte) (i : Nat) : Nat := dWord bs i 8
/-- Bytes with a 4-byte field replaced. -/
def put32 (bs : List Byte) (i v : Nat) : List Byte := overlay bs i (leBytes 4 v)
/-- Bytes with an 8-byte field replaced. -/
def put64 (bs : List Byte) (i v : Nat) : List Byte := overlay bs i (leBytes 8 v)

/-! ### Walks -/

/-- Where a walk has stopped: it needs a read of `len` bytes, or a check of R190 has failed at an address. -/
inductive Halt where
  | need (addr len : Nat)
  | bad (addr : Nat)
  deriving DecidableEq, Repr

/-- The course of the list work: the answers not yet used, the entries examined, and where it has stopped. -/
structure Walk where
  found : List (List Byte)
  steps : Nat
  halt : Option Halt
  deriving DecidableEq, Repr

/-- The next read of a walk. -/
def walkRead (w : Walk) (addr len : Nat) : Walk × List Byte :=
  match w.halt with
  | some _ => (w, [])
  | none =>
    match w.found with
    | [] => ({ w with halt := some (.need addr len) }, [])
    | bs :: rest => ({ w with found := rest }, bs)

/-- A check of R190 fails at the link or entry at `addr`. -/
def walkBad (w : Walk) (addr : Nat) : Walk := if w.halt.isSome then w else { w with halt := some (.bad addr) }

/-- Check a link found at `at_` (R190). -/
def walkLink (c : MatchCtx) (w : Walk) (l at_ : Nat) : Walk := if linkGood c l then w else walkBad w at_

/-- What a chain's walk looks for in an entry: take it, stop, or go on. -/
inductive Seek where
  | take | stop | on
  deriving DecidableEq, Repr

/-- Walk a chain from a link found at `at_` (R187, R188, R190): the entry taken with its bytes. `n` is the context, `kind` the KIND that the
chain requires, `nextOff` the offset of its forward link, `seq` the SEQ before. -/
def walkChain (c : MatchCtx) (n kind nextOff : Nat) (seek : List Byte → Seek) :
    Nat → Walk → Nat → Nat → Option Nat → Walk × Option (Nat × List Byte)
  | 0, w, _, _, _ => (w, none)
  | fuel + 1, w, link, at_, seq =>
    let w := walkLink c w link at_
    if w.halt.isSome || link = 0 then (w, none)
    else if c.count ≤ w.steps then (walkBad w link, none)
    else
      let (w, bs) := walkRead w link 64
      if w.halt.isSome then (w, none)
      else
        let w := { w with steps := w.steps + 1 }
        let rises := match seq with
          | some x => decide (x < f64 bs 32)
          | none => true
        if dByte bs 57 != n || dByte bs 56 != kind || !rises then (walkBad w link, none)
        else
          match seek bs with
          | .take => (w, some (link, bs))
          | .stop => (w, none)
          | .on => walkChain c n kind nextOff seek fuel w (f32 bs nextOff) (link + nextOff) (some (f64 bs 32))

/-! ### Writes -/

/-- The list work's outcome: OUTCOME, the entry of the record with its address, whether the free list was empty, the writes in order. -/
structure Plan where
  walk : Walk
  outcome : Nat
  entry : Nat
  bytes : List Byte
  full : Bool
  writes : List (Nat × List Byte)
  deriving DecidableEq, Repr

/-- Header, bucket and entry writes that unlink an entry from a doubly linked chain whose ends are at `headAt` and `tailAt` of
`ends` (a header or a bucket); gives the new bytes of the ends and the neighbours' field writes. -/
def unlinkFrom (ends : List Byte) (headAt tailAt prev next prevOff nextOff : Nat) : List Byte × List (Nat × List Byte) :=
  let ends := if prev = 0 then put32 ends headAt next else ends
  let ends := if next = 0 then put32 ends tailAt prev else ends
  (ends, (if prev = 0 then [] else [(prev + nextOff, leBytes 4 next)]) ++ (if next = 0 then [] else [(next + prevOff, leBytes 4 prev)]))

/-- Append an entry at the tail of a chain. -/
def appendTo (ends : List Byte) (headAt tailAt addr nextOff : Nat) : List Byte × List (Nat × List Byte) :=
  let tail := f32 ends tailAt
  let ends := if tail = 0 then put32 ends headAt addr else ends
  (put32 ends tailAt addr, if tail = 0 then [] else [(tail + nextOff, leBytes 4 addr)])

/-- An entry as it goes on the free list: KIND 0, NEXT the old FREE_HEAD (R187). -/
def freedEntry (bs hdr : List Byte) : List Byte := setAt (put32 bs 40 (f32 hdr 32)) 56 0

/-- The header after an entry is freed; `countAt` is POSTED or UNEXP. -/
def freedHeader (hdr : List Byte) (addr countAt : Nat) : List Byte :=
  put32 (put32 (put32 hdr 32 addr) countAt (f32 hdr countAt + 2 ^ 32 - 1)) 44 (f32 hdr 44 + 1)

/-- The header after the entry at FREE_HEAD is taken: SEQ counter at `seqAt`, POSTED or UNEXP at `countAt`. -/
def takenHeader (hdr : List Byte) (next seqAt countAt : Nat) : List Byte :=
  put64 (put32 (put32 (put32 hdr 32 next) countAt (f32 hdr countAt + 1)) 44 (f32 hdr 44 + 2 ^ 32 - 1)) seqAt (f64 hdr seqAt + 1)

/-- A plan that changes nothing. -/
def planNothing (w : Walk) (outcome entry : Nat) (bytes : List Byte) : Plan :=
  { walk := w, outcome := outcome, entry := entry, bytes := bytes, full := false, writes := [] }

/-- Unlink a posted entry and free it (R187, R189): its links are checked first. -/
def freePosted (c : MatchCtx) (w : Walk) (hdr : List Byte) (outcome addr : Nat) (bs : List Byte) : Plan :=
  let w := walkLink c (walkLink c w (f32 bs 40) (addr + 40)) (f32 bs 44) (addr + 44)
  let w := walkLink c w (f32 hdr 32) (c.header + 32)
  if dByte bs 56 = 2 then
    let u := unlinkFrom hdr 16 20 (f32 bs 44) (f32 bs 40) 44 40
    { planNothing w outcome addr bs with
      writes := u.2 ++ [(addr, freedEntry bs hdr), (c.header, freedHeader u.1 addr 36)] }
  else
    let at_ := postedBucket c (mcHash c.k (f64 bs 0))
    let (w, bucket) := walkRead w at_ 8
    let u := unlinkFrom bucket 0 4 (f32 bs 44) (f32 bs 40) 44 40
    { planNothing w outcome addr bs with
      writes := u.2 ++ [(at_, u.1), (addr, freedEntry bs hdr), (c.header, freedHeader hdr addr 36)] }

/-- Take the entry at FREE_HEAD (R187, R188): its address and NEXT. An empty list leaves `none`. The entry is not one that STEPS counts:
the walk examines the entries of the chains it searches (DESIGN CHOICE, log entry 67). -/
def takeFree (c : MatchCtx) (w : Walk) (hdr : List Byte) : Walk × Option (Nat × Nat) :=
  let f := f32 hdr 32
  let w := walkLink c w f (c.header + 32)
  if f = 0 || w.halt.isSome then (w, none)
  else
    let (w, bs) := walkRead w f 64
    if w.halt.isSome then (w, none)
    else if dByte bs 56 != 0 then (walkBad w f, none)
    else (walkLink c w (f32 bs 40) (f + 40), some (f, f32 bs 40))

/-- The bytes of an entry (R178). -/
def entryBytes (bits ignore buf len cookie seq next prev onext oprev kind ctx msgLen : Nat) : List Byte :=
  leBytes 8 bits ++ leBytes 8 ignore ++ leBytes 4 buf ++ leBytes 4 len ++ leBytes 8 cookie ++ leBytes 8 seq ++ leBytes 4 next ++
    leBytes 4 prev ++ leBytes 4 onext ++ leBytes 4 oprev ++ leBytes 1 kind ++ leBytes 1 ctx ++ leBytes 2 0 ++ leBytes 4 msgLen

/-- ARRIVE (R187). -/
def planArrive (c : MatchCtx) (w : Walk) (d : List Byte) : Plan :=
  let n := mCtx d
  let m := dC d
  let fuel := c.count + 2
  let at_ := postedBucket c (mcHash c.k m)
  let (w, hdr) := walkRead w c.header 64
  let (w, bucket) := walkRead w at_ 8
  let (w, exact) := walkChain c n 1 40 (fun bs => if f64 bs 0 = m then .take else .on) fuel w (f32 bucket 0) at_ none
  let cut := exact.map (fun x => f64 x.2 32)
  let (w, wild) := walkChain c n 2 40 (fun bs =>
    if (match cut with | some x => decide (x < f64 bs 32) | none => false) then .stop
    else if matchesEntry m (f64 bs 0) (f64 bs 8) then .take else .on) fuel w (f32 hdr 16) (c.header + 16) none
  match (match exact, wild with
         | some x, some y => some (if f64 y.2 32 < f64 x.2 32 then y else x)
         | some x, none => some x
         | none, y => y) with
  | some (addr, bs) => freePosted c w hdr 1 addr bs
  | none =>
    let (w, fr) := takeFree c w hdr
    match fr with
    | none => { planNothing w 0 0 [] with full := w.halt.isNone }
    | some (addr, next) =>
      let uat := unexpBucket c (mcHash c.k m)
      let (w, ub) := walkRead w uat 8
      let w := walkLink c (walkLink c w (f32 ub 4) (uat + 4)) (f32 hdr 28) (c.header + 28)
      let bs := entryBytes m 0 (dB d) (dLen d) (mCookie d) (f64 hdr 8) 0 (f32 ub 4) 0 (f32 hdr 28) 3 n (mMsgLen d)
      let b := appendTo ub 0 4 addr 40
      let o := appendTo (takenHeader hdr next 8 40) 24 28 addr 48
      { planNothing w 2 addr bs with writes := [(addr, bs)] ++ b.2 ++ o.2 ++ [(uat, b.1), (c.header, o.1)] }

/-- The search of POST and PROBE (R188, R189): the header and the unexpected entry found. -/
def searchUnexpected (c : MatchCtx) (w : Walk) (d : List Byte) : Walk × List Byte × Option (Nat × List Byte) :=
  let n := mCtx d
  let fuel := c.count + 2
  let at_ := unexpBucket c (mcHash c.k (dC d))
  let (w, hdr) := walkRead w c.header 64
  if mIgnore d = 0 then
    let (w, bucket) := walkRead w at_ 8
    let (w, x) := walkChain c n 3 40 (fun bs => if f64 bs 0 = dC d then .take else .on) fuel w (f32 bucket 0) at_ none
    (w, hdr, x)
  else
    let (w, x) := walkChain c n 3 48 (fun bs => if matchesEntry (f64 bs 0) (dC d) (mIgnore d) then .take else .on) fuel w
      (f32 hdr 24) (c.header + 24) none
    (w, hdr, x)

/-- POST (R188). -/
def planPost (c : MatchCtx) (w : Walk) (d : List Byte) : Plan :=
  let n := mCtx d
  let (w, hdr, x) := searchUnexpected c w d
  match x with
  | some (addr, bs) =>
    let w := [40, 44, 48, 52].foldl (fun w o => walkLink c w (f32 bs o) (addr + o)) w
    let w := walkLink c w (f32 hdr 32) (c.header + 32)
    let at_ := unexpBucket c (mcHash c.k (f64 bs 0))
    let (w, bucket) := walkRead w at_ 8
    let u := unlinkFrom bucket 0 4 (f32 bs 44) (f32 bs 40) 44 40
    let o := unlinkFrom (freedHeader hdr addr 40) 24 28 (f32 bs 52) (f32 bs 48) 52 48
    { planNothing w 3 addr bs with
      writes := u.2 ++ o.2 ++ [(at_, u.1), (addr, freedEntry bs hdr), (c.header, o.1)] }
  | none =>
    let (w, fr) := takeFree c w hdr
    match fr with
    | none => { planNothing w 0 0 [] with full := w.halt.isNone }
    | some (addr, next) =>
      let mk (kind prev : Nat) : List Byte :=
        entryBytes (dC d) (mIgnore d) (dB d) (dLen d) (mCookie d) (f64 hdr 0) 0 prev 0 0 kind n 0
      let hdr' := takenHeader hdr next 0 36
      if mIgnore d = 0 then
        let at_ := postedBucket c (mcHash c.k (dC d))
        let (w, bucket) := walkRead w at_ 8
        let w := walkLink c w (f32 bucket 4) (at_ + 4)
        let b := appendTo bucket 0 4 addr 40
        let bs := mk 1 (f32 bucket 4)
        { planNothing w 4 addr bs with writes := [(addr, bs)] ++ b.2 ++ [(at_, b.1), (c.header, hdr')] }
      else
        let w := walkLink c w (f32 hdr 20) (c.header + 20)
        let b := appendTo hdr' 16 20 addr 40
        let bs := mk 2 (f32 hdr 20)
        { planNothing w 4 addr bs with writes := [(addr, bs)] ++ b.2 ++ [(c.header, b.1)] }

/-- PROBE (R189). -/
def planProbe (c : MatchCtx) (w : Walk) (d : List Byte) : Plan :=
  let (w, _, x) := searchUnexpected c w d
  match x with
  | some (addr, bs) => planNothing w 5 addr bs
  | none => planNothing w 6 0 []

/-- CANCEL (R189). The rule gives no check of B: the line there is read like an entry, and freed when it looks like the one asked for, inside
the pool or not; STEPS is 1 (DESIGN CHOICE, log entry 67). -/
def planCancel (c : MatchCtx) (w : Walk) (d : List Byte) : Plan :=
  let n := mCtx d
  let (w, hdr) := walkRead w c.header 64
  let (w, bs) := walkRead w (dB d) 64
  let w := { w with steps := if w.halt.isNone then 1 else 0 }
  if (dByte bs 56 = 1 || dByte bs 56 = 2) && dByte bs 57 = n && f64 bs 32 = dC d then freePosted c w hdr 7 (dB d) bs
  else planNothing w 8 0 []

/-- The list work of a MATCH with what it has read so far. -/
def matchPlan (r : Run) : Plan :=
  let w : Walk := { found := r.found, steps := 0, halt := none }
  match dSub r.desc with
  | 0 => planArrive r.mctx w r.desc
  | 1 => planPost r.mctx w r.desc
  | 2 => planProbe r.mctx w r.desc
  | _ => planCancel r.mctx w r.desc

/-- STEPS of a MATCH as far as it has come; one that never held its lock has examined nothing. -/
def matchSteps (r : Run) : Nat := if r.found.isEmpty then 0 else (matchPlan r).walk.steps

/-! ### The record (R192) -/

/-- The 64 bytes of the record; an outcome without an entry leaves the fields of the entry zero (DESIGN CHOICE, log entry 80). -/
def recordBytes (d : List Byte) (p : Plan) (time : Nat) : List Byte :=
  let msgLen := if p.outcome = 1 || p.outcome = 2 then mMsgLen d
    else if p.outcome = 3 || p.outcome = 5 then f32 p.bytes 60 else 0
  leBytes 1 p.outcome ++ leBytes 1 (mCtx d) ++ leBytes 2 (min 0xFFFF p.walk.steps) ++ leBytes 4 msgLen ++ leBytes 8 (f64 p.bytes 0) ++
    leBytes 8 (f64 p.bytes 24) ++ leBytes 4 (f32 p.bytes 16) ++ leBytes 4 (f32 p.bytes 20) ++ leBytes 8 (f64 p.bytes 32) ++
    leBytes 4 p.entry ++ leBytes 4 0 ++ leBytes 8 time ++ leBytes 8 (f64 p.bytes 8)

/-- RESULT of a MATCH that ends OK. -/
def matchResult (p : Plan) : Nat := p.entry + p.outcome <<< 32 + (min 0xFFFF p.walk.steps) <<< 40

end Sys2Proof.Machine
end

