-- ==== Sys2Proof/Machine/Engine.lean ====
section
/-! DEFINITION. Rack engines, the work of descriptors: the next access of each opcode (R150–R159, R163), the begin of a descriptor
(R143, R147), its completion action and retirement (R145, R148, R149, R167), and the engine's issue step (R142). -/

namespace Sys2Proof.Machine

/-- What a descriptor in progress does next: issue an access, wait for answers, nothing more to issue, end OK with a result, or
end with a status. -/
inductive NextAcc where
  | issue (use : AccUse) (r : Req) (run : Run)
  | wait
  | issued
  | done (result : Nat)
  | fail (st addr : Nat)
  deriving DecidableEq, Repr

/-- An access of an opcode that R151 confines to the array and mailbox PAYLOAD. -/
def moverIssue (s : State) (use : AccUse) (r : Req) (run : Run) : NextAcc :=
  match moverCheck s r.addr with
  | some st => .fail st r.addr
  | none => .issue use r run

/-- Read the next bytes of a contiguous range from `base`, up to the end of a line. -/
def rangeRead (s : State) (e q base len : Nat) (r : Run) : NextAcc :=
  let addr := addr32 base r.rpos
  let n := chunkLen addr (len - r.rpos)
  moverIssue s (.source r.rpos) (engRead e q addr n) { r with rpos := r.rpos + n }

/-- Write the next bytes of a contiguous range once they have been read. -/
def rangeWrite (s : State) (e q base len : Nat) (r : Run) : Option NextAcc :=
  let addr := addr32 base r.wpos
  let n := chunkLen addr (len - r.wpos)
  if r.wpos < len && bufHas r.buf r.wpos n then
    some (moverIssue s .store (engWrite e q addr (bufTake r.buf r.wpos n))
      { r with wpos := r.wpos + n, buf := bufDrop r.buf r.wpos n })
  else none

/-- COPY (R152). -/
def nextCopy (s : State) (e q : Nat) (r : Run) : NextAcc :=
  let len := dLen r.desc
  match rangeWrite s e q (dB r.desc) len r with
  | some n => n
  | none => if r.rpos < len then rangeRead s e q (dA r.desc) len r else if r.wpos < len then .wait else .done len

/-- FILL (R152): the byte at address x takes byte x mod 8 of C. -/
def nextFill (s : State) (e q : Nat) (r : Run) : NextAcc :=
  let len := dLen r.desc
  if r.wpos < len then
    let addr := addr32 (dB r.desc) r.wpos
    let n := chunkLen addr (len - r.wpos)
    moverIssue s .store
      (engWrite e q addr ((List.range n).map (fun i => (r.desc.getD (16 + (addr + i) % 8) 0)))) { r with wpos := r.wpos + n }
  else .done len

/-- The address of element `j` of a list or strided range (R153). -/
def elementAddr (r : Run) (base j : Nat) : Option Nat :=
  if dSub r.desc = 0 then (r.entries.find? (fun e => e.1 = j)).map (fun e => e.2) else some (addr32 base (j * dD r.desc))

/-- Read the next list entry (R153). -/
def listRead (s : State) (e q base : Nat) (r : Run) : NextAcc :=
  let addr := addr32 base (8 * r.xpos)
  let a := engRead e q addr 8
  if addr % 8 != 0 && (moverCheck s addr).isNone && (decodeAccess s a).isNone then .fail DS_MISALIGN addr
  else moverIssue s (.entry r.xpos) a { r with xpos := r.xpos + 1 }

/-- Element size of GATHER and SCATTER. -/
def dEsize (d : List Byte) : Nat := dE d % 65536

/-- GATHER (R153). -/
def nextGather (s : State) (e q : Nat) (r : Run) : NextAcc :=
  let len := dLen r.desc
  let es := dEsize r.desc
  match rangeWrite s e q (dB r.desc) len r with
  | some n => n
  | none =>
    if r.rpos < len then
      match elementAddr r (dA r.desc) (r.rpos / es) with
      | some a =>
        let addr := addr32 a (r.rpos % es)
        let n := chunkLen addr (es - r.rpos % es)
        moverIssue s (.source r.rpos) (engRead e q addr n) { r with rpos := r.rpos + n }
      | none => if r.xpos < len / es then listRead s e q (dA r.desc) r else .wait
    else if r.wpos < len then .wait else .done (len / es)

/-- The destination address of byte `o` of a SCATTER. -/
def scatterByte (r : Run) (o : Nat) : Nat := addr32 ((elementAddr r (dB r.desc) (o / dEsize r.desc)).getD 0) (o % dEsize r.desc)

/-- Put a number into an ascending list that has it once. -/
def insertNat (n : Nat) : List Nat → List Nat
  | [] => [n]
  | x :: xs => if n < x then n :: x :: xs else if n = x then x :: xs else x :: insertNat n xs

/-- The lines that a SCATTER writes, in ascending order. -/
def scatterLines (r : Run) : List Nat := (List.range (dLen r.desc)).foldl (fun ls o => insertNat (scatterByte r o / 64) ls) []

/-- The bytes that a SCATTER puts into a line: the offset in the line and the offset of the source byte, later elements last. -/
def scatterLanes (r : Run) (line : Nat) : List (Nat × Nat) :=
  ((List.range (dLen r.desc)).filter (fun o => scatterByte r o / 64 = line)).map (fun o => (scatterByte r o % 64, o))

/-- The write of one line of a SCATTER, from its first to its last covered byte, with the covered bytes enabled (R151). -/
def scatterReq (e q : Nat) (r : Run) (line : Nat) : Req :=
  let ls := scatterLanes r line
  let lo := ls.foldl (fun m l => min m l.1) 63
  let hi := ls.foldl (fun m l => max m l.1) 0
  let bytes := ls.foldl (fun bs l => setAt bs l.1 (bufByte r.buf l.2)) (List.replicate 64 (0 : Byte))
  let mask := (List.range 64).foldl (fun n i => if ls.any (fun l => l.1 = lo + i) then n + 2 ^ i else n) 0
  { engWrite e q (64 * line + lo) (sliceBytes bytes lo (hi + 1 - lo)) with mask := BitVec.ofNat 64 mask }

/-- SCATTER (R153): the list, then the source, then the destination, one write for each line (R151). `wpos` counts lines written. -/
def nextScatter (s : State) (e q : Nat) (k : Queue) (r : Run) : NextAcc :=
  let len := dLen r.desc
  let es := dEsize r.desc
  if dSub r.desc = 0 && r.xpos < len / es then listRead s e q (dB r.desc) r
  else if r.rpos < len then rangeRead s e q (dA r.desc) len r
  else if r.wpos = 0 && !(accsOf k r.index).isEmpty then .wait
  else
    match (scatterLines r)[r.wpos]? with
    | some line => moverIssue s .store (scatterReq e q r line) { r with wpos := r.wpos + 1 }
    | none => .done (len / es)

/-- ACCUM (R156, R157): the range of B is cut at every line boundary; the tallied ACC goes last, once every other is complete. -/
def nextAccum (e q : Nat) (k : Queue) (r : Run) : NextAcc :=
  let len := dLen r.desc
  let fmt := dOpfmt r.desc
  let ob (x : Nat) : Nat := if fmt = 8 then x / 2 else x
  let addr := addr32 (dB r.desc) r.wpos
  let n := chunkLen addr (len - r.wpos)
  let last := dTally r.desc && r.wpos + n = len
  if r.wpos < len && bufHas r.buf (ob r.wpos) (ob n) && !(last && !(accsOf k r.index).isEmpty) then
    .issue (.acc r.wpos)
      { engReq e q .acc 0x20 addr n (bufTake r.buf (ob r.wpos) (ob n)) with opfmt := fmt, tally := last }
      { r with wpos := r.wpos + n }
  else if r.rpos < ob len then
    let a := addr32 (dA r.desc) r.rpos
    let m := chunkLen a (ob len - r.rpos)
    .issue (.source r.rpos) (engRead e q a m) { r with rpos := r.rpos + m }
  else if r.wpos < len then .wait else .done r.result

/-- CRC32C (R154). -/
def nextCrc (s : State) (e q : Nat) (k : Queue) (r : Run) : NextAcc :=
  let len := dLen r.desc
  if r.rpos < len then rangeRead s e q (dA r.desc) len r
  else if !(accsOf k r.index).isEmpty then (if bitOf (dSub r.desc) 0 && r.wpos = 0 then .wait else .issued)
  else
    let c := crc32c (dD r.desc) (bufTake r.buf 0 len)
    if bitOf (dSub r.desc) 0 && r.wpos = 0 then
      moverIssue s .store (engWrite e q (dB r.desc) (leBytes 4 c)) { r with wpos := 4 }
    else .done c

/-- COMPARE (R155). The RESULT of an equal pair is not stated: a free value. -/
def nextCompare (s : State) (e q : Nat) (k : Queue) (r : Run) : NextAcc :=
  let len := dLen r.desc
  if r.rpos < len && r.rpos ≤ r.xpos then rangeRead s e q (dA r.desc) len r
  else if r.xpos < len then
    let addr := addr32 (dB r.desc) r.xpos
    let n := chunkLen addr (len - r.xpos)
    moverIssue s (.other r.xpos) (engRead e q addr n) { r with xpos := r.xpos + n }
  else if !(accsOf k r.index).isEmpty then .issued
  else
    match (List.range len).find? (fun i => bufByte r.buf i != bufByte r.buf2 i) with
    | some i => .fail DS_MISCOMPARE i
    | none => .done (Config.freeWord s.free).toNat

/-- The request of a SEMA (R158). -/
def semaReq (e q : Nat) (d : List Byte) : Req :=
  let addr := 0xFE000000 + dA d % 65536 * 64
  match dSub d with
  | 0 => engRead e q addr 8
  | 1 => engWrite e q (addr + 8) (leBytes 8 0)
  | 2 => engRead e q (addr + 0x10) 8
  | 3 => engWrite e q (addr + 0x18) (leBytes 8 0)
  | 4 => engRead e q (addr + 0x20) 8
  | _ => engWrite e q (addr + 0x28) (leBytes 8 (dC d))

/-- SEMA (R158). -/
def nextSema (e q : Nat) (r : Run) : NextAcc :=
  if r.phase = 0 then .issue .sema (semaReq e q r.desc) { r with phase := 1 } else .issued

/-- POST (R159): the payload writes, then, once they are complete, the doorbell. -/
def nextPost (e q : Nat) (k : Queue) (r : Run) : NextAcc :=
  let len := dLen r.desc
  let base := 0xFE400000 + dA r.desc * 256
  let n := chunkLen (base + r.wpos) (len - r.wpos)
  if r.wpos < len && bufHas r.buf r.wpos n then
    .issue .store (engWrite e q (base + r.wpos) (bufTake r.buf r.wpos n)) { r with wpos := r.wpos + n }
  else if r.rpos < len then
    let a := addr32 (dB r.desc) r.rpos
    let m := chunkLen a (len - r.rpos)
    .issue (.source r.rpos) (engRead e q a m) { r with rpos := r.rpos + m }
  else if r.phase = 0 then
    if r.wpos = len && (accsOf k r.index).isEmpty then
      .issue .store (engWrite e q (base + 0xC0) (leBytes 8 (dC r.desc))) { r with phase := 1 }
    else .wait
  else .done 0

/-- WAIT of kinds 2 and 3 (R161): a PEEK or TRY that is to be issued, unless the limit has passed. -/
def nextWait (s : State) (e q : Nat) (r : Run) : NextAcc :=
  let addr := 0xFE000000 + dA r.desc % 65536 * 64
  if r.phase = 1 && !limitBefore s r then
    .issue .sema (engRead e q (if dSub r.desc = 3 then addr else addr + 0x20) 8) { r with phase := 2 }
  else .wait

/-- PUSH (R163): its reads; the messages follow as the bytes come. -/
def nextPush (e q : Nat) (r : Run) : NextAcc :=
  let len := dLen r.desc
  if r.rpos < len then
    let a := addr32 (dA r.desc) r.rpos
    let m := chunkLen a (len - r.rpos)
    .issue (.source r.rpos) (engRead e q a m) { r with rpos := r.rpos + m }
  else .issued

/-- Address of the semaphore that guards a MATCH's context (R183). -/
def lockAddr (r : Run) : Nat := 0xFE000000 + r.mctx.lockSem * 64

/-- The RELEASE of a MATCH's lock. -/
def matchUnlock (e q : Nat) (r : Run) : NextAcc := .issue .unlock (engWrite e q (lockAddr r + 8) (leBytes 8 0)) { r with phase := 6 }

/-- MATCH (R183, R187–R192): the TRY, the reads of the list work, its writes in order, the record, then the RELEASE, unless a fault was met
once writing had begun. `phase`: 0 TRY to issue, 1 waiting, 2 TRY issued, 3 timeout passed meanwhile, 4 locked, 5 list writes being
issued (`xpos` counts them), 7 record issued, 8 RELEASE to issue, 6 RELEASE issued, 9 ended. -/
def nextMatch (e q : Nat) (k : Queue) (r : Run) : NextAcc :=
  let quiet := (accsOf k r.index).isEmpty
  match r.phase with
  | 0 => .issue .lock (engRead e q (lockAddr r) 8) { r with phase := 2 }
  | 4 =>
    match (matchPlan r).walk.halt with
    | some (.need addr len) => if quiet then .issue .walk (engRead e q addr len) r else .wait
    | _ => .wait
  | 5 =>
    match (if r.status = 0 then (matchPlan r).writes[r.xpos]? else none) with
    | some w => .issue .store (engWrite e q w.1 w.2) { r with xpos := r.xpos + 1 }
    | none =>
      if !quiet then .wait
      else if faultClass r.status then .fail r.status r.failAddr
      else if r.status = 0 && dD r.desc != 0 then
        .issue .store (engWrite e q (dD r.desc) (recordBytes r.desc (matchPlan r) r.matchTime)) { r with phase := 7 }
      else matchUnlock e q r
  | 7 => if !quiet then .wait else if faultClass r.status then .fail r.status r.failAddr else matchUnlock e q r
  | 8 => matchUnlock e q r
  | 6 => .issued
  | _ => .wait

/-- The next access of a descriptor in progress. -/
def nextOf (s : State) (e q : Nat) (r : Run) : NextAcc :=
  let k := queueOf s e q
  match dOp r.desc with
  | 0x01 => nextCopy s e q r
  | 0x02 => nextFill s e q r
  | 0x03 => nextGather s e q r
  | 0x04 => nextScatter s e q k r
  | 0x05 => nextAccum e q k r
  | 0x06 => nextCrc s e q k r
  | 0x07 => nextCompare s e q k r
  | 0x08 => if r.phase = 0 && r.lockWaited && limitBefore s r then .wait else nextMatch e q k r
  | 0x09 => nextSema e q r
  | 0x0A => nextPost e q k r
  | 0x0B => nextWait s e q r
  | 0x0C => nextPush e q r
  | _ => .done 0

/-! ### PUSH messages (R163, R164, R316) -/

/-- One PUSH message: LAST, LEN, OFFSET, the engine queue, the tag and the payload in whole slots. -/
def pushBytes (e q : Nat) (r : Run) (n : Nat) : List Byte :=
  leBytes 1 0x93 ++ leBytes 1 (bitsOf (dSub r.desc) 4 3 + (b01 (r.wpos + n = dLen r.desc)) <<< 2) ++ leBytes 2 n ++ leBytes 2 r.wpos ++
    leBytes 1 (e + q <<< 4) ++ leBytes 1 0 ++ leBytes 8 (dC r.desc) ++ sliceBytes (bufTake r.buf r.wpos n) 0 ((n + 15) / 16 * 16)

/-- Send the next message of a PUSH once its bytes are there. -/
def pushSend (s : State) (e q index : Nat) : State :=
  match runOf s e q index with
  | none => s
  | some r =>
    let n := min 256 (dLen r.desc - r.wpos)
    let p := dSub r.desc % 8
    if !r.ended && r.wpos < dLen r.desc && bufHas r.buf r.wpos n then
      let bs := pushBytes e q r n
      let s := emit (sendOn s p 2 bs) (.message p bs)
      let s := { s with pushes := s.pushes ++ [⟨e, q, index, p, r.wpos + n, bs, none, false, false⟩] }
      mapRun s e q index (fun x => { x with wpos := x.wpos + n, buf := bufDrop x.buf x.wpos n })
    else s

/-- Whether a port's session is lost to a PUSH: it is not UP and no retrain runs (R164). -/
def portLost (s : State) (p : Nat) : Bool :=
  let st := rdF s (R_LPH_STAT p) LPH_STAT_STATE
  !(2 ≤ st && st ≤ 5)

/-- The messages of a PUSH that wait for acknowledgement. -/
def pushWaits (s : State) (e q index : Nat) : List PushWait := s.pushes.filter (fun w => w.e = e && w.q = q && w.run = index)

/-- Send what can be sent of a PUSH and end it: OK once every message is acknowledged, PORTDOWN when the link has failed (R164). -/
def pushSettle (s : State) (e q index : Nat) : State :=
  let s := (List.range 16).foldl (fun s _ => pushSend s e q index) s
  match runOf s e q index with
  | none => s
  | some r =>
    let ws := pushWaits s e q index
    let acked := (ws.filter (fun w => w.acked)).foldl (fun m w => max m w.endOff) 0
    if r.ended then s
    else if r.wpos = dLen r.desc && ws.all (fun w => w.acked) then mapRun s e q index (fun x => endRun x DS_OK (dLen r.desc))
    else if ws.any (fun w => w.failed) || portLost s (dSub r.desc % 8) then
      mapRun s e q index (fun x => endRun x DS_PORTDOWN acked)
    else s

/-- The PUSHes of a queue, in order: a later one's messages follow those of an earlier one (R317). -/
def pushAll (s : State) (e q : Nat) : State :=
  (queueOf s e q).runs.foldl (fun s r =>
    if dOp r.desc = 0x0C && r.phase != 99 &&
        (queueOf s e q).runs.all (fun x => x.index = r.index || dOp x.desc != 0x0C || x.ended || x.wpos = dLen x.desc ||
          sub32 r.index (qHead s e q) < sub32 x.index (qHead s e q)) then
      pushSettle s e q r.index
    else s) s

/-! ### The course of a queue -/

/-- The list work of a locked MATCH has read what it needs (R187–R190): a check that failed and an empty free list end it with RANGE, with its
lock to be released (RESULT 0: no access has failed; DESIGN CHOICE, log entry 80); otherwise its writes begin. -/
def settleMatch (s : State) (e q : Nat) (r : Run) : State :=
  if dOp r.desc = 0x08 && r.phase = 4 && r.status = 0 then
    let p := matchPlan r
    match p.walk.halt with
    | some (.need _ _) => s
    | some (.bad addr) =>
      mapRun (countSat s 0x19 (R_MC_ERR (mCtx r.desc)) MC_ERR_BADLIST 1) e q r.index (fun x =>
        { x with status := DS_RANGE, failAddr := addr, result := addr, phase := 8 })
    | none =>
      if p.full then mapRun s e q r.index (fun x => { x with status := DS_RANGE, failAddr := 0, result := 0, phase := 8 })
      else mapRun s e q r.index (fun x => { x with phase := 5, xpos := 0, result := matchResult p })
  else s

/-- End a descriptor whose work is done, or that a check of its next access ends. -/
def settleRun (s : State) (e q index : Nat) : State :=
  match runOf s e q index with
  | none => s
  | some r =>
    if r.ended then s
    else
      match nextOf s e q r with
      | .fail st addr => mapRun s e q index (fun x => failRun x st addr)
      | .done res =>
        if (accsOf (queueOf s e q) index).isEmpty then
          let s := mapRun s e q index (fun x => endRun x DS_OK res)
          if dOp r.desc = 0x07 then { s with free := s.free + 1 } else s
        else s
      | _ => settleMatch s e q r

/-- A queue's shown state follows its descriptors: IDLE, RUNNING, WAITING, or STOPPED once a stopping queue has retired every
descriptor in progress (R136, R169). -/
def refreshState (s : State) (e q : Nat) : State :=
  let k := queueOf s e q
  let st := qState s e q
  if st = QS_IDLE || st = QS_RUNNING || st = QS_WAITING then
    match k.runs with
    | [] =>
      if k.stopping then
        if k.accs.isEmpty then setQState (setQueue s e q { k with stopping := false, fetched := [] }) e q QS_STOPPED else s
      else runOrIdle s e q
    | r :: _ => setQState s e q (if dOp r.desc = 0x0B && !r.ended then QS_WAITING else QS_RUNNING)
  else s

/-- Take up every answer of a queue and what follows from it. A frozen engine completes its issued accesses and keeps all its registers: the
answers wait (R172). -/
def prepareQueue (s : State) (e q : Nat) : State :=
  if engState s e = 3 then s
  else
    let s := pushAll (collect s e q) e q
    let s := (queueOf s e q).runs.foldl (fun s r => settleRun s e q r.index) s
    refreshState s e q

/-- Whether a descriptor has issued every access (R143); one that waits for a condition has not. -/
def allIssued (s : State) (e q : Nat) (r : Run) : Bool :=
  r.ended ||
  (match nextOf s e q r with
   | .issued => true
   | .done _ => true
   | _ => false)

/-- Whether a descriptor has ended in a fault, so that no later one goes on (R167). -/
def faulted (r : Run) : Bool := r.ended && (faultClass r.status || r.actionFault)

/-- Whether a descriptor begins only when every earlier one has completed (R143, R158, R185). -/
def beginsOrdered (d : List Byte) : Bool :=
  dOrdered d || dCond d != 0 || dOp d = 0x0D || dOp d = 0x08 || (dOp d = 0x09 && (dSub d = 1 || dSub d = 3))

/-- Whether a fault of the copy of SYNCING is about to put a queue into FAULT: no descriptor of it begins (R345). -/
def syncHolds (s : State) (e q : Nat) : Bool :=
  match s.pair.syncFault with
  | some f => q = 0 && f.engine = e && !f.entered
  | none => false

/-- The fetched descriptor that may begin now, and whether its fetch corrected an error (R143). -/
def mayBegin (s : State) (e q : Nat) : Option (Nat × Bool × List Byte) :=
  let k := queueOf s e q
  match k.fetched with
  | [] => none
  | (i, ce, d) :: _ =>
    if coreOn s && e < numEngines s.variant && engState s e ≤ 1 && !(engineOf s e).resetting && qState s e q = QS_RUNNING && !k.stopping && !syncHolds s e q &&
        k.runs.all (fun r => allIssued s e q r && !faultClass r.status && !r.actionFault) && (k.runs.isEmpty || !beginsOrdered d) then
      some (i, ce, d)
    else none

/-- Whether COND lets a descriptor run (R147). -/
def condRuns (s : State) (e q : Nat) (d : List Byte) : Bool :=
  match dCond d with
  | 1 => rdF s (R_Q_STATE e q) Q_STATE_LAST = 0
  | 2 => rdF s (R_Q_STATE e q) Q_STATE_LAST = 1
  | _ => true

/-- Begin the next descriptor when it is of the kind `want`: COND, then the checks of its opcode before any access. -/
def beginDesc (s : State) (e q : Nat) (want : List Byte → Bool) (start : State → Run → Run) : State :=
  let s := prepareQueue s e q
  match mayBegin s e q with
  | none => s
  | some (i, ce, d) =>
    if want d then
      let r := { blankRun i d s.time with ce := ce }
      let r := if dCond d = 3 then endRun r DS_BADDESC 0
        else if !condRuns s e q d then { r with ended := true, skipped := true }
        else start s r
      let k := queueOf s e q
      refreshState (setQueue s e q { k with fetched := k.fetched.drop 1, runs := k.runs ++ [r] }) e q
    else s

/-! ### Completion action and retirement -/

/-- The 16 bytes of the status word (R149). -/
def statusWordBytes (e q : Nat) (r : Run) : List Byte :=
  leBytes 1 r.status ++ leBytes 1 (b01 r.ce + 2 * b01 (faultClass r.status)) ++ leBytes 1 (dOp r.desc) ++ leBytes 1 (4 * e + q) ++
    leBytes 2 (dUser r.desc) ++ leBytes 2 r.index ++ leBytes 8 r.result

/-- The value of the doorbell that a completion action rings. -/
def completionBell (e q : Nat) (r : Run) : Nat := dUser r.desc + r.status <<< 16 + e <<< 24 + q <<< 28 + 2 <<< 56

/-- Whether a descriptor has a completion action: it ran and was fetched (R147, R167). -/
def hasAction (r : Run) : Bool := !r.skipped && r.phase != 99 && dAction r.desc != 0

/-- Whether the completion action has been carried out. -/
def actionDone (r : Run) : Bool := !hasAction r || r.actionPhase = 4

/-- Steps of the completion action that make no access: no or a misaligned status word, no doorbell (R149). A frozen engine makes none. -/
def actionSkip (s : State) (e q : Nat) : State :=
  match (queueOf s e q).runs with
  | [] => s
  | r :: _ =>
    if engState s e != 3 && r.ended && hasAction r && (accsOf (queueOf s e q) r.index).isEmpty then
      let s := if r.actionPhase = 0 && (!bitOf (dAction r.desc) 0 || dStatusAddr r.desc % 16 != 0) then
          let s := if bitOf (dAction r.desc) 0 then addSat s (R_Q_COUNT e q) Q_COUNT_FAILED 1 else s
          mapRun s e q r.index (fun x => { x with actionPhase := 2 })
        else s
      mapRun s e q r.index (fun x =>
        if x.actionPhase = 2 && !bitOf (dAction x.desc) 1 then { x with actionPhase := 4 } else x)
    else s

/-- The access of the completion action of the descriptor at HEAD that is to be issued. -/
def actionAcc (s : State) (e q : Nat) : Option (Nat × AccUse × Req × Run) :=
  match (queueOf s e q).runs with
  | [] => none
  | r :: _ =>
    if r.ended && hasAction r && (accsOf (queueOf s e q) r.index).isEmpty then
      if r.actionPhase = 0 then
        some (r.index, .statusWord, engWrite e q (dStatusAddr r.desc) (statusWordBytes e q r), { r with actionPhase := 1 })
      else if r.actionPhase = 2 then
        some (r.index, .postBell, engWrite e q (0xFE4000C0 + 256 * dPostMbx r.desc) (leBytes 8 (completionBell e q r)),
          { r with actionPhase := 3 })
      else none
    else none

/-- Enter FAULT at the descriptor at HEAD (R167): later descriptors, begun or not, are dropped, to be fetched and
run again, and with them what they waited for (DESIGN CHOICE, log entry 78). -/
def enterFault (s : State) (e q : Nat) (r : Run) : State :=
  let s := wr s (R_Q_FAULT e q) (w64 (r.index % 2 ^ 32 + dOp r.desc <<< 32 + r.status <<< 40))
  let s := wr s (R_Q_FAULTADDR e q) (w64 (r.failAddr % 2 ^ 32))
  let s := setQueue (dropPushes s (fun w => w.e = e && w.q = q)) e q { queueOf s e q with runs := [], fetched := [], stopping := false }
  setEngBit (setQState s e q QS_FAULT) e ENG_STAT_FAULTQ q

/-- The counters of a MATCH that has ended (R193, R404). -/
def matchEnded (s : State) (r : Run) : State :=
  if dOp r.desc = 0x08 && !r.skipped && r.phase != 99 then
    let n := dA r.desc % 256
    let steps := matchSteps r
    let s := countWrap (occur s EV_MATCH) 0x19 (R_MC_WALK n) MC_WALK_STEPS steps
    let s := if counting s 0x19 then
        wrF s (R_MC_WALK n) MC_WALK_MAXRUN (max (rdF s (R_MC_WALK n) MC_WALK_MAXRUN) (min 0xFFFF steps)) else s
    if r.status = 0 then
      let o := (matchPlan r).outcome
      countWrap (countWrap s 0x19 (R_MC_STAT n) MC_STAT_OPS 1) 0x19 (R_MC_STAT n) MC_STAT_MATCHED (b01 (o = 1 || o = 3 || o = 7))
    else s
  else s

/-- Retire the descriptor at HEAD (R145, R147, R148, R167). A descriptor whose fetch faulted has not run and leaves LAST. One whose fetch ended
BUSY or RANGE is counted failed and passed, with no completion action and LAST unchanged (DESIGN CHOICE, log entry 68). -/
def retireHead (s : State) (e q : Nat) (r : Run) : State :=
  let s := dropPushes s (fun w => w.e = e && w.q = q && w.run = r.index)
  let s := matchEnded s r
  let s := if r.skipped || r.phase = 99 then s else wrF s (R_Q_STATE e q) Q_STATE_LAST (b01 (r.status != 0))
  let s := if r.status = 0 then s else addSat s (R_Q_COUNT e q) Q_COUNT_FAILED 1
  if faulted r then enterFault s e q r
  else
    let s := occur (addWrap s (R_Q_COUNT e q) Q_COUNT_DONE 1) (evEngine e 0)
    let s := wrF s (R_Q_HEAD e q) Q_HEAD_HEAD (qHead s e q + 1)
    let k := queueOf s e q
    refreshState (setQueue s e q { k with runs := k.runs.drop 1 }) e q

/-- Retire the descriptor at HEAD when it is complete and its completion action carried out. A fault waits for every access
already issued (R167). -/
def retireStep (s : State) (e q : Nat) : State :=
  let s := actionSkip (prepareQueue s e q) e q
  match (queueOf s e q).runs with
  | [] => s
  | r :: _ =>
    let open_ := if faulted r then (queueOf s e q).accs else accsOf (queueOf s e q) r.index
    if r.ended && actionDone r && open_.isEmpty && engState s e ≤ 1 && !(engineOf s e).resetting then retireHead s e q r else s

/-- DESCRIPTOR_RETIRE (R145). -/
def execDescriptorRetire (e : BitVec 4) (q : BitVec 2) (s : State) : Host.Outcome State Fault Refusal :=
  if coreOn s && e.toNat < numEngines s.variant then .next (retireStep s e.toNat q.toNat) else .next s

/-! ### The issue step (R142) -/

/-- The fetch of the next descriptor (R140). -/
def fetchAcc (s : State) (e q : Nat) : Option (Nat × AccUse × Req) :=
  let k := queueOf s e q
  let i := (qHead s e q + k.runs.length) % 2 ^ 32
  if !k.stopping && k.fetched.isEmpty && k.accs.all (fun a => match a.use with | .fetch _ => false | _ => true) &&
      k.runs.length < sub32 (qTail s e q) (qHead s e q) then
    some (i, .fetch i, engRead e q (ringBase s e q + i % ringSize s e q * 64) 64)
  else none

/-- What a queue has ready: an access that is due again, or a new one with the descriptor after it. -/
inductive Ready where
  | again (a : EngAcc)
  | fresh (index : Nat) (use : AccUse) (r : Req) (run : Option Run)
  deriving DecidableEq, Repr

/-- The new access that a queue has ready: the completion action at HEAD, the descriptor being issued, or a fetch. -/
def readyNew (s : State) (e q : Nat) : Option Ready :=
  let k := queueOf s e q
  if qState s e q = QS_RUNNING || qState s e q = QS_WAITING then
    match actionAcc s e q with
    | some (i, u, r, run) => some (.fresh i u r (some run))
    | none =>
      if k.runs.any faulted then none
      else
        match k.runs.findSome? (fun r =>
            if r.ended then none
            else match nextOf s e q r with
              | .issue u a run => some (Ready.fresh r.index u a (some run))
              | _ => none) with
        | some x => some x
        | none => (fetchAcc s e q).map (fun f => .fresh f.1 f.2.1 f.2.2 none)
  else none

/-- The access of a queue that is due again (R145, R350). -/
def dueAgain (s : State) (e q : Nat) : Option EngAcc :=
  (queueOf s e q).accs.find? (fun a => match a.again with | some t => decide (t ≤ s.time) | none => false)

/-- The access that a queue has ready: one that is due again comes first (DESIGN CHOICE, log entry 66). -/
def readyAcc (s : State) (e q : Nat) : Option Ready :=
  match dueAgain s e q with
  | some a => some (.again a)
  | none => readyNew s e q

/-- The request of a ready access. -/
def readyReq : Ready → Req
  | .again a => a.req
  | .fresh _ _ r _ => r

/-- The access that a queue may issue now: its bank queue is not full (R142), and it waits for no UTAG (R332). -/
def issuable (s : State) (e q : Nat) : Option Ready :=
  match readyAcc s e q with
  | some x => if bankFull s (readyReq x) || lookupBlocked s (readyReq x) then none else some x
  | none => none

/-- Issue a queue's ready access. -/
def issueReady (s : State) (e q : Nat) : State :=
  match issuable s e q with
  | none => s
  | some (.again a) => reissueAccess s e q a
  | some (.fresh i u r run) =>
    let s := match run with
      | some x => mapRun s e q i (fun _ => x)
      | none => s
    issueAccess s e q i u r

/-- The queue that the engine serves next: round-robin from the one after the queue served last. -/
def nextQueue (s : State) (e : Nat) : Option Nat :=
  ((List.range 4).map (fun k => ((engineOf s e).lastQ + 1 + k) % 4)).find? (fun q => (issuable s e q).isSome)

/-- Take up what has come for all four queues of an engine. -/
def prepareEngine (s : State) (e : Nat) : State := (List.range 4).foldl (fun s q => actionSkip (prepareQueue s e q) e q) s

end Sys2Proof.Machine
end

