-- ==== Sys2Proof/Machine/Descriptors.lean ====
section
/-! DEFINITION. The begin of each descriptor opcode but MATCH, with the checks made before any access (R150–R165), and the events
of a WAIT (R160–R162). -/

namespace Sys2Proof.Machine

/-- A descriptor's row by its opcode. -/
def opIs (n : Nat) (d : List Byte) : Bool := dOp d = n

/-- Start a descriptor: `check` gives the status of the first check that fails before any access (R150, R440), with its RESULT. -/
def startChecked (check : Option (Nat × Nat)) (r : Run) : Run :=
  match check with
  | some (st, res) => endRun r st res
  | none => r

/-- The RANGE of a LEN outside its limits (R150). -/
def lenRange (ok : Bool) : Option (Nat × Nat) := if ok then none else some (DS_RANGE, 0)

/-- The largest LEN of a range. -/
def maxLen : Nat := 16777216

/-- NOP (R165); an undefined OPCODE ends with BADDESC. -/
def startNop (_ : State) (r : Run) : Run :=
  if dOp r.desc = 0x00 then
    (match lenRange (dLen r.desc = 0) with | some x => endRun r x.1 x.2 | none => endRun r DS_OK 0)
  else endRun r DS_BADDESC 0

/-- FENCE (R165). -/
def startFence (_ : State) (r : Run) : Run :=
  if dLen r.desc = 0 then endRun r DS_OK 0 else endRun r DS_RANGE 0

/-- COPY (R152): LEN, then overlap of the two ranges. -/
def startCopy (_ : State) (r : Run) : Run :=
  let len := dLen r.desc
  startChecked (lenRange (len ≤ maxLen && (len = 0 || (len ≤ sub32 (dA r.desc) (dB r.desc) && len ≤ sub32 (dB r.desc) (dA r.desc))))) r

/-- FILL, CRC32C and COMPARE: LEN. -/
def startRange (_ : State) (r : Run) : Run := startChecked (lenRange (dLen r.desc ≤ maxLen)) r

/-- CRC32C (R154): LEN, then the alignment of B. -/
def startCrc (_ : State) (r : Run) : Run :=
  startChecked (if maxLen < dLen r.desc then some (DS_RANGE, 0)
    else if bitOf (dSub r.desc) 0 && dB r.desc % 4 != 0 then some (DS_MISALIGN, dB r.desc) else none) r

/-- GATHER and SCATTER (R153). -/
def startElements (_ : State) (r : Run) : Run :=
  let len := dLen r.desc
  let es := dEsize r.desc
  startChecked (lenRange (1 ≤ es && es ≤ 4096 && es ≤ len && len % es = 0 && len ≤ maxLen && dSub r.desc ≤ 1)) r

/-- ACCUM (R156, R157): a LEN of 0 ends OK; OPFMT, LEN and the alignment of B otherwise. -/
def startAccum (_ : State) (r : Run) : Run :=
  let len := dLen r.desc
  let n := storedSize (dOpfmt r.desc)
  if len = 0 then endRun r DS_OK 0
  else startChecked (if !opfmtDefined (dOpfmt r.desc) || maxLen < len || len % n != 0 then some (DS_RANGE, 0)
    else if dB r.desc % n != 0 then some (DS_MISALIGN, 0) else none) r

/-- SEMA (R158). -/
def startSema (_ : State) (r : Run) : Run := startChecked (lenRange (dLen r.desc = 0 && dSub r.desc ≤ 5)) r

/-- POST (R159). -/
def startPost (s : State) (r : Run) : Run :=
  startChecked (if 192 < dLen r.desc then some (DS_RANGE, 0)
    else if numMailboxes s.variant ≤ dA r.desc then some (DS_ABSENT, 0) else none) r

/-- PUSH (R163, R164): LEN, the port's presence, its rights, its state. -/
def startPush (e q : Nat) (s : State) (r : Run) : Run :=
  let p := dSub r.desc % 8
  let own := rdF s (R_Q_CFG e q) Q_CFG_PORT
  startChecked (if dLen r.desc = 0 || 4096 < dLen r.desc then some (DS_RANGE, 0)
    else if numPorts s.variant ≤ p then some (DS_ABSENT, 0)
    else if isPairPort s p || !(portPrivileged s own || p = own) then some (DS_DENIED, 0)
    else if rdF s (R_LPH_STAT p) LPH_STAT_STATE != 5 then some (DS_PORTDOWN, 0) else none) r

/-! ### WAIT -/

/-- The test that a WAIT of kind 0 or 1 makes when it starts (R160, R161). -/
def waitStart (s : State) (r : Run) : Run :=
  match waitTest s r with
  | some x => endRun r x.1 x.2
  | none => r

/-- A WAIT begins (R160). -/
def startWait (s : State) (r : Run) : Run :=
  if dLen r.desc != 0 || 3 < dSub r.desc then endRun r DS_RANGE 0
  else if dSub r.desc ≤ 1 then (if 1023 < dA r.desc % 65536 then endRun r DS_RANGE 0 else waitStart s r)
  else { r with phase := 1 }

/-- What an event of its vat has ended a WAIT with takes effect. -/
def takeSeen (r : Run) : Run :=
  match r.seen with
  | some x => endRun r x.1 x.2
  | none => { r with recheck := false }

/-- A WAIT or lock wait that an event names is tested again (R161, R183): a vat's fields were tested with the event, a semaphore by a new
PEEK or TRY once none is outstanding, and not once the limit has passed. -/
def reevaluate (s : State) (r : Run) : Run :=
  if r.ended || !r.recheck then r
  else if dOp r.desc = 0x0B then
    if dSub r.desc ≤ 1 then takeSeen r
    else if r.phase = 0 && !limitBefore s r then { r with phase := 1, recheck := false } else r
  else if dOp r.desc = 0x08 && r.phase = 1 && !limitBefore s r then { r with phase := 0, recheck := false }
  else r

/-- The timeout of a WAIT (R161) or of a MATCH's lock wait (R183). A test that falls in the same cycle comes first; an issued PEEK
or TRY is awaited. -/
def waitTimesOut (s : State) (r : Run) : Run :=
  if r.ended || !limitPassed s r then r
  else if dOp r.desc = 0x0B then
    if dSub r.desc ≤ 1 then (if r.seen.isSome then takeSeen r else endRun r DS_TIMEOUT 0)
    else if r.phase = 2 then { r with phase := 3 }
    else if r.phase = 3 then r
    else endRun r DS_TIMEOUT 0
  else if dOp r.desc = 0x08 then
    if r.phase = 2 then { r with phase := 3 }
    else if r.phase = 1 || (r.phase = 0 && r.lockWaited) then { endRun r DS_TIMEOUT r.result with phase := 9 }
    else r
  else r

/-- Apply a function to every descriptor in progress of a queue. -/
def mapRuns (s : State) (e q : Nat) (f : Run → Run) : State :=
  let k := queueOf s e q
  setQueue s e q { k with runs := k.runs.map f }

/-- WAIT_REEVALUATE (R161): the PEEK or TRY leaves at once when the engine's issue slot is free and its turn is the queue's (R142). -/
def execWaitReevaluate (e : BitVec 4) (q : BitVec 2) (s : State) : Host.Outcome State Fault Refusal :=
  let e := e.toNat
  let q := q.toNat
  if coreOn s && e < numEngines s.variant && engState s e ≤ 1 then
    let s := prepareEngine s e
    let named := (queueOf s e q).runs.any (fun r => r.recheck && !r.ended && 2 ≤ dSub r.desc && dOp r.desc = 0x0B)
    let s' := refreshState (mapRuns s e q (reevaluate s)) e q
    .next (if named && engMayIssue s' e && nextQueue s' e = some q then issueReady s' e q else s')
  else .next s

/-- WAIT_TIMEOUT (R161). -/
def execWaitTimeout (e : BitVec 4) (q : BitVec 2) (s : State) : Host.Outcome State Fault Refusal :=
  let e := e.toNat
  let q := q.toNat
  if coreOn s && e < numEngines s.variant && engState s e ≤ 1 then
    let s := prepareQueue s e q
    .next (refreshState (mapRuns s e q (waitTimesOut s)) e q)
  else .next s

/-! ### The rows -/

/-- Whether an OPCODE is one of the table (R150). -/
def opDefined (n : Nat) : Bool := n ≤ 0x0D

/-- NOP (R165). A descriptor of an undefined OPCODE begins here too. -/
def execNopDesc (e : BitVec 4) (q : BitVec 2) (s : State) : Host.Outcome State Fault Refusal :=
  .next (beginDesc s e.toNat q.toNat (fun d => dOp d = 0x00 || !opDefined (dOp d)) startNop)
/-- COPY (R152). -/
def execCopyDesc (e : BitVec 4) (q : BitVec 2) (s : State) : Host.Outcome State Fault Refusal :=
  .next (beginDesc s e.toNat q.toNat (opIs 0x01) startCopy)
/-- FILL (R152). -/
def execFillDesc (e : BitVec 4) (q : BitVec 2) (s : State) : Host.Outcome State Fault Refusal :=
  .next (beginDesc s e.toNat q.toNat (opIs 0x02) startRange)
/-- GATHER (R153). -/
def execGatherDesc (e : BitVec 4) (q : BitVec 2) (s : State) : Host.Outcome State Fault Refusal :=
  .next (beginDesc s e.toNat q.toNat (opIs 0x03) startElements)
/-- SCATTER (R153). -/
def execScatterDesc (e : BitVec 4) (q : BitVec 2) (s : State) : Host.Outcome State Fault Refusal :=
  .next (beginDesc s e.toNat q.toNat (opIs 0x04) startElements)
/-- ACCUM (R156). -/
def execAccumDesc (e : BitVec 4) (q : BitVec 2) (s : State) : Host.Outcome State Fault Refusal :=
  .next (beginDesc s e.toNat q.toNat (opIs 0x05) startAccum)
/-- CRC32C (R154). -/
def execCrcDesc (e : BitVec 4) (q : BitVec 2) (s : State) : Host.Outcome State Fault Refusal :=
  .next (beginDesc s e.toNat q.toNat (opIs 0x06) startCrc)
/-- COMPARE (R155). -/
def execCompareDesc (e : BitVec 4) (q : BitVec 2) (s : State) : Host.Outcome State Fault Refusal :=
  .next (beginDesc s e.toNat q.toNat (opIs 0x07) startRange)
/-- SEMA TRY (R158). A SUBOP that names no operation begins here too, and ends with RANGE. -/
def execSemaTry (e : BitVec 4) (q : BitVec 2) (s : State) : Host.Outcome State Fault Refusal :=
  .next (beginDesc s e.toNat q.toNat (fun d => opIs 0x09 d && (dSub d = 0 || 5 < dSub d)) startSema)
/-- SEMA RELEASE (R158). -/
def execSemaRelease (e : BitVec 4) (q : BitVec 2) (s : State) : Host.Outcome State Fault Refusal :=
  .next (beginDesc s e.toNat q.toNat (fun d => opIs 0x09 d && dSub d = 1) startSema)
/-- SEMA TICKET (R158). -/
def execSemaTicket (e : BitVec 4) (q : BitVec 2) (s : State) : Host.Outcome State Fault Refusal :=
  .next (beginDesc s e.toNat q.toNat (fun d => opIs 0x09 d && dSub d = 2) startSema)
/-- SEMA SERVE (R158). -/
def execSemaServe (e : BitVec 4) (q : BitVec 2) (s : State) : Host.Outcome State Fault Refusal :=
  .next (beginDesc s e.toNat q.toNat (fun d => opIs 0x09 d && dSub d = 3) startSema)
/-- SEMA PEEK (R158). -/
def execSemaPeek (e : BitVec 4) (q : BitVec 2) (s : State) : Host.Outcome State Fault Refusal :=
  .next (beginDesc s e.toNat q.toNat (fun d => opIs 0x09 d && dSub d = 4) startSema)
/-- SEMA NOTIFY (R158). -/
def execSemaNotify (e : BitVec 4) (q : BitVec 2) (s : State) : Host.Outcome State Fault Refusal :=
  .next (beginDesc s e.toNat q.toNat (fun d => opIs 0x09 d && dSub d = 5) startSema)
/-- POST (R159). -/
def execPostDesc (e : BitVec 4) (q : BitVec 2) (s : State) : Host.Outcome State Fault Refusal :=
  .next (beginDesc s e.toNat q.toNat (opIs 0x0A) startPost)
/-- WAIT on TALLY (R160). A SUBOP that names no kind begins here too, and ends with RANGE. -/
def execWaitTally (e : BitVec 4) (q : BitVec 2) (s : State) : Host.Outcome State Fault Refusal :=
  .next (beginDesc s e.toNat q.toNat (fun d => opIs 0x0B d && (dSub d = 0 || 3 < dSub d)) startWait)
/-- WAIT on COMPLETIONS (R160). -/
def execWaitCompletions (e : BitVec 4) (q : BitVec 2) (s : State) : Host.Outcome State Fault Refusal :=
  .next (beginDesc s e.toNat q.toNat (fun d => opIs 0x0B d && dSub d = 1) startWait)
/-- WAIT until a semaphore is free (R160). -/
def execWaitFree (e : BitVec 4) (q : BitVec 2) (s : State) : Host.Outcome State Fault Refusal :=
  .next (beginDesc s e.toNat q.toNat (fun d => opIs 0x0B d && dSub d = 2) startWait)
/-- WAIT until the engine has taken a semaphore (R160, R162). -/
def execWaitTake (e : BitVec 4) (q : BitVec 2) (s : State) : Host.Outcome State Fault Refusal :=
  .next (beginDesc s e.toNat q.toNat (fun d => opIs 0x0B d && dSub d = 3) startWait)
/-- PUSH (R163). -/
def execPushDesc (e : BitVec 4) (q : BitVec 2) (s : State) : Host.Outcome State Fault Refusal :=
  .next (beginDesc s e.toNat q.toNat (opIs 0x0C) (startPush e.toNat q.toNat))
/-- FENCE (R165). -/
def execDescriptorFence (e : BitVec 4) (q : BitVec 2) (s : State) : Host.Outcome State Fault Refusal :=
  .next (beginDesc s e.toNat q.toNat (opIs 0x0D) startFence)

end Sys2Proof.Machine
end

