-- ==== Sys2Proof/Machine/Match.lean ====
section
/-! DEFINITION. The matching assist (R176–R194): the begin of a MATCH with its checks, and the registers of block 0x19. -/

namespace Sys2Proof.Machine

/-! ### The descriptor (R184) -/

/-- A context's registers as a MATCH finds them at its check: ENABLE, and what a MATCH past its check keeps, as they stood before a write of
this cycle that clears ENABLE (R194). -/
def ctxOf (s : State) (n : Nat) : MatchCtx :=
  let ctl := rdBefore s (R_MC_CTL n)
  let pool := rdBefore s (R_MC_POOL n)
  { k := getF ctl MC_CTL_K, lockSem := getF ctl MC_CTL_LOCKSEM, header := getF (rdBefore s (R_MC_BASE n)) MC_BASE_BASE <<< 6,
    pool := getF pool MC_POOL_BASE <<< 6, count := getF pool MC_POOL_COUNT }

/-- A MATCH begins: its checks before the lock (R166, R186), RANGE before DENIED before MISALIGN (DESIGN CHOICE, log entry 80). -/
def startMatch (e q : Nat) (s : State) (r : Run) : Run :=
  let d := r.desc
  let n := mCtx d
  startChecked
    (if !bigVariant s.variant then some (DS_ABSENT, 0)
     else if 255 < dA d || !hasF (rdBefore s (R_MC_CTL n)) MC_CTL_ENABLE || 3 < dSub d ||
        (if dSub d ≤ 1 then maxLen < dLen d else dLen d != 0) then some (DS_RANGE, 0)
     else if !bitOf (rdF s (R_MC_CTL n) MC_CTL_PORTS) (rdF s (R_Q_CFG e q) Q_CFG_PORT) then some (DS_DENIED, 0)
     else if dD d % 64 != 0 || (dSub d = 3 && dB d % 64 != 0) then some (DS_MISALIGN, 0)
     else none) { r with mctx := ctxOf s n }

/-- A MATCH row: begin the next descriptor when it is of this SUBOP. The TRY, the list work, the record and the RELEASE are accesses of the
engine's issue steps (R142, R166). -/
def matchRow (s : State) (e q : Nat) (sub : Nat → Bool) : State := beginDesc s e q (fun d => opIs 0x08 d && sub (dSub d)) (startMatch e q)

/-- MATCH ARRIVE (R187). A SUBOP above 3 begins here too, and ends with RANGE. -/
def execMatchArrive (e : BitVec 4) (q : BitVec 2) (s : State) : Host.Outcome State Fault Refusal :=
  .next (matchRow s e.toNat q.toNat (fun n => n = 0 || 3 < n))
/-- MATCH POST (R188). -/
def execMatchPost (e : BitVec 4) (q : BitVec 2) (s : State) : Host.Outcome State Fault Refusal :=
  .next (matchRow s e.toNat q.toNat (fun n => n = 1))
/-- MATCH PROBE (R189). -/
def execMatchProbe (e : BitVec 4) (q : BitVec 2) (s : State) : Host.Outcome State Fault Refusal :=
  .next (matchRow s e.toNat q.toNat (fun n => n = 2))
/-- MATCH CANCEL (R189). -/
def execMatchCancel (e : BitVec 4) (q : BitVec 2) (s : State) : Host.Outcome State Fault Refusal :=
  .next (matchRow s e.toNat q.toNat (fun n => n = 3))

/-! ### Registers (R193, R194) -/

/-- Header address. -/
def mcHeader (s : State) (n : Nat) : Nat := rdF s (R_MC_BASE n) MC_BASE_BASE <<< 6
/-- Pool address. -/
def mcPool (s : State) (n : Nat) : Nat := rdF s (R_MC_POOL n) MC_POOL_BASE <<< 6
/-- Entries of the pool. -/
def mcCount (s : State) (n : Nat) : Nat := rdF s (R_MC_POOL n) MC_POOL_COUNT

/-- Context of a register of block 0x19. -/
def ctxOfKey (key : Nat) : Nat := (key - 0x190000) / 0x40

/-- Whether two ranges meet. -/
def rangesMeet (a la b lb : Nat) : Bool := a < b + lb && b < a + la

/-- Whether every line of a range lies in the present array. -/
def linesPresent (v : Variant) (base len : Nat) : Bool :=
  base + len ≤ 0x10000000 && (List.range ((len + 63) / 64)).all (fun i => arrayPresent v (base + 64 * i))

/-- Whether the areas of a context let it be enabled with bucket code `k` (R194). -/
def areasGood (s : State) (n k : Nat) : Bool :=
  let h := mcHeader s n
  let p := mcPool s n
  let hl := 64 + 2 ^ (k + 4)
  let c := mcCount s n
  h != 0 && p != 0 && c != 0 && c ≤ 262144 && !rangesMeet h hl p (64 * c) && linesPresent s.variant h hl &&
    linesPresent s.variant p (64 * c)

/-- A write of MC_CTL (R194). -/
def wrMcCtl (s : State) (n : Nat) (v : Word64) : Written :=
  let key := R_MC_CTL n
  let on := rdB s key MC_CTL_ENABLE
  if 12 < getF v MC_CTL_K then refusedWith s .range
  else if on && (getF v MC_CTL_K != rdF s key MC_CTL_K || getF v MC_CTL_LOCKSEM != rdF s key MC_CTL_LOCKSEM) then refusedWith s .range
  else if !on && hasF v MC_CTL_ENABLE && !areasGood s n (getF v MC_CTL_K) then refusedWith s .range
  else accepted (plainWrite (if on then noteBefore s key else s) key v)

/-- A write of MC_BASE or MC_POOL (R194). In the cycle that has cleared ENABLE a MATCH that is checked finds the old areas. -/
def wrMcArea (s : State) (key : Nat) (v : Word64) : Written :=
  let ctl := R_MC_CTL (ctxOfKey key)
  let after := plainWrite (if hasF (rdBefore s ctl) MC_CTL_ENABLE then noteBefore s key else s) key v
  if rdB s ctl MC_CTL_ENABLE && rd after key != rd s key then refusedWith s .range else accepted after

/-- A write of MC_GCTL: STAT_CLEAR. -/
def wrMcGctl (s : State) (v : Word64) : State :=
  if acts v MC_GCTL_STAT_CLEAR then
    noteCleared ((List.range 256).foldl (fun s n => wr (wr (wr s (R_MC_STAT n) 0) (R_MC_WALK n) 0) (R_MC_ERR n) 0) s) 0x19
  else s

end Sys2Proof.Machine
end

