-- ==== Sys2Proof/Machine/EngineCtl.lean ====
section
/-! DEFINITION. Rack engines, their control: the issue step and reissues (R142, R145), the queue registers (R137–R141, R168, R169),
engines out of service (R170–R172, R260), the steps of racking (R173), and the bank slot with what follows it at the engines. -/

namespace Sys2Proof.Machine

/-! ### Going offline, coming back, reset -/

/-- End the WAITs of a queue with ABORTED (R169), but those that an event has ended before. A TRY of a WAIT of kind 3 may be outstanding: its
answer is discarded, and a semaphore that it took stays held by the engine (DESIGN CHOICE, log entry 69). -/
def abortWaits (s : State) (e q : Nat) : State :=
  mapRuns s e q (fun r =>
    if dOp r.desc = 0x0B && !r.ended then (if r.seen.isSome then takeSeen r else endRun r DS_ABORTED 0) else r)

/-- Stop a queue that runs (R169). A STOP of a queue that is stopping because its engine goes offline adds nothing: the queue returns to
RUNNING with the engine (DESIGN CHOICE, log entry 70). -/
def stopRunning (s : State) (e q : Nat) (forOffline : Bool) : State :=
  let st := qState s e q
  if st = QS_IDLE || st = QS_RUNNING || st = QS_WAITING then
    let k := queueOf s e q
    let s := setQueue s e q { k with stopping := true, offlined := k.offlined || (forOffline && !k.stopping) }
    refreshState (abortWaits s e q) e q
  else s

/-- All four queues stop; the engine is GOING_OFFLINE (R170). -/
def beginOffline (s : State) (e : Nat) : State :=
  setEngState ((List.range 4).foldl (fun s q => stopRunning s e q true) s) e 1

/-- The engine returns: each queue to the state it held before (R170). -/
def comeOnline (s : State) (e : Nat) : State :=
  let s := setEngState s e 0
  let s := (List.range 4).foldl (fun s q =>
    let k := queueOf s e q
    if k.offlined then
      let s := setQueue s e q { k with stopping := false, offlined := false }
      if qState s e q = QS_OFFLINE || qState s e q = QS_STOPPED then runOrIdle s e q else s
    else s) s
  rackResume (retireStart s)

/-- Whether an engine has a copy of its own waiting at a bank. -/
def copyWaits (s : State) (e : Nat) : Bool :=
  s.banks.any (fun b => (b.2.queue ++ b.2.staging).any (fun r => isCopy r && whoId r.who = 8 + e))

/-- Whether every issued access of an engine is complete; one that waits for a reissue has none outstanding. -/
def engineQuiet (s : State) (e : Nat) : Bool :=
  (List.range 4).all (fun q => (queueOf s e q).accs.all (fun a => a.doneAt.isSome)) && !copyWaits s e

/-- A reset of an engine ends (R171): descriptors are abandoned, queues DISABLED, a racking job goes on from the default engine. -/
def finishReset (s : State) (e : Nat) : State :=
  let s := (List.range 4).foldl (fun s q =>
    let s := setQueue s e q queueReset
    let s := wrB s (R_Q_CFG e q) Q_CFG_ENABLE false
    wr (wr (wr s (R_Q_STATE e q) 0) (R_Q_FAULT e q) 0) (R_Q_FAULTADDR e q) 0) s
  let s := dropPushes s (fun w => w.e = e)
  let s := setEngine s e engineReset
  let s := wrB s (R_ENG_RACK e) ENG_RACK_ACTIVE false
  let s := wr s (R_ENG_STAT e) 0
  rackResume (setEngState s e (if rdB s (R_ENG_CTL e) ENG_CTL_OFFLINE then 2 else 0))

/-- Finish a reset once every issued access is complete. A reset that a fatal error has frozen does not end (R172). -/
def settleReset (s : State) (e : Nat) : State :=
  if (engineOf s e).resetting && engState s e = 4 && engineQuiet s e then finishReset s e else s

/-- A write of ENG_CTL (R170, R171): OFFLINE waits for a racking job, and its clearing for a self-test (R260). A frozen engine keeps
its state until a reset, its own among them (R172, R354). -/
def wrEngCtl (s : State) (e : Nat) (v : Word64) : State :=
  let s := plainWrite s (R_ENG_CTL e) v
  let st := engState s e
  let off := hasF v ENG_CTL_OFFLINE
  let s :=
    if off && st = 0 && !rdB s (R_ENG_STAT e) ENG_STAT_RACKING then beginOffline s e
    else if !off && s.test.selfEnd.any (fun x => x.1 = e) then
      { s with test := { s.test with selfOnline := s.test.selfOnline.filter (fun x => x != e) ++ [e] } }
    else if off then { s with test := { s.test with selfOnline := s.test.selfOnline.filter (fun x => x != e) } }
    else if st = 1 || st = 2 then comeOnline s e
    else s
  if acts v ENG_CTL_RESET then
    settleReset (setEngState (setEngine s e { engineOf s e with resetting := true }) e 4) e
  else s

/-- ENGINE_OFFLINE_DONE (R170). -/
def execEngineOfflineDone (e : BitVec 4) (s : State) : Host.Outcome State Fault Refusal :=
  let e := e.toNat
  if coreOn s && e < numEngines s.variant then
    let s := prepareEngine s e
    let quiet := (List.range 4).all (fun q => (queueOf s e q).accs.isEmpty && (queueOf s e q).runs.isEmpty) && !copyWaits s e
    if engState s e = 1 && quiet then
      .next (setEngState ((List.range 4).foldl (fun s q =>
        if (queueOf s e q).offlined && qState s e q = QS_STOPPED then setQState s e q QS_OFFLINE else s) s) e 2)
    else .next s
  else .next s

/-- ENGINE_SELFTEST_END (R260): the engine stays OFFLINE whatever the result, unless OFFLINE was written 0 meanwhile. -/
def execEngineSelftestEnd (e : BitVec 4) (passed : Bool) (s : State) : Host.Outcome State Fault Refusal :=
  let e := e.toNat
  match s.test.selfEnd.find? (fun x => x.1 = e) with
  | none => .next s
  | some (_, t) =>
    if t ≤ s.time then
      let w := rd s R_TST_ENGRES
      let bit (f : Fld) (on : Bool) (w : Word64) : Word64 :=
        setF w f (if on then getF w f ||| 2 ^ e else getF w f - (if bitOf (getF w f) e then 2 ^ e else 0))
      let s := wr s R_TST_ENGRES (bit TST_ENGRES_PASSED passed (bit TST_ENGRES_FAILED (!passed) (bit TST_ENGRES_RUNNING false w)))
      let online := s.test.selfOnline.contains e
      let s := { s with test := { s.test with selfEnd := s.test.selfEnd.filter (fun x => x.1 != e),
                                              selfOnline := s.test.selfOnline.filter (fun x => x != e) } }
      .next (if online && engState s e = 2 then comeOnline s e else s)
    else .next s

/-! ### Issue -/

/-- ENGINE_ISSUE (R142): answers are taken up, a reset that waited for them ends, and one access is issued. -/
def execEngineIssue (e : BitVec 4) (s : State) : Host.Outcome State Fault Refusal :=
  let e := e.toNat
  if coreOn s && e < numEngines s.variant then
    let s := settleReset (prepareEngine s e) e
    if engMayIssue s e then
      match nextQueue s e with
      | some q => .next (issueReady s e q)
      | none => .next s
    else .next s
  else .next s

/-- ACCESS_REISSUE (R145, R350): the oldest access of a queue that is due again, when the engine's turn is the queue's (R142). -/
def execAccessReissue (e : BitVec 4) (q : BitVec 2) (s : State) : Host.Outcome State Fault Refusal :=
  let e := e.toNat
  let q := q.toNat
  if coreOn s && e < numEngines s.variant then
    let s := settleReset (prepareEngine s e) e
    if engMayIssue s e && (dueAgain s e q).isSome && nextQueue s e = some q then .next (issueReady s e q) else .next s
  else .next s

/-! ### Queue registers -/

/-- Engine of a register of block 0x18. -/
def engOfKey (key : Nat) : Nat := (key - 0x180000) / 0x1000
/-- Queue of a queue register. -/
def queueOfKey (key : Nat) : Nat := (key % 0x1000 - 0x100) / 0x80

/-- Whether a ring lies wholly in the present array (R133, R141). -/
def ringPresent (s : State) (e q : Nat) : Bool :=
  let base := ringBase s e q
  let len := 64 * ringSize s e q
  base + len ≤ 0x10000000 && (List.range ((len + 4095) / 4096)).all (fun i => arrayPresent s.variant (base + 4096 * i))

/-- A write of Q_RING (R141). -/
def wrQRing (s : State) (e q : Nat) (v : Word64) : Written :=
  let key := R_Q_RING e q
  let after := plainWrite s key v
  if 12 < getF v Q_RING_SIZE then refusedWith s .range
  else if rdB s (R_Q_CFG e q) Q_CFG_ENABLE && rd after key != rd s key then refusedWith s .range
  else accepted after

/-- A write of Q_HEAD (R141). -/
def wrQHead (s : State) (e q : Nat) (v : Word64) : Written :=
  let key := R_Q_HEAD e q
  let after := plainWrite s key v
  if rdB s (R_Q_CFG e q) Q_CFG_ENABLE && rd after key != rd s key then refusedWith s .range else accepted after

/-- A write of Q_TAIL: a start event (R137). -/
def wrQTail (s : State) (e q : Nat) (v : Word64) : Written :=
  let x := 0xE7 <<< 56 + getF v Q_TAIL_TAIL
  { status := if startAccepted s e q x then .ok else .range, state := startEvent s e q x, post := .none }

/-- A write of Q_CFG (R4, R141, R147). -/
def wrQCfg (s : State) (e q : Nat) (v : Word64) : Written :=
  let key := R_Q_CFG e q
  let on := rdB s key Q_CFG_ENABLE
  let on' := hasF v Q_CFG_ENABLE
  let st := qState s e q
  if numPorts s.variant ≤ getF v Q_CFG_PORT then refusedWith s .absent
  else if on && getF v Q_CFG_PORT != rdF s key Q_CFG_PORT then refusedWith s .range
  else if on && !on' && !(st = QS_IDLE || st = QS_STOPPED || st = QS_FAULT) then refusedWith s .range
  else if !on && on' && (!ringPresent s e q || ringSize s e q < sub32 (qTail s e q) (qHead s e q)) then refusedWith s .range
  else
    let s := plainWrite s key v
    if !on && on' then
      accepted (toRunOrIdle (wrF (setQueue s e q queueReset) (R_Q_STATE e q) Q_STATE_LAST 0) e q)
    else if on && !on' then accepted (setQState (setQueue s e q queueReset) e q QS_DISABLED)
    else accepted s

/-- Whether a queue is in FAULT for the copy of SYNCING (R345). -/
def syncFaulted (s : State) (e q : Nat) : Bool :=
  match s.pair.syncFault with
  | some f => q = 0 && f.engine = e && f.entered
  | none => false

/-- RESUME_SKIP and RESUME_RETRY (R168). The descriptor that RESUME_SKIP passes is not counted in Q_COUNT.DONE (DESIGN CHOICE, log entry
68). When the fault was the copy's of SYNCING, either lets the copy go on where it stopped, and HEAD stays (DESIGN CHOICE, log entry 71). -/
def resumeQueue (s : State) (e q : Nat) (skip : Bool) : State :=
  if qState s e q = QS_FAULT then
    let s := if syncFaulted s e q then { s with pair := { s.pair with syncFault := none } }
      else if skip then wrF s (R_Q_HEAD e q) Q_HEAD_HEAD (qHead s e q + 1) else s
    let s := wrF s (R_Q_STATE e q) Q_STATE_LAST 1
    if rdB s (R_Q_CFG e q) Q_CFG_ENABLE then toRunOrIdle s e q else setQState s e q QS_DISABLED
  else s

/-- GO (R169). -/
def goStopped (s : State) (e q : Nat) : State := if qState s e q = QS_STOPPED then toRunOrIdle s e q else s

/-- A write of Q_CTL (R168, R169): RESUME_SKIP before RESUME_RETRY; with several bits set the resume comes first, then GO, then STOP (DESIGN
CHOICE, log entry 78). -/
def wrQCtl (s : State) (e q : Nat) (v : Word64) : State :=
  let s := if acts v Q_CTL_RESUME_SKIP then resumeQueue s e q true
    else if acts v Q_CTL_RESUME_RETRY then resumeQueue s e q false else s
  let s := if acts v Q_CTL_GO then goStopped s e q else s
  if acts v Q_CTL_STOP then stopRunning s e q false else s

/-! ### What follows a bank's slot -/

/-- The copy of SYNCING has met a fault (R345): once nothing of it is under way, queue 0 of its engine enters FAULT, with opcode 0xFF as for a
fetch (DESIGN CHOICE, log entry 71). A frozen engine enters nothing (R172). -/
def syncFaultStep (s : State) : State :=
  match s.pair.syncFault with
  | some f =>
    let k := queueOf s f.engine 0
    if !f.entered && !engFrozen s f.engine && k.runs.isEmpty && k.accs.isEmpty then
      enterFault { s with pair := { s.pair with syncFault := some { f with entered := true } } } f.engine 0
        (fetchFailed s (qHead s f.engine 0) (if f.code = 2 then DS_POISON else DS_UE) f.addr)
    else s
  | none => s

/-- The engines whose ENG_CTL.OFFLINE is 1. -/
def offlineEngines (s : State) : List Nat :=
  (s.regs.filter (fun x => 0x180000 ≤ x.1 && x.1 < 0x190000 && x.1 % 0x1000 = 0 && hasF x.2 ENG_CTL_OFFLINE)).map (fun x => engOfKey x.1)

/-- OFFLINE that waited for a racking job takes effect when the job has ended (R170). -/
def offlineStep (s : State) : State :=
  (offlineEngines s).foldl (fun s e =>
    if engState s e = 0 && !rdB s (R_ENG_STAT e) ENG_STAT_RACKING then beginOffline s e else s) s

/-- A bank cycle, and what its slot brings about at the engines. -/
def slotStep (s : State) (b : Nat) : State := offlineStep (syncFaultStep (bankCycle s b))

/-- BANK_SLOT (R14, R44, R53–R64). -/
def execBankSlot (bank : BitVec 6) (s : State) : Host.Outcome State Fault Refusal :=
  let b := bank.toNat
  if bankCycleFree s b then .next (slotStep s b) else .next s

/-- The slot of a copy that waits at a bank takes place when the bank's cycle would go to it. -/
def copySlot (s : State) (b : Nat) (r : BReq) : State := if copyWins s b r then slotStep s b else s

/-! ### Racking (R173, R174) -/

/-- Whether a racking job may issue its next line: at most one every 4 cycles (R173). -/
def rackDue (s : State) (e : Nat) : Bool :=
  match (engineOf s e).rackAt with
  | some t => decide (t + 4 ≤ s.time)
  | none => true

/-- The copy of the next line is issued, in the engine's issue slot (R142, R173). -/
def rackIssue (s : State) (e b line : Nat) : State :=
  let s := useIssue s e
  let s := setEngine s e { engineOf s e with rackAt := some s.time }
  copyAccess s b (.engine e 0) 0xE2 (lineAddr s.variant b line)

/-- Whether the job of an engine may issue its next line: the engine may issue, the bank's queue has room, HOLD does not hold. -/
def rackMayIssue (s : State) (e b line : Nat) : Bool :=
  engMayIssue s e && !inHold s && rackDue s e && !bankFull s (engRead e 0 (lineAddr s.variant b line) 64) && !copyWaits s e

/-- RACK_COPY_LINE (R173): the next line of a racking job is issued, or the issued one is copied, in the slot that the engine's identifier
wins. -/
def execRackCopyLine (e : BitVec 4) (s : State) : Host.Outcome State Fault Refusal :=
  let e := e.toNat
  let b := rdF s (R_ENG_RACK e) ENG_RACK_BANK
  let line := rdF s (R_ENG_RACK e) ENG_RACK_LINE
  if e < numEngines s.variant && rdB s (R_ENG_STAT e) ENG_STAT_RACKING then
    match waitingCopy s b (.engine e 0) 0xE2 with
    | some r => .next (copySlot s b r)
    | none => if rackMayIssue s e b line then .next (rackIssue s e b line) else .next s
  else .next s

end Sys2Proof.Machine
end

