-- ==== Sys2Proof/Machine/Operands.lean ====
section
/-! DEFINITION. The operand forms of request units (R309–R311, R318): opcodes, runs, payload lengths, and headers that are malformed. -/

namespace Sys2Proof.Machine

/-! ### Opcodes (table "Request opcodes") -/

/-- The class of an opcode. -/
def opOfCode (code : Nat) : Option Op :=
  match code with
  | 0x01 => some .read
  | 0x02 => some .write
  | 0x03 => some .read
  | 0x04 => some .write
  | 0x10 => some (.atomic .fadd)
  | 0x11 => some (.atomic .fand)
  | 0x12 => some (.atomic .for_)
  | 0x13 => some (.atomic .fxor)
  | 0x14 => some (.atomic .swap)
  | 0x15 => some (.atomic .cas)
  | 0x16 => some (.atomic .fmins)
  | 0x17 => some (.atomic .fminu)
  | 0x18 => some (.atomic .fmaxs)
  | 0x19 => some (.atomic .fmaxu)
  | 0x20 => some .acc
  | 0x21 => some .rdcv
  | 0x30 => some .fence
  | _ => none

/-- Whether an opcode is a run (R311). -/
def isRun (code : Nat) : Bool := code = 0x03 || code = 0x04

/-- Payload bytes of a request (R310). -/
def payloadLen (code len opfmt run : Nat) : Nat :=
  match code with
  | 0x02 => len
  | 0x04 => 64 * run
  | 0x15 => 2 * len
  | 0x20 => if opfmt = 8 then (len + 1) / 2 else len
  | 0x01 => 0
  | 0x03 => 0
  | 0x21 => 0
  | 0x30 => 0
  | _ => len

/-- Whether a request unit is malformed by its header (R318). -/
def headerMalformed (code len run : Nat) : Bool :=
  (opOfCode code).isNone || (code != 0x30 && (len = 0 || 64 < len)) || (isRun code && (len != 64 || run = 0 || 16 < run))

/-- Members of a request: those of a run, or one. -/
def memberCount (code run : Nat) : Nat := if isRun code then run else 1

end Sys2Proof.Machine
end

