-- ==== Sys2Proof/Machine/Obs.lean ====
section
/-! DEFINITION. Observation (R402–R415, R420): the counters' step at the end of a cycle, FREEZE and reprogramming, the sampler and
its records, the windows, and the register writes of block 0x30. -/

namespace Sys2Proof.Machine

/-! ### Counters -/

/-- The event that counter `i` counts in this cycle: its old one when it is reprogrammed in it (R407). -/
def pcEvent (s : State) (i : Nat) : Nat :=
  match s.obs.reprog.find? (fun x => x.1 = i) with
  | some x => x.2
  | none => rdF s (R_PC_CFG i) PC_CFG_EVENT

/-- Occurrences in this cycle of the event that counter `i` counts. -/
def pcOcc (s : State) (i : Nat) : Nat := sget 0 s.obs.occ (pcEvent s i)

/-- A counter has wrapped: one that is reprogrammed in its cycle loses the overflow, another raises its event (R406, R407). -/
def pcWrapped (s : State) (i : Nat) : State :=
  if s.obs.reprog.any (fun x => x.1 = i) then addSat s R_PC_OVF_LOST PC_OVF_LOST_COUNT 1
  else if rdB s (R_PC_CFG i) PC_CFG_IRQ then raiseSource s 4100
  else s

/-- Step 1 of R406 for one counter: this cycle's occurrences are added (R403). -/
def pcAdd (s : State) (i : Nat) : State :=
  let n := rdF s (R_PC_CNT i) PC_CNT_COUNT + pcOcc s i
  if pcOcc s i = 0 then s
  else if n < 2 ^ 48 then wrF s (R_PC_CNT i) PC_CNT_COUNT n
  else pcWrapped (wrB (wrF s (R_PC_CNT i) PC_CNT_COUNT (n % 2 ^ 48)) (R_PC_CNT i) PC_CNT_OVF true) i

/-- Step 2 of R406: the snapshot of FREEZE (R408). -/
def freezeStep (s : State) : State :=
  wr ((List.range 64).foldl (fun s i =>
    wr s (R_PC_SNAP i) (w64 (rdF s (R_PC_CNT i) PC_CNT_COUNT + (b01 (rdB s (R_PC_CNT i) PC_CNT_OVF)) <<< 63))) s) R_PC_SNAPTIME (w64 s.time)

/-- The counters at the end of a cycle, in the order of R406. -/
def countCycle (s : State) : State :=
  let s := if s.obs.occ.isEmpty then s else (List.range 64).foldl pcAdd s
  let s := if s.obs.freeze then freezeStep s else s
  let s := s.obs.reprog.foldl (fun s x => wr s (R_PC_CNT x.1) 0) s
  { s with obs := { s.obs with occ := [], reprog := [], freeze := false } }

/-- A snapshot is taken at the end of this cycle (R406, R408). -/
def freezeCounters (s : State) : State := { s with obs := { s.obs with freeze := true } }

/-- A reprogramming write of counter `i` (R407), which takes effect at the end of the cycle; until then it counts its old event. -/
def reprogram (s : State) (i : Nat) : State :=
  if s.obs.reprog.any (fun x => x.1 = i) then s
  else { s with obs := { s.obs with reprog := (i, rdF s (R_PC_CFG i) PC_CFG_EVENT) :: s.obs.reprog } }

/-- The unit that an event number names is present (R405); `none` for a number outside the table. -/
def eventPresent (v : Variant) (ev : Nat) : Option Bool :=
  if ev ≤ 25 then some true
  else if ev < 64 then none
  else if ev < 320 then some (bankPresent v (ev % 64))
  else if ev < 384 then some ((ev - 320) / 8 < numPorts v)
  else if ev < 448 then some ((ev - 384) / 4 < numEngines v)
  else none

/-- A write of PC_CFG (R405, R407). -/
def wrPcCfg (s : State) (i : Nat) (v : Word64) : Written :=
  match eventPresent s.variant (getF v PC_CFG_EVENT) with
  | none => refusedWith s .range
  | some false => refusedWith s .absent
  | some true => accepted (plainWrite (reprogram s i) (R_PC_CFG i) v)

/-- A write of PC_GCTL (R406). -/
def wrPcGctl (s : State) (v : Word64) : State :=
  let s := if acts v PC_GCTL_FREEZE then freezeCounters s else s
  if acts v PC_GCTL_CLEAR_ALL then (List.range 64).foldl reprogram s else s

/-! ### Sampler -/

/-- The next sampler state (R409). -/
def smpNext (x : Nat) : Nat := if x % 2 = 1 then (x / 2) ^^^ 0x80200003 else x / 2

/-- Tagged requests in flight. -/
def tagsInFlight (s : State) : Nat := s.obs.smpOut.length + (s.txns.filter (fun t => t.sample.isSome)).length + (s.heldOrd.filter (fun t => t.sample.isSome)).length

/-- An accepted port request advances the sampler, which may tag it (R409). -/
def sampleAccept (s : State) : Option Sample × State :=
  if rdB s R_SMP_CTL SMP_CTL_ENABLE then
    let x := smpNext s.obs.smpS
    let s := { s with obs := { s.obs with smpS := x } }
    if x % 2 ^ rdF s R_SMP_CTL SMP_CTL_K = 0 then
      if 16 ≤ tagsInFlight s then (none, addSat s R_SMP_STAT SMP_STAT_SKIPPED 1)
      else (some { t1 := s.time, free := s.free, d2 := 0xFFFFFFFF, d3 := 0xFFFFFFFF, d4 := 0xFFFFFFFF, d5 := 0xFFFFFFFF,
                   held := false, dest := 4, bank := 0xFF, qdepth := 0, gsize := 1, gpos := 0 }, { s with free := s.free + 2 })
    else (none, s)
  else (none, s)

/-- Point 2: decode ends. -/
def sampleDecoded (t : Txn) : Txn :=
  { t with sample := t.sample.map (fun m => { m with d2 := (Config.freeWord m.free).toNat }) }

/-- Whether a response's SUP flag is set (R61, R313). -/
def responseSup (t : Txn) : Bool := t.sup && t.req.op = .write && t.status = .ok

/-- A point that a request did not pass (R410). -/
def notPassed : Nat := 0xFFFFFFFF

/-- The 64 bytes of a sampler record (R411); a response that is not packed has sent no flags. -/
def sampleBytes (s : State) (t : Txn) (m : Sample) (d6 d7 : Nat) (lost : Bool) : BitVec 512 :=
  let port := match t.req.who with
    | .port p _ => p
    | _ => 0
  let sent := d6 != notPassed
  BitVec.ofNat 512 (leNat (leBytes 8 m.t1 ++ leBytes 4 m.d2 ++ leBytes 4 m.d3 ++ leBytes 4 m.d4 ++ leBytes 4 m.d5 ++ leBytes 4 d6 ++
    leBytes 4 d7 ++ leBytes 1 (port + whoSlot t.req.who <<< 3 + (b01 t.req.ord) <<< 5 + (b01 t.split) <<< 6 + (b01 lost) <<< 7) ++
    leBytes 1 t.req.code ++ leBytes 2 t.req.tag ++ leBytes 4 t.req.addr ++ leBytes 1 t.req.len ++
    leBytes 1 (statusCode t.status + (b01 (t.ce && sent)) <<< 4 + (b01 (responseSup t && sent)) <<< 5 + (b01 m.held) <<< 6) ++
    leBytes 1 (if t.req.op = .fence && t.status = .ok then 5 else m.dest) ++ leBytes 1 m.bank ++ leBytes 1 m.qdepth ++
    leBytes 1 m.gsize ++ leBytes 1 m.gpos ++ leBytes 1 0 ++ leBytes 4 s.obs.smpSeq))

/-- Write a sampler record (R411); a full ring replaces its oldest or loses the new one. -/
def sampleWrite (s : State) (t : Txn) (d6 d7 : Nat) (lost : Bool) : State :=
  match t.sample with
  | none => s
  | some m =>
    let next := rdF s R_SMP_STAT SMP_STAT_NEXT
    let count := rdF s R_SMP_STAT SMP_STAT_COUNT
    if count = 1024 && rdB s R_SMP_CTL SMP_CTL_STOP_FULL then addSat s R_SMP_STAT SMP_STAT_LOST 1
    else
      let s := { s with obs := { s.obs with smpRing := sset 0 s.obs.smpRing next (sampleBytes s t m d6 d7 lost),
                                            smpSeq := (s.obs.smpSeq + 1) % 2 ^ 32 } }
      wrF (wrF s R_SMP_STAT SMP_STAT_NEXT (next + 1)) R_SMP_STAT SMP_STAT_COUNT (min 1024 (count + 1))

/-- Core cycles from the packing of a response to its last bit at the pins, whole cycles rounded up (table "Lane rates": 26.00, 28.29 and
32.86 ns). -/
def egressCycles (s : State) (p : Nat) : Nat := [42, 46, 53].getD (rdF s (R_LPH_STAT p) LPH_STAT_RATE) 53

/-- A tagged response is packed (R410): its record is due when its last bit leaves. -/
def samplePacked (s : State) (p : Nat) (t : Txn) : State :=
  match t.sample with
  | none => s
  | some m => { s with obs := { s.obs with smpOut := s.obs.smpOut ++ [(s.time + egressCycles s p, s.time - m.t1, t)] } }

/-- The records whose point 7 has been passed are written (R410, R411). -/
def sampleCycle (s : State) : State :=
  let out := s.obs.smpOut.filter (fun x => x.1 ≤ s.time)
  let s := out.foldl (fun s x => sampleWrite s x.2.2 x.2.1 (x.1 - (match x.2.2.sample with | some m => m.t1 | none => 0)) false) s
  { s with obs := { s.obs with smpOut := s.obs.smpOut.filter (fun x => !(x.1 ≤ s.time)) } }

/-- SMP_CTL.CLEAR (R411). -/
def smpClearStep (s : State) : State :=
  let s := wrF (wrF s R_SMP_STAT SMP_STAT_NEXT 0) R_SMP_STAT SMP_STAT_COUNT 0
  { s with obs := { s.obs with smpRing := [] } }

/-- A write of SMP_CTL (R409, R420). -/
def wrSmpCtl (s : State) (v : Word64) : Written :=
  if 20 < getF v SMP_CTL_K || getF v SMP_CTL_SEED = 0 then refusedWith s .range
  else
    let changed := getF v SMP_CTL_K != rdF s R_SMP_CTL SMP_CTL_K || getF v SMP_CTL_SEED != rdF s R_SMP_CTL SMP_CTL_SEED
    let s := plainWrite s R_SMP_CTL v
    let s := if changed then { s with obs := { s.obs with smpS := getF v SMP_CTL_SEED } } else s
    accepted (if acts v SMP_CTL_CLEAR then smpClearStep s else s)

/-- A write of SMP_IDX: at the end of the cycle the record is copied into its window (R412). -/
def wrSmpIdx (s : State) (v : Word64) : State :=
  let s := plainWrite s R_SMP_IDX v
  { s with obs := { s.obs with smpCopy := true } }

/-- The copy of the record INDEX. -/
def smpCopyStep (s : State) : State :=
  let r := sget 0 s.obs.smpRing (rdF s R_SMP_IDX SMP_IDX_INDEX)
  (List.range 8).foldl (fun s k => wr s (R_SMP_REC k) (w64 (r.toNat >>> (64 * k)))) s

/-! ### Trace -/

/-- A write of TR_IDX (R412). -/
def wrTrIdx (s : State) (v : Word64) : State :=
  let s := plainWrite s R_TR_IDX v
  { s with obs := { s.obs with trCopy := true } }

/-- The copy of the entry INDEX. -/
def trCopyStep (s : State) : State :=
  let r := sget 0 s.obs.trRing (rdF s R_TR_IDX TR_IDX_INDEX)
  (List.range 4).foldl (fun s k => wr s (R_TR_ENT k) (w64 (r.toNat >>> (64 * k)))) s

/-- Write the entry in place `n` of its cycle (R415): at most four a cycle; a full ring replaces its oldest entry or clears RUN. -/
def traceWrite (s : State) (t : TraceInfo) (n : Nat) : State :=
  if 4 ≤ n then addSat s R_TR_STAT TR_STAT_LOST 1
  else
    let next := rdF s R_TR_STAT TR_STAT_NEXT
    let count := rdF s R_TR_STAT TR_STAT_COUNT
    if count = 16384 && rdB s R_TR_CTL TR_CTL_STOP_FULL then wrB s R_TR_CTL TR_CTL_RUN false
    else
      let o := s.obs
      let s' := { s with obs := { o with trSeq := (o.trSeq + 1) % 0x10000, trRing := sset 0 o.trRing next (traceBytes t o.trSeq) } }
      wrF (wrF s' R_TR_STAT TR_STAT_NEXT (next + 1)) R_TR_STAT TR_STAT_COUNT (min 16384 (count + 1))

/-- The rings and windows at the end of a cycle: the cycle's trace entries, the sampler records that are due, then the copies (R412, R415). -/
def ringCycle (s : State) : State :=
  let s := sampleCycle (s.obs.trPend.zipIdx.foldl (fun s x => traceWrite s x.1 x.2) s)
  let s := if s.obs.smpCopy then smpCopyStep s else s
  let s := if s.obs.trCopy then trCopyStep s else s
  { s with obs := { s.obs with trPend := [], smpCopy := false, trCopy := false } }

/-- TR_CTL.CLEAR (R415). -/
def trClearStep (s : State) : State :=
  let s := wrF (wrF s R_TR_STAT TR_STAT_NEXT 0) R_TR_STAT TR_STAT_COUNT 0
  { s with obs := { s.obs with trRing := [] } }

/-- A write of TR_CTL. -/
def wrTrCtl (s : State) (v : Word64) : State :=
  let s := plainWrite s R_TR_CTL v
  if acts v TR_CTL_CLEAR then trClearStep s else s

/-- A write of TR_ADDR (R420). -/
def wrTrAddr (s : State) (v : Word64) : Written :=
  if getF v TR_ADDR_HI < getF v TR_ADDR_LO then refusedWith s .range else accepted (plainWrite s R_TR_ADDR v)

end Sys2Proof.Machine
end

