-- ==== Sys2Proof/Machine/Intc.lean ====
section
/-! DEFINITION. The interrupt controller (R195–R216): level inputs, events, candidates and best sources, claims and EOIs, evaluation,
messages and pins. A source's fields stand in its SRC_ENTRY register, a target's in its register set. -/

namespace Sys2Proof.Machine

/-! ### Sources -/

/-- Whether a field of a register is not zero. -/
def anyBits (s : State) (key : Nat) (f : Fld) : Bool := rdF s key f != 0

/-- The level input of a source (R196). -/
def rawLevel (s : State) (n : Nat) : Bool :=
  if n < 4097 then false
  else if n = 4097 then s.power.scHalted
  else if n = 4098 then inHold s
  else if n = 4099 then anyBits s R_PR_STAT ⟨8, 4⟩
  else if n = 4100 then (List.range 64).any (fun i => rdB s (R_PC_CNT i) PC_CNT_OVF && rdB s (R_PC_CFG i) PC_CFG_IRQ)
  else if 4104 ≤ n && n < 4112 then anyBits s (R_PT_STAT (n - 4104)) ⟨0, 6⟩
  else if 4112 ≤ n && n < 4128 then anyBits s (R_ENG_STAT (n - 4112)) ⟨8, 9⟩
  else if n = 4128 then rdB s R_INT_STAT INT_STAT_SCRUB_UE
  else if n = 4129 then rdB s R_INT_STAT INT_STAT_HARDFAULT
  else if n = 4130 then rdB s R_INT_STAT INT_STAT_REMAP
  else if n = 4131 then rdB s R_INT_STAT INT_STAT_LEES_FULL
  else false

/-- A one-bit field of a source's entry. -/
def srcB (s : State) (n : Nat) (f : Fld) : Bool := rdB s (R_SRC_ENTRY n) f
/-- A field of a source's entry. -/
def srcF (s : State) (n : Nat) (f : Fld) : Nat := rdF s (R_SRC_ENTRY n) f
/-- Target of a source (R195). -/
def srcTarget (s : State) (n : Nat) : Nat := srcF s n SRC_ENTRY_TARGET

/-- One event on a source (R198). -/
def applyEvent (s : State) (n : Nat) : State :=
  let key := R_SRC_ENTRY n
  let s := if rdF s key SRC_ENTRY_COUNT = 255 then wrB s key SRC_ENTRY_COUNT_OVF true else addWrap s key SRC_ENTRY_COUNT 1
  if rdB s key SRC_ENTRY_ACTIVE then s else wrB s key SRC_ENTRY_PENDING true

/-- A level source whose input is high pends while it is not ACTIVE (R200). -/
def holdLevel (s : State) (n : Nat) : State :=
  if srcB s n SRC_ENTRY_TRIGGER && !srcB s n SRC_ENTRY_ACTIVE && rawLevel s n then wrB s (R_SRC_ENTRY n) SRC_ENTRY_PENDING true else s

/-- The sources whose entry is not at reset, in ascending number: no other can pend. -/
def listedSources (s : State) : List Nat :=
  (s.regs.filter (fun e => 0x200000 ≤ e.1 && e.1 < 0x209000)).map (fun e => (e.1 - 0x200000) / 8)

/-- Apply the events that have reached the controller, and the level inputs (R206, step 1). -/
def applyEvents (s : State) : State :=
  let s := s.intcEvents.foldl applyEvent { s with intcEvents := [] }
  (listedSources s).foldl holdLevel s

/-! ### Selection (R201) -/

/-- Priority at the top of a target's stack. -/
def stackTop (s : State) (t : Nat) : Nat := rdF s (R_TGT_STACK t) TGT_STACK_TOP

/-- Whether a source is pending, enabled and of a priority, for target `t` (R204). -/
def qualifies (s : State) (t n : Nat) : Bool :=
  srcTarget s n = t && srcB s n SRC_ENTRY_PENDING && !srcB s n SRC_ENTRY_ACTIVE && srcB s n SRC_ENTRY_ENABLE &&
  srcF s n SRC_ENTRY_PRIORITY != 0

/-- Whether a source is a candidate for target `t` (R201). -/
def candidate (s : State) (t n : Nat) : Bool :=
  qualifies s t n && rdF s (R_TGT_CTL t) TGT_CTL_THRESHOLD < srcF s n SRC_ENTRY_PRIORITY && stackTop s t < srcF s n SRC_ENTRY_PRIORITY

/-- The best source of a target: highest priority, then lowest number (R201). -/
def bestSource (s : State) (t : Nat) : Option Nat :=
  ((listedSources s).filter (candidate s t)).foldl (fun m n =>
    match m with
    | none => some n
    | some x =>
      if srcF s x SRC_ENTRY_PRIORITY < srcF s n SRC_ENTRY_PRIORITY ||
          (srcF s x SRC_ENTRY_PRIORITY = srcF s n SRC_ENTRY_PRIORITY && n < x) then some n else some x) none

/-! ### Messages and evaluation (R202–R207) -/

/-- A message to a target is decided: sent, or discarded and counted when its port is not UP (R205). Kind 0x90 INTR, 0x91 WAKE, 0x92
WITHDRAW. -/
def decideMessage (s : State) (t kind src prio : Nat) : State :=
  let p := t / 4
  if rdF s (R_LPH_STAT p) LPH_STAT_STATE = 5 then
    let s := { s with msgs := s.msgs ++ [⟨s.time, p, t % 4, kind, src, prio⟩] }
    if kind = 0x90 then occur (addWrap s (R_TGT_MSGS t) TGT_MSGS_INTRS 1) EV_INTR
    else if kind = 0x91 then occur (addWrap s (R_TGT_MSGS t) TGT_MSGS_WAKES 1) EV_WAKE
    else occur (addWrap s (R_TGT_MSGS t) TGT_MSGS_WITHDRAWS 1) EV_WITHDRAW
  else addSat s (R_TGT_ERR t) TGT_ERR_HELD 1

/-- Whether a target delivers (R205); the targets of a pair port do not (R326). -/
def delivers (s : State) (t : Nat) : Bool := rdB s (R_TGT_CTL t) TGT_CTL_DELIVER && !(t < 32 && isPairPort s (t / 4))

/-- R202 for a target that is AWAKE. -/
def evalAwake (s : State) (t : Nat) : State :=
  let key := R_TGT_OUT t
  let s :=
    if rdB s key TGT_OUT_VALID && !candidate s t (rdF s key TGT_OUT_SOURCE) then
      wr (decideMessage s t 0x92 (rdF s key TGT_OUT_SOURCE) 0) key 0
    else s
  match bestSource s t with
  | some b =>
    let prio := srcF s b SRC_ENTRY_PRIORITY
    if !rdB s key TGT_OUT_VALID || rdF s key TGT_OUT_PRIORITY < prio then
      wr (decideMessage s t 0x90 b prio) key (w64 (b + prio <<< 16 + 1 <<< 63))
    else s
  | none => s

/-- Evaluate a target (R202–R205). -/
def evalTarget (s : State) (t : Nat) : State :=
  if 32 ≤ t then
    let on := delivers s t && (bestSource s t).isSome
    if sget false s.pins (t - 32) = on then s else emit { s with pins := sset false s.pins (t - 32) on } (.pin (t - 32) on)
  else if !delivers s t then s
  else if rdB s (R_TGT_CTL t) TGT_CTL_ASLEEP then
    if (listedSources s).any (qualifies s t) then wrB (decideMessage s t 0x91 0 0) (R_TGT_CTL t) TGT_CTL_ASLEEP false else s
  else evalAwake s t

/-- Targets present, in ascending order. -/
def presentTargets (v : Variant) : List Nat := (List.range 36).filter (targetPresent v)

/-- When a port reaches UP, its targets are evaluated afresh (R205). -/
def portUpTargets (s : State) (p : Nat) : State :=
  (List.range 4).foldl (fun s k => evalTarget (wr s (R_TGT_OUT (4 * p + k)) 0) (4 * p + k)) s

/-- The bytes of a message unit (R207, R316). -/
def messageBytes (m : IntcMsg) : List Byte :=
  leBytes 1 m.kind ++ leBytes 1 m.slot ++ leBytes 2 m.source ++ leBytes 2 m.prio ++ leBytes 2 0 ++ leBytes 8 m.decidedAt

/-- MESSAGE_SEND (R206, R207): 12 cycles after it was decided, a port's oldest message leaves; one whose port has left UP meanwhile is handed to
the link all the same (DESIGN CHOICE, log entry 82). -/
def execMessageSend (port : BitVec 3) (s : State) : Host.Outcome State Fault Refusal :=
  let p := port.toNat
  match s.msgs.find? (fun m => m.port = p) with
  | none => .next s
  | some m =>
    if coreOn s && m.decidedAt + 12 ≤ s.time then
      let bs := messageBytes m
      .next (occur (emit (sendOn { s with msgs := s.msgs.erase m } p 2 bs) (.message p bs)) (evPort p 2))
    else .next s

/-! ### Claim and EOI (R208–R211) -/

/-- The word of a claim of source `n`. -/
def claimWord (s : State) (n : Nat) : Word64 :=
  w64 (n + srcF s n SRC_ENTRY_PRIORITY <<< 16 + srcF s n SRC_ENTRY_COUNT <<< 24 + srcF s n SRC_ENTRY_COUNT_OVF <<< 32 +
    srcF s n SRC_ENTRY_TRIGGER <<< 33 + (b01 (rawLevel s n)) <<< 34 + 1 <<< 63)

/-- Show the top of a target's stack of depth `d`. -/
def showStack (s : State) (t d : Nat) : State :=
  if d = 0 then wr s (R_TGT_STACK t) 0
  else
    let e := rd s (R_TGT_STACKI t (d - 1))
    wr s (R_TGT_STACK t) (w64 (d + getF e TGT_STACKI_PRIORITY <<< 4 + getF e TGT_STACKI_SOURCE <<< 8))

/-- A claim (R208). -/
def claimTarget (s : State) (t : Nat) : Word64 × State :=
  match bestSource s t with
  | none => (0, addSat s (R_TGT_ERR t) TGT_ERR_EMPTY_CLAIMS 1)
  | some n =>
    let w := claimWord s n
    let d := rdF s (R_TGT_STACK t) TGT_STACK_DEPTH
    let prio := srcF s n SRC_ENTRY_PRIORITY
    let key := R_SRC_ENTRY n
    let s := wrF (wrB (wrB s key SRC_ENTRY_PENDING false) key SRC_ENTRY_ACTIVE true) key SRC_ENTRY_COUNT 0
    let s := showStack (wr s (R_TGT_STACKI t d) (w64 (n + prio <<< 16 + 1 <<< 63))) t (d + 1)
    (w, wr s (R_TGT_OUT t) 0)

/-- An EOI of source `n` (R210); one that names an absent source is refused for it (R4). -/
def eoiTarget (s : State) (t n : Nat) : Written :=
  if n < 4608 && !sourcePresent s.variant n then refusedWith s .absent
  else
  let d := rdF s (R_TGT_STACK t) TGT_STACK_DEPTH
  if d != 0 && rdF s (R_TGT_STACK t) TGT_STACK_TOP_SOURCE = n then
    let key := R_SRC_ENTRY n
    let s := wrB s key SRC_ENTRY_ACTIVE false
    let s := if rdF s key SRC_ENTRY_COUNT != 0 || (rdB s key SRC_ENTRY_TRIGGER && rawLevel s n) then wrB s key SRC_ENTRY_PENDING true else s
    accepted (showStack (wr s (R_TGT_STACKI t (d - 1)) 0) t (d - 1))
  else refusedWith (addSat s (R_TGT_ERR t) TGT_ERR_BADEOI 1) .range

/-! ### The order of a cycle (R206) -/

/-- What the controller has taken in this cycle. -/
def intcTurnNow (s : State) : IntcTurn :=
  if s.intcTurn.time = s.time then s.intcTurn else { time := s.time, next := 0, wrote := false, wasRead := false }

/-- Whether the controller has begun its cycle: it has taken something, or closed it. -/
def turnBegun (s : State) : Bool := (intcTurnNow s).next != 0 || (intcTurnNow s).wrote || (intcTurnNow s).wasRead

/-- Step 1 of a cycle: every event that has reached the controller is applied before anything is taken. An event that is raised once the cycle has
begun reaches it in the next one (DESIGN CHOICE, log entry 19). -/
def turnEvents (s : State) : State := if turnBegun s then s else applyEvents s

/-- A claim or EOI of target `t` is taken in this cycle. -/
def takeTarget (s : State) (t : Nat) : State :=
  let s := turnEvents s
  { s with intcTurn := { intcTurnNow s with next := t + 1 } }

/-- A write is taken in this cycle. -/
def takeWrite (s : State) : State :=
  let s := turnEvents s
  { s with intcTurn := { intcTurnNow s with wrote := true } }

/-- The controller's cycle closes: its events, when nothing has been taken in it, then the evaluation of every target. -/
def closeTurn (s : State) : State :=
  if (intcTurnNow s).wasRead then s
  else
    let s := (presentTargets s.variant).foldl evalTarget (turnEvents s)
    { s with intcTurn := { intcTurnNow s with wasRead := true } }

/-! ### Writes of entries and target sets -/

/-- The refusal of a written TARGET of a shared source (R216). -/
def srcTargetStatus (v : Variant) (n t : Nat) : Status :=
  if n ≤ 4096 then .ok else if 35 < t then .range else if targetPresent v t then .ok else .absent

/-- The fields of an entry that a write replaces (R200, R211, R215). -/
def srcFields (n : Nat) (old v : Word64) : Word64 :=
  let w := setF (setF old SRC_ENTRY_ENABLE (getF v SRC_ENTRY_ENABLE)) SRC_ENTRY_PRIORITY (getF v SRC_ENTRY_PRIORITY)
  let w := if 4096 ≤ n then setF w SRC_ENTRY_TRIGGER (getF v SRC_ENTRY_TRIGGER) else w
  let w := if 4096 < n then setF w SRC_ENTRY_TARGET (getF v SRC_ENTRY_TARGET) else w
  if acts v SRC_ENTRY_COUNT_OVF then setF w SRC_ENTRY_COUNT_OVF 0 else w

/-- A write of a source's entry (R199, R200, R212, R216); COUNT_OVF is cleared before the event of SET_PEND (DESIGN CHOICE, log entry 81). -/
def wrSrcEntry (s : State) (n : Nat) (v : Word64) : Written :=
  let st := srcTargetStatus s.variant n (getF v SRC_ENTRY_TARGET)
  if st != .ok then refusedWith s st
  else
    let key := R_SRC_ENTRY n
    let s := noteBefore s key
    let s := wr s key (srcFields n (rd s key) v)
    let s := if acts v SRC_ENTRY_PENDING && !rdB s key SRC_ENTRY_ACTIVE then
        wrF (wrB s key SRC_ENTRY_PENDING false) key SRC_ENTRY_COUNT 0 else s
    let s := if acts v SRC_ENTRY_SET_PEND then applyEvent s n else s
    accepted (holdLevel s n)

/-- A write of TGT_CTL (R203, R204). -/
def wrTgtCtl (s : State) (t : Nat) (v : Word64) : State :=
  let s := plainWrite s (R_TGT_CTL t) v
  if 32 ≤ t then wrB s (R_TGT_CTL t) TGT_CTL_ASLEEP false else s

end Sys2Proof.Machine
end

