-- ==== Sys2Proof/Machine/LinkBase.lean ====
section
/-! DEFINITION. The Derzalet link, shared parts: states of a port, sessions (R306, R320), credits (R307, R308), what a port has
waiting to send (R275), the events of a port (R284, R324), and nanoseconds in core cycles. -/

namespace Sys2Proof.Machine

/-! Port states (table "Port states", R278). -/

/-- DISABLED -/
def LS_DISABLED : Nat := 0
/-- DETECT -/
def LS_DETECT : Nat := 1
/-- SPEED -/
def LS_SPEED : Nat := 2
/-- EQUALIZE -/
def LS_EQUALIZE : Nat := 3
/-- ALIGN -/
def LS_ALIGN : Nat := 4
/-- UP -/
def LS_UP : Nat := 5
/-- DOWN -/
def LS_DOWN : Nat := 6
/-- UNANSWERED -/
def LS_UNANSWERED : Nat := 7
/-- LOOPBACK -/
def LS_LOOPBACK : Nat := 8

/-- LPH_STAT.STATE. -/
def linkState (s : State) (p : Nat) : Nat := rdF s (R_LPH_STAT p) LPH_STAT_STATE
/-- Whether a port is present and UP. -/
def portUp (s : State) (p : Nat) : Bool := decide (p < numPorts s.variant) && linkState s p == LS_UP
/-- Whether a port is in electrical idle. -/
def inEi (s : State) (p : Nat) : Bool := rdB s (R_LPH_STAT p) LPH_STAT_EI
/-- Whether a port retrains. -/
def retraining (s : State) (p : Nat) : Bool := rdB s (R_LPH_STAT p) LPH_STAT_RETRAINING

/-- Set an event bit of PT_STAT: one event on S4104 + p, whether or not it was set (R284, R324). -/
def portEvent (s : State) (p : Nat) (f : Fld) : State := raiseSource (wrB s (R_PT_STAT p) f true) (4104 + p)

/-- Whether `ns` nanoseconds have passed since cycle `t` (R22: a core cycle is 625 ps). -/
def nsPassed (s : State) (t ns : Nat) : Bool := ns * 8 ≤ (s.time - t) * 5

/-! ### Units and credits (R297, R307) -/

/-- An element of a list of numbers by channel. -/
def vcOf (l : List Nat) (vc : Nat) : Nat := l.getD vc 0

/-- Add to an element of a list of numbers by channel, modulo 2^16. -/
def vcAdd (l : List Nat) (vc n : Nat) : List Nat := setAt l vc ((vcOf l vc + n) % 0x10000)

/-- Slots of a unit. -/
def slotsOf (bs : List Byte) : Nat := (bs.length + 15) / 16

/-- Credits held from the partner on a channel (R307). -/
def txCredits (l : Link) (vc : Nat) : Nat :=
  (vcOf l.partnerSize vc + vcOf l.partnerC vc + 0x10000 - vcOf l.sent vc) % 0x10000

/-- Buffer sizes advertised by a port (R308, R330). -/
def rxSize (s : State) (p vc : Nat) : Nat :=
  if isPairPort s p then (match vc with | 0 => 2048 | 1 => 512 | 3 => 64 | _ => 0)
  else (match vc with | 0 => 1024 | 3 => 64 | _ => 0)

/-- Whether a request in flight still has its header or payload in the port's staging (R54, R307). -/
def inStaging (s : State) (t : Txn) : Bool :=
  s.heldOrd.any (fun x => x.uid = t.uid) || s.mbxStage.any (fun o => o.uid = t.uid && o.who = t.req.who) ||
  s.semStage.any (fun o => o.uid = t.uid && o.who = t.req.who) ||
  s.banks.any (fun b => b.2.staging.any (fun r => r.uid = t.uid && r.who = t.req.who))

/-- Whether a request in flight came through port `p` in its open session, in channel `vc`. -/
def txnOn (p vc : Nat) (t : Txn) : Bool :=
  !t.lost && t.req.mgmt == decide (vc = 3) && (match t.req.who with | .port x _ => x = p | _ => false)

/-- Slots of channel `vc` that a port has not freed. -/
def heldSlots (s : State) (p vc : Nat) : Nat :=
  ((s.txns ++ s.heldOrd).filter (fun t => txnOn p vc t && inStaging s t)).foldl (fun n t => n + t.slots) 0

/-- The C field of a channel: slots freed since the session opened (R299, R307). -/
def freedSlots (s : State) (p vc : Nat) : Nat := (vcOf (linkOf s p).received vc + 0x10000 - heldSlots s p vc) % 0x10000

/-- Credits that the sender still has on a channel, as the device counts them (R319): the size, and the slots freed as it has been told, less the
slots received. -/
def rxCredits (s : State) (p vc : Nat) : Nat :=
  let l := linkOf s p
  rxSize s p vc - (vcOf l.received vc + 0x10000 - vcOf l.freed vc) % 0x10000

/-- Slots of a channel have been received. -/
def countSlots (s : State) (p vc n : Nat) : State :=
  setLink s p { linkOf s p with received := vcAdd (linkOf s p).received vc n }

/-- Tags outstanding in a port's session (R309, R321). -/
def tagsOf (s : State) (p : Nat) : List Nat :=
  ((s.txns ++ s.heldOrd).filter (fun t => txnOn p 0 t || txnOn p 3 t)).map (fun t => t.req.tag)

/-! ### Waiting to send -/

/-- Requests of a port whose responses are due and not sent. -/
def dueOn (s : State) (p : Nat) : List Txn := s.txns.filter (fun t => (txnOn p 0 t || txnOn p 3 t) && t.due.isSome)

/-- Whether a port has nothing waiting to send: no response, message, unit or link-layer flit, no ACK and no credit to return (R275,
R276, R300). -/
def nothingToSend (s : State) (p : Nat) : Bool :=
  let l := linkOf s p
  l.unackedSince.isNone && [0, 1, 2, 3].all (fun vc => vcOf l.freed vc = freedSlots s p vc) &&
  l.tx.isEmpty && l.txPart.isNone && l.replayNext.isNone && !l.replayDue && !l.lcsDue && !l.nakDue &&
  (dueOn s p).isEmpty && !s.msgs.any (fun m => m.port = p)

/-! ### Sessions -/

/-- The replay timer of a port starts, with the limit that REPLAY_NS gives now (R302, R324). -/
def startReplayTimer (s : State) (p : Nat) (l : Link) : Link := { l with progressAt := s.time, progressNs := rdF s (R_PT_CTL p) PT_CTL_REPLAY_NS }

/-- A session opens (R306): sequence numbers and credits start at 0. -/
def sessionOpen (s : State) (p : Nat) : State :=
  let s := setLink s p (startReplayTimer s p { linkReset with lcsDue := true })
  let s := wr (wr s (R_PT_TXSEQ p) 0) (R_PT_RXSEQ p) 0
  let s := wrB (wrB s (R_PT_STAT p) PT_STAT_CREDITED false) (R_PT_STAT p) PT_STAT_RX_WAIT false
  let s := wrB (wrB s (R_PT_STAT p) PT_STAT_TX_REPLAY false) (R_PT_STAT p) PT_STAT_SESSION true
  addWrap s (R_PT_STAT p) PT_STAT_SESSIONS 1

/-- Responses that a unit carries: the entries of a response slot that are not empty (R313). -/
def respEntries (bs : List Byte) : Nat :=
  let typ := bs.getD 0 0
  if typ = 0x81 || typ = 0x82 then ([0, 4, 8, 12].filter (fun i => bs.getD i 0 = typ)).length else 0

/-- Responses that a session's end discards: of requests in flight, waiting to leave, begun, and not acknowledged (R320). -/
def responsesLost (s : State) (p : Nat) : Nat :=
  let l := linkOf s p
  (tagsOf s p).length + l.tx.foldl (fun n u => n + respEntries u.2) 0 +
    (match l.txPart with | some t => respEntries t.unit | none => 0) + l.kept.foldl (fun n k => n + k.resps) 0

/-- Whether a request came on port `p`. -/
def cameOn (p : Nat) (t : Txn) : Bool := txnOn p 0 t || txnOn p 3 t

/-- The sampler records of requests whose responses are lost, before they are packed or on their way to the pins (R410, R411). -/
def samplesLost (s : State) (p : Nat) : State :=
  let out := s.obs.smpOut.filter (fun x => cameOn p x.2.2)
  let s := out.foldl (fun s x => sampleWrite s x.2.2 x.2.1 notPassed true) s
  let s := { s with obs := { s.obs with smpOut := s.obs.smpOut.filter (fun x => !cameOn p x.2.2) } }
  ((s.txns ++ s.heldOrd).filter (fun t => cameOn p t && t.sample.isSome)).foldl (fun s t => sampleWrite s t notPassed notPassed true) s

/-- A request in flight of port `p` loses its response; one already due is forgotten. -/
def loseTxns (p : Nat) (ts : List Txn) : List Txn :=
  (ts.map (fun t => if txnOn p 0 t || txnOn p 3 t then { t with lost := true, sample := none } else t)).filter
    (fun t => !(t.lost && t.due.isSome))

/-- A session ends (R320). -/
def sessionEnd (s : State) (p : Nat) : State :=
  if rdB s (R_PT_STAT p) PT_STAT_SESSION then
    let l := linkOf s p
    let s := if l.partialUnit.isEmpty then s else countSat s (0x02 + p) (R_PT_LOST p) PT_LOST_UNITS_LOST 1
    let s := countSat s (0x02 + p) (R_PT_LOST p) PT_LOST_RESP_LOST (responsesLost s p)
    let s := samplesLost s p
    let s := setLink s p linkReset
    let s := wrB (wrB s (R_PT_STAT p) PT_STAT_CREDITED false) (R_PT_STAT p) PT_STAT_RX_WAIT false
    let s := wrB (wrB s (R_PT_STAT p) PT_STAT_TX_REPLAY false) (R_PT_STAT p) PT_STAT_SESSION false
    settleFences { s with txns := loseTxns p s.txns, heldOrd := loseTxns p s.heldOrd,
                          pushes := (s.pushes.map (fun w => if w.port = p && !w.acked then { w with failed := true } else w)).filter (fun w =>
                            !(w.port = p && w.run = 2 ^ 32)) }
  else s

/-- A retrain is over: the sender replays from its oldest unacknowledged flit (R304). -/
def replayOldest (s : State) (p : Nat) : State :=
  let l := linkOf s p
  if l.kept.isEmpty then s
  else wrB (setLink s p (startReplayTimer s p { l with replayNext := some 0, replayDue := false })) (R_PT_STAT p) PT_STAT_TX_REPLAY true

end Sys2Proof.Machine
end

