-- ==== Sys2Proof/Machine/Pcs.lean ====
section
/-! DEFINITION. The coding of the lanes (R268–R271, R293): bits, symbols and levels, the precoder, the scrambler, alignment markers, and how the
bytes of a flit lie on the lanes. -/

namespace Sys2Proof.Machine

/-! ### Bits and symbols (R268) -/

/-- The bits of a byte, least significant first. -/
def byteBits (b : Byte) : List Bool := (List.range 8).map (fun i => b.getLsbD i)

/-- The bits of a block in the order in which a lane sends them. -/
def blockBits (bs : List Byte) : List Bool := bs.flatMap byteBits

/-- The number whose bits, least significant first, are given. -/
def bitsNat : List Bool → Nat
  | [] => 0
  | b :: bs => b01 b + 2 * bitsNat bs

/-- `n` bytes out of bits; a missing bit is 0. -/
def bitsBlock : Nat → List Bool → List Byte
  | 0, _ => []
  | n + 1, bs => BitVec.ofNat 8 (bitsNat (bs.take 8)) :: bitsBlock n (bs.drop 8)

/-- The level of a pair of bits, the first the more significant: 00, 01, 11, 10 in ascending level. -/
def grayLevel (a b : Bool) : BitVec 2 :=
  match a, b with
  | false, false => 0
  | false, true => 1
  | true, true => 2
  | true, false => 3

/-- The bits of a level. -/
def grayBits (g : BitVec 2) : List Bool := [decide (2 ≤ g.toNat), g = 1 || g = 2]

/-- The levels of bits at a PAM4 rate. -/
def pamLevels : List Bool → List (BitVec 2)
  | a :: b :: r => grayLevel a b :: pamLevels r
  | _ => []

/-- The symbols of bits at 28 Gb/s NRZ: one bit each. -/
def nrzLevels (bits : List Bool) : List (BitVec 2) := bits.map (fun b => if b then 1 else 0)

/-- The transmitter's precoder: P(n) = (G(n) − P(n − 1)) mod 4; with the last symbol. -/
def precode : BitVec 2 → List (BitVec 2) → List (BitVec 2) × BitVec 2
  | q, [] => ([], q)
  | q, g :: gs => let r := precode (g - q) gs; ((g - q) :: r.1, r.2)

/-- The receiver's: G(n) = (P(n) + P(n − 1)) mod 4. -/
def unprecode : BitVec 2 → List (BitVec 2) → List (BitVec 2) × BitVec 2
  | q, [] => ([], q)
  | q, x :: xs => let r := unprecode x xs; ((x + q) :: r.1, r.2)

/-- The rate at which a port's lanes run: 28 Gb/s NRZ in DETECT and SPEED (R263, R278). -/
def laneRate (s : State) (p : Nat) : Nat :=
  if linkState s p = LS_DETECT || linkState s p = LS_SPEED then 2 else rdF s (R_LPH_STAT p) LPH_STAT_RATE

/-! ### The scrambler (R269) -/

/-- One bit of the scrambler: k = S[57] XOR S[38], and S after it. -/
def scramblerStep (S : BitVec 58) : Bool × BitVec 58 :=
  let k := S.getLsbD 57 ^^ S.getLsbD 38
  (k, (S <<< 1) ||| (if k then 1 else 0))

/-- Bits scrambled, or descrambled, which is the same: each XOR k; with S after the last. -/
def scramble : BitVec 58 → List Bool → List Bool × BitVec 58
  | S, [] => ([], S)
  | S, b :: bs => let k := scramblerStep S; let r := scramble k.2 bs; ((b ^^ k.1) :: r.1, r.2)

/-- The seed of a logical lane. -/
def scramblerSeed (l : Nat) : BitVec 58 := BitVec.ofNat 58 (0x3FFFFFFFFFFFFF0 + l)

/-! ### Lanes (R271, R293) -/

/-- Whether the wiring found is reversed. -/
def reversed (s : State) (p : Nat) : Bool := rdB s (R_LPH_STAT p) LPH_STAT_REVERSED

/-- The physical receive lane that carries logical lane `l` without the spare (R271). -/
def straightLane (s : State) (p l : Nat) : Nat := if reversed s p then 7 - l else l

/-- The physical receive lane that carries logical lane `l`. -/
def carrier (s : State) (p l : Nat) : Nat :=
  if rdB s (R_LPH_STAT p) LPH_STAT_RX_SPARE_USED && rdF s (R_LPH_STAT p) LPH_STAT_RX_SPARED = l then 8 else straightLane s p l

/-- The physical transmit lane that carries logical lane `l` (R271). -/
def txCarrier (s : State) (p l : Nat) : Nat :=
  if rdB s (R_LPH_STAT p) LPH_STAT_TX_SPARE_USED && rdF s (R_LPH_STAT p) LPH_STAT_TX_SPARED = l then 8 else l

/-- The lane number that seeds physical transmit lane `j`: its logical lane; a free spare counts as 8 (DESIGN CHOICE, log entry 76). -/
def txSeed (s : State) (p j : Nat) : Nat :=
  if j = 8 && rdB s (R_LPH_STAT p) LPH_STAT_TX_SPARE_USED then rdF s (R_LPH_STAT p) LPH_STAT_TX_SPARED else j

/-- The nine physical lanes: L0–L7 and LS. -/
def nineLanes : List Nat := List.range 9

/-- The block of logical lane `l` of a flit: bytes l, l + 8, … (R293). -/
def laneBlock (flit : List Byte) (l : Nat) : List Byte := (List.range 32).map (fun k => flit.getD (8 * k + l) 0)

/-- The flit whose lane blocks are given. -/
def gatherFlit (blocks : List (List Byte)) : List Byte := (List.range 256).map (fun i => (blocks.getD (i % 8) []).getD (i / 8) 0)

/-! ### Sending -/

/-- Bits leave on a physical lane as symbols, without a FEC of the lane: Gray-coded and, where the port precodes, precoded (R263, R268). -/
def sendBits (s : State) (p j : Nat) (bits : List Bool) : State :=
  let d := laneOf s p j
  let g := if laneRate s p < 2 then pamLevels bits else nrzLevels bits
  let y := if rdB s (R_LPH_STAT p) LPH_STAT_PRECODE_TX && decide (laneRate s p < 2) then precode d.txP g else (g, d.txP)
  emit (setLane s p j { d with txP := y.2 }) (.symbols p j y.1)

/-- Bits leave scrambled. -/
def sendScrambled (s : State) (p j : Nat) (bits : List Bool) : State :=
  let x := scramble (laneOf s p j).txS bits
  sendBits (setLane s p j { laneOf s p j with txS := x.2 }) p j x.1

/-- The transmit scrambler of a lane is loaded with its seed. -/
def seedTx (s : State) (p j : Nat) : State := setLane s p j { laneOf s p j with txS := scramblerSeed (txSeed s p j) }

/-- A marker has been sent on a lane: the seed is loaded, and P is 0. -/
def txMarked (s : State) (p j : Nat) : State :=
  let s := seedTx s p j
  setLane s p j { laneOf s p j with txP := 0 }

/-- A marker has been received on the lanes of a port: seeds are loaded, and P is 0. -/
def rxMarked (s : State) (p : Nat) : State :=
  (List.range 8).foldl (fun s l =>
    setLane s p (carrier s p l) { laneOf s p (carrier s p l) with rxS := scramblerSeed l, rxP := 0 }) s

/-! ### Alignment markers (R270) -/

/-- The SYNC bytes of a marker. -/
def markerSync : List Byte := [0x91, 0xD3, 0x6E, 0x2C, 0x91, 0xD3, 0x6E, 0x2C]

/-- The marker of logical lane `l`. -/
def markerBytes (s : State) (p l flags : Nat) : List Byte :=
  let body := markerSync ++ leBytes 1 l ++ leBytes 1 (255 - l) ++ leBytes 2 (phyOf s p).markers ++
    leBytes 1 (rdF s (R_LRX_STAT p (carrier s p l)) LRX_STAT_EMF) ++ leBytes 1 flags ++ leBytes 16 0
  body ++ leBytes 2 (crc16 body)

/-- Whether received bytes are a marker: layout, lane number and CRC (R270). -/
def markerValid (bs : List Byte) : Bool :=
  bs.length = 32 && bs.take 8 = markerSync && decide ((bs.getD 8 0).toNat < 8) && (bs.getD 8 0).toNat + (bs.getD 9 0).toNat = 255 &&
  leNat (sliceBytes bs 30 2) = crc16 (bs.take 30)

/-- Whether a received block is a marker that carries a flag; one whose CRC fails is ignored. -/
def markerSays (bs : List Byte) (flag : Nat) : Bool := markerValid bs && bitOf (bs.getD 13 0).toNat flag

/-- A marker leaves on all active lanes at one flit boundary. Markers are not scrambled. -/
def sendMarker (s : State) (p flags : Nat) : State :=
  let s := (List.range 8).foldl (fun s l =>
    let j := txCarrier s p l
    txMarked (sendBits s p j (blockBits (markerBytes s p l flags))) p j) s
  emit s (.marker p flags)

/-- Flit blocks between periodic markers. -/
def markerInterval : Nat := 4096

/-- A flit leaves on the lanes; after every 4,096 flit blocks a periodic marker follows. -/
def sendFlitBlocks (s : State) (p : Nat) (flit : List Byte) : State :=
  let s := (List.range 8).foldl (fun s l => sendScrambled s p (txCarrier s p l) (blockBits (laneBlock flit l))) s
  let s := emit s (.flit p flit)
  let h := phyOf s p
  if markerInterval ≤ h.txBlocks + 1 then
    sendMarker (setPhy s p { h with txBlocks := 0, markers := (h.markers + 1) % 2 ^ 16 }) p 1
  else setPhy s p { h with txBlocks := h.txBlocks + 1 }

/-- The lanes of a port as UP begins: the markers of ALIGN have loaded every scrambler, and the count of markers starts at 0. -/
def startBlocks (s : State) (p : Nat) : State :=
  let s := rxMarked (nineLanes.foldl (fun s j => txMarked s p j) s) p
  setPhy s p { phyOf s p with txBlocks := 0, rxBlocks := 0, markers := 0 }

/-! ### Receiving -/

/-- A received symbol with the polarity corrected (R271). -/
def upright (s : State) (p j : Nat) (x : BitVec 2) : BitVec 2 :=
  if rdB s (R_LRX_STAT p j) LRX_STAT_INVERTED then (if laneRate s p < 2 then 3 - x else 1 - x) else x

/-- The symbols of a lane without polarity and precoding, and P after them. -/
def rxLevels (s : State) (p j : Nat) (sy : List (BitVec 2)) : List (BitVec 2) × BitVec 2 :=
  let xs := sy.map (upright s p j)
  if rdB s (R_LPH_STAT p) LPH_STAT_PRECODE_RX && decide (laneRate s p < 2) then unprecode (laneOf s p j).rxP xs else (xs, (laneOf s p j).rxP)

/-- The bits of received symbols, still scrambled. -/
def rxBits (s : State) (p j : Nat) (sy : List (BitVec 2)) : List Bool :=
  let g := (rxLevels s p j sy).1
  if laneRate s p < 2 then g.flatMap grayBits else g.map (fun x => x != 0)

/-- The descrambled block of a physical lane. -/
def rxBlock (s : State) (p j : Nat) (sy : List (BitVec 2)) : List Byte :=
  bitsBlock 32 (scramble (laneOf s p j).rxS (rxBits s p j sy)).1

/-- The flit that the symbols of the nine receive lanes of a port carry. -/
def receivedFlit (s : State) (p : Nat) (symbols : List (List (BitVec 2))) : List Byte :=
  gatherFlit ((List.range 8).map (fun l => rxBlock s p (carrier s p l) (symbols.getD (carrier s p l) [])))

/-- A flit has been received on the lanes: scramblers and precoders go on; after every 4,096 flit blocks comes a periodic marker, which the
receiver predicts. -/
def flitTaken (s : State) (p : Nat) (symbols : List (List (BitVec 2))) : State :=
  let s := (List.range 8).foldl (fun s l =>
    let j := carrier s p l
    let sy := symbols.getD j []
    let d := laneOf s p j
    setLane s p j { d with rxS := (scramble d.rxS (rxBits s p j sy)).2, rxP := (rxLevels s p j sy).2 }) s
  let h := phyOf s p
  if markerInterval ≤ h.rxBlocks + 1 then rxMarked (setPhy s p { h with rxBlocks := 0 }) p
  else setPhy s p { h with rxBlocks := h.rxBlocks + 1 }

end Sys2Proof.Machine
end

