-- ==== Sys2Proof/Machine/Lanes.lean ====
section
/-! DEFINITION. Serial lanes (R263–R290): eye margin and adaptation, electrical idle, training and its attempts, retrains, lane
sparing, loopbacks, and the register writes of block 0x0A. -/

namespace Sys2Proof.Machine

/-! Lane modes (LRX_STAT.MODE, R273). -/

/-- TRACKING -/
def LM_TRACKING : Nat := 0
/-- FROZEN -/
def LM_FROZEN : Nat := 1
/-- READAPT -/
def LM_READAPT : Nat := 2
/-- not in use -/
def LM_UNUSED : Nat := 3

/-- LRX_STAT.MODE. -/
def laneMode (s : State) (p j : Nat) : Nat := rdF s (R_LRX_STAT p j) LRX_STAT_MODE
/-- LRX_STAT.EMF. -/
def laneEmf (s : State) (p j : Nat) : Nat := rdF s (R_LRX_STAT p j) LRX_STAT_EMF
/-- Whether a receive lane of a port is in use. -/
def laneUsed (s : State) (p j : Nat) : Bool := decide (j < 9) && laneMode s p j != LM_UNUSED

/-- Start the windows of a receive lane afresh (R273, R276, R290). -/
def freshWindow (s : State) (p j : Nat) : State :=
  setLane s p j { laneOf s p j with hist := [], below := 0, belowHard := 0, above := 0 }

/-- Start the windows of every receive lane of a port afresh. -/
def freshWindows (s : State) (p : Nat) : State := nineLanes.foldl (fun s j => freshWindow s p j) s

/-- Set the mode of a receive lane. -/
def setMode (s : State) (p j m : Nat) : State := wrF s (R_LRX_STAT p j) LRX_STAT_MODE m

/-! ### Rates -/

/-- The highest rate in a mask of rates: rate code 0 is the highest (R263, R280). -/
def highestRate (mask : Nat) : Nat := if bitOf mask 0 then 0 else if bitOf mask 1 then 1 else 2

/-- LPH_CTL.RATES. -/
def ratesOf (s : State) (p : Nat) : Nat := rdF s (R_LPH_CTL p) LPH_CTL_RATES

/-- The rates of a mask at or below a rate. -/
def ratesBelow (mask rate : Nat) : Nat := mask - mask % 2 ^ rate

/-! ### Transmit taps (R265) -/

/-- Taps PRE2, PRE1, MAIN, POST1 and POST2 of a word. -/
def tapsOf (w : Word64) : Int × Int × Nat × Int × Int :=
  (toSigned 6 (getF w LTX_FIR_PRE2), toSigned 6 (getF w LTX_FIR_PRE1), getF w LTX_FIR_MAIN,
   toSigned 6 (getF w LTX_FIR_POST1), toSigned 6 (getF w LTX_FIR_POST2))

/-- Whether a set of taps obeys the limits of R265. -/
def tapsLegal (w : Word64) : Bool :=
  let t := tapsOf w
  decide (t.1.natAbs + t.2.1.natAbs + t.2.2.1 + t.2.2.2.1.natAbs + t.2.2.2.2.natAbs ≤ 63) && decide (24 ≤ t.2.2.1) &&
  decide (t.1.natAbs ≤ 8) && decide (t.2.2.2.2.natAbs ≤ 8)

/-- The word of a set of taps. -/
def tapWord (a b : Int) (m : Nat) (c d : Int) : Word64 :=
  w64 (ofSigned 6 a + ofSigned 6 b <<< 8 + m <<< 16 + ofSigned 6 c <<< 24 + ofSigned 6 d <<< 32)

/-- The presets. -/
def presetTaps : Nat → Word64
  | 0 => tapWord 0 0 63 0 0
  | 1 => tapWord 0 (-6) 48 (-9) 0
  | 2 => tapWord 0 (-8) 40 (-15) 0
  | _ => tapWord (-2) (-8) 36 (-15) (-2)

/-- The field of tap 0 PRE2 to 4 POST2. -/
def tapField : Nat → Fld
  | 0 => LTX_FIR_PRE2
  | 1 => LTX_FIR_PRE1
  | 2 => LTX_FIR_MAIN
  | 3 => LTX_FIR_POST1
  | _ => LTX_FIR_POST2

/-- A tap one step up or down; `none` when it leaves its field. -/
def tapStep (w : Word64) (tap : Nat) (up : Bool) : Option Word64 :=
  let v := getF w (tapField tap)
  if tap = 2 then (if up then (if v = 63 then none else some (setF w LTX_FIR_MAIN (v + 1)))
    else if v = 0 then none else some (setF w LTX_FIR_MAIN (v - 1)))
  else if up then (if v = 31 then none else some (setF w (tapField tap) ((v + 1) % 64)))
  else if v = 32 then none else some (setF w (tapField tap) ((v + 63) % 64))

/-- Answer a COEF_REQ of the partner for transmit lane `j`: the COEF_STAT code, and the taps (R265, R279). -/
def coefAnswer (s : State) (p j req : Nat) : Nat × State :=
  let w := rd s (R_LTX_FIR p j)
  let op := bitsOf req 4 3
  if rdB s (R_LTX_FIX p j) LTX_FIX_ENABLE || op = 0 then (0, s)
  else if op = 3 then (3, wr s (R_LTX_FIR p j) (presetTaps (bitsOf req 6 5)))
  else if 4 < bitsOf req 2 0 then (0, s)
  else
    match tapStep w (bitsOf req 2 0) (op = 1) with
    | none => (2, s)
    | some w' => if tapsLegal w' then (1, wr s (R_LTX_FIR p j) w') else (2, s)

/-- The bits of the tap fields; the others of LTX_FIR read 0. -/
def tapBits : Word64 := 0x3F3F3F3F3F

/-- The fixed taps apply from the next attempt or retrain; an attempt starts from preset 1 otherwise (R265). -/
def startTaps (s : State) (p : Nat) (attempt : Bool) : State :=
  nineLanes.foldl (fun s j =>
    if rdB s (R_LTX_FIX p j) LTX_FIX_ENABLE then wr s (R_LTX_FIR p j) (rd s (R_LTX_FIX p j) &&& tapBits)
    else if attempt then wr s (R_LTX_FIR p j) (presetTaps 1) else s) s

/-! ### States -/

/-- Enter a training state: its time limit, reports and ACKs start afresh. -/
def enterTraining (s : State) (p st : Nat) : State :=
  setPhy (wrF s (R_LPH_STAT p) LPH_STAT_STATE st) p
    { phyOf s p with stateAt := s.time, frames := 0, heard := 0, good := 0, partnerAck := false }

/-- Begin a training attempt in DETECT (R265, R280); the rates allowed are those of RATES now (R289). -/
def beginAttempt (s : State) (p : Nat) : State :=
  let s := startTaps (enterTraining s p LS_DETECT) p true
  let s := nineLanes.foldl (fun s j =>
    setLane (wrB (wrF (setMode s p j LM_UNUSED) (R_LRX_STAT p j) LRX_STAT_LOGICAL 15) (R_LRX_STAT p j) LRX_STAT_UNUSABLE false) p j laneReset) s
  let s := wrB (wrB s (R_LPH_STAT p) LPH_STAT_RX_SPARE_USED false) (R_LPH_STAT p) LPH_STAT_TX_SPARE_USED false
  let s := wrB (wrB s (R_LPH_STAT p) LPH_STAT_RETRAINING false) (R_LPH_STAT p) LPH_STAT_EI false
  let h := phyOf s p
  setPhy s p { h with rates := ratesOf s p, detectCount := (h.detectCount + 1) % 2 ^ 32, pendingSpare := none, pendingUnspare := false, echo := false,
                      eiAsked := false, eiExitAt := none, eiMeets := none, eiCrossed := false, partnerRates := 0, partnerFeReq := false, partnerFeAllow := false }

/-- The receivers of a port detect no signal and track nothing (R267, R275). -/
def lanesOff (s : State) (p : Nat) : State :=
  nineLanes.foldl (fun s j => wrB (wrB s (R_LRX_STAT p j) LRX_STAT_SIGNAL false) (R_LRX_STAT p j) LRX_STAT_LOCKED false) s

/-- The first attempt after DISABLED, DOWN, UNANSWERED or LOOPBACK, at the highest rate in RATES (R280); no lane has heard the partner yet
(R267). -/
def startTraining (s : State) (p : Nat) : State :=
  let s := beginAttempt (lanesOff s p) p
  wrF (setPhy s p { phyOf s p with attemptRate := highestRate (ratesOf s p) }) (R_LPH_STAT p) LPH_STAT_ATTEMPT 1

/-- The lanes of a port stop receiving: no lane in use, EMF kept (R272). -/
def lanesStop (s : State) (p : Nat) : State :=
  nineLanes.foldl (fun s j =>
    wrB (wrB (setMode s p j LM_UNUSED) (R_LRX_STAT p j) LRX_STAT_SIGNAL false) (R_LRX_STAT p j) LRX_STAT_LOCKED false) s

/-- A port leaves its state for one in which it does not train: its session, if any, ends. -/
def leaveFor (s : State) (p st : Nat) : State :=
  let s := lanesStop (sessionEnd s p) p
  let s := wrB (wrB s (R_LPH_STAT p) LPH_STAT_RETRAINING false) (R_LPH_STAT p) LPH_STAT_EI false
  let s := wrF s (R_LPH_STAT p) LPH_STAT_ATTEMPT 0
  setPhy (wrF s (R_LPH_STAT p) LPH_STAT_STATE st) p
    { phyOf s p with stateAt := s.time, eiAsked := false, eiExitAt := none, eiMeets := none, eiCrossed := false, pendingSpare := none,
                     pendingUnspare := false, echo := false }

/-- A port enters DOWN with a cause (R281, R284). -/
def enterDown (s : State) (p cause : Nat) : State :=
  let s := wrF (leaveFor s p LS_DOWN) (R_LPH_STAT p) LPH_STAT_FAIL_CAUSE cause
  let s := countSat s 0x0A (R_LPH_CNT_A p) LPH_CNT_A_DOWNS 1
  portEvent (setPhy s p { phyOf s p with downsSinceUp := (phyOf s p).downsSinceUp + 1 }) p PT_STAT_EV_DOWN

/-- A port enters UNANSWERED (R282, R284). -/
def enterUnanswered (s : State) (p : Nat) : State :=
  let s := if s.power.step = some 8 then { s with power := { s.power with droppedS8 := s.power.droppedS8 ||| 2 ^ p } } else s
  portEvent (countSat (leaveFor s p LS_UNANSWERED) 0x0A (R_LPH_CNT_B p) LPH_CNT_B_UNANSWERED 1) p PT_STAT_EV_UNANSWERED

/-- A training attempt fails (R280, R282). -/
def failAttempt (s : State) (p cause : Nat) : State :=
  let s := wrF (countSat s 0x0A (R_LPH_CNT_B p) LPH_CNT_B_FAILED_ATTEMPTS 1) (R_LPH_STAT p) LPH_STAT_FAIL_CAUSE cause
  let n := rdF s (R_LPH_STAT p) LPH_STAT_ATTEMPT
  if n < 3 then wrF (beginAttempt s p) (R_LPH_STAT p) LPH_STAT_ATTEMPT (n + 1)
  else
    let lower := ratesBelow (ratesOf s p) ((phyOf s p).attemptRate + 1)
    if lower = 0 then enterUnanswered s p
    else
      let s := beginAttempt s p
      wrF (setPhy s p { phyOf s p with attemptRate := highestRate lower }) (R_LPH_STAT p) LPH_STAT_ATTEMPT 1

/-- A port in UP starts a retrain (R283, R284); it announces it with a control marker. -/
def startRetrain (s : State) (p : Nat) : State :=
  if linkState s p = LS_UP then
    let s := startTaps (enterTraining (sendMarker s p 0x10) p LS_EQUALIZE) p false
    let s := wrB (wrB s (R_LPH_STAT p) LPH_STAT_RETRAINING true) (R_LPH_STAT p) LPH_STAT_EI false
    portEvent (setPhy s p { phyOf s p with retrainAt := s.time, eiAsked := false, eiExitAt := none, eiMeets := none, eiCrossed := false }) p PT_STAT_EV_RETRAIN
  else s

/-- The replay limit is reached (R303): a retrain, which has failed when the same flit reaches it again before an ACK. -/
def replayLimit (s : State) (p : Nat) : State :=
  let l := linkOf s p
  match l.kept with
  | [] => s
  | k :: _ =>
    let s := countSat s (0x02 + p) (R_PT_REPLAY p) PT_REPLAY_LIMITS 1
    if l.limitFlit = some k.fseq then enterDown s p 6
    else
      let s := setLink s p { l with limitFlit := some k.fseq, kept := l.kept.map (fun x => { x with resent := 0 }),
                                    replayNext := none, replayDue := false }
      startRetrain s p

/-- The kept flits are sent again from the oldest on; a flit sent eight times already makes the port retrain instead (R302–R304). -/
def replayKept (s : State) (p : Nat) : State :=
  match (linkOf s p).kept with
  | [] => s
  | k :: _ => if 8 ≤ k.resent then replayLimit s p else replayOldest s p

/-! ### Sparing (R286, R287) -/

/-- EQ_TARGET. -/
def eqTarget (s : State) : Nat := rdF s R_LN_GCFG LN_GCFG_EQ_TARGET

/-- Whether a receive lane has reported in this state, and its EMF reaches EQ_TARGET. -/
def meetsTarget (s : State) (p j : Nat) : Bool := (phyOf s p).heard.getLsbD j && decide (eqTarget s ≤ laneEmf s p j)

/-- Logical lanes whose carriers miss EQ_TARGET. -/
def missingLanes (s : State) (p : Nat) : List Nat := (List.range 8).filter (fun l => !meetsTarget s p (carrier s p l))

/-- Whether the receive spare is free. -/
def rxSpareFree (s : State) (p : Nat) : Bool := !rdB s (R_LPH_STAT p) LPH_STAT_RX_SPARE_USED

/-- Move logical lane `l` to the receive spare (R286). -/
def moveToSpare (s : State) (p l : Nat) : State :=
  let s := wrB (wrF s (R_LPH_STAT p) LPH_STAT_RX_SPARED l) (R_LPH_STAT p) LPH_STAT_RX_SPARE_USED true
  portEvent (countSat s 0x0A (R_LPH_CNT_A p) LPH_CNT_A_SPARES 1) p PT_STAT_EV_SPARE

/-- The spare's logical lane returns to its physical lane (R287). -/
def releaseSpare (s : State) (p : Nat) : State :=
  portEvent (wrB s (R_LPH_STAT p) LPH_STAT_RX_SPARE_USED false) p PT_STAT_EV_SPARE

/-- Whether the receive spare can take a lane: it is free, usable, and meets EQ_TARGET. -/
def spareReady (s : State) (p : Nat) : Bool :=
  rxSpareFree s p && !rdB s (R_LRX_STAT p 8) LRX_STAT_UNUSABLE && meetsTarget s p 8

/-- The free spare's receiver has finished adapting below EQ_TARGET: it is unusable until the next attempt, and a move that waits for it is
given up. That fails neither attempt nor retrain (R286). -/
def spareFails (s : State) (p lane : Nat) (adapted : Bool) : State :=
  if lane = 8 && adapted && rxSpareFree s p then
    setPhy (wrB s (R_LRX_STAT p 8) LRX_STAT_UNUSABLE true) p { phyOf s p with pendingSpare := none }
  else s

/-- Moves that are due in EQUALIZE: one asked for at the start of the retrain, and the lane that alone misses EQ_TARGET after
its receiver has finished adapting. -/
def spareMoves (s : State) (p : Nat) (adapted : Bool) : State :=
  let h := phyOf s p
  match h.pendingSpare with
  | some l => if spareReady s p then setPhy (moveToSpare s p l) p { phyOf s p with pendingSpare := none } else s
  | none =>
    if adapted && spareReady s p && rdB s (R_LPH_CTL p) LPH_CTL_AUTO_SPARE && h.heard = BitVec.allOnes 9 then
      match missingLanes s p with
      | [l] => moveToSpare s p l
      | _ => s
    else s

/-- The partner's SPARE field in a state of the partner: the transmit side sends the named lane on LS, or takes it back. The release is tried
in EQUALIZE and holds from ALIGN on (R286, R287). -/
def txSpareAsk (s : State) (p field partnerState : Nat) : State :=
  if bitOf field 4 then
    if LS_ALIGN ≤ partnerState && rdB s (R_LPH_STAT p) LPH_STAT_TX_SPARE_USED then
      portEvent (wrB s (R_LPH_STAT p) LPH_STAT_TX_SPARE_USED false) p PT_STAT_EV_SPARE
    else s
  else if bitOf field 3 && !(rdB s (R_LPH_STAT p) LPH_STAT_TX_SPARE_USED && rdF s (R_LPH_STAT p) LPH_STAT_TX_SPARED = field % 8) then
    let s := wrB (wrF s (R_LPH_STAT p) LPH_STAT_TX_SPARED (field % 8)) (R_LPH_STAT p) LPH_STAT_TX_SPARE_USED true
    portEvent (countSat s 0x0A (R_LPH_CNT_A p) LPH_CNT_A_SPARES 1) p PT_STAT_EV_SPARE
  else s

/-! ### Reaching UP, loopback -/

/-- Put the lanes of a port in use, each with its logical lane, TRACKING with fresh windows. -/
def lanesUse (s : State) (p : Nat) : State :=
  nineLanes.foldl (fun s j =>
    match (List.range 8).find? (fun l => carrier s p l = j) with
    | some l => freshWindow (setMode (wrF s (R_LRX_STAT p j) LRX_STAT_LOGICAL l) p j LM_TRACKING) p j
    | none => setMode (wrF s (R_LRX_STAT p j) LRX_STAT_LOGICAL 15) p j LM_UNUSED) s

/-- The lanes of a port receive: signal detected, loops locked (R267). -/
def lanesReceive (s : State) (p : Nat) : State :=
  nineLanes.foldl (fun s j => wrB (wrB s (R_LRX_STAT p j) LRX_STAT_SIGNAL true) (R_LRX_STAT p j) LRX_STAT_LOCKED true) s

/-- The code of the pattern that a port in LOOPBACK sends: PATTERN, or 4 for PRBS31 at 28 Gb/s NRZ (R288). -/
def patternCode (s : State) (p : Nat) : Nat :=
  if rdF s (R_LPH_STAT p) LPH_STAT_RATE < 2 then rdF s (R_LPH_CTL p) LPH_CTL_PATTERN else 4

/-- What a port in LOOPBACK sends: the echo of what each lane receives, or the pattern, on its pins but in near-end parallel mode. -/
def loopSend (s : State) (p : Nat) : State :=
  if (phyOf s p).echo then emit s (.echo p) else emit s (.pattern p (rdF s (R_LPH_CTL p) LPH_CTL_LOOP != 2) (patternCode s p))

/-- A port enters UP (R205, R280, R283, R284, R304, R306). -/
def enterUp (s : State) (p : Nat) : State :=
  let was := retraining s p
  let s := startBlocks (lanesUse (wrF s (R_LPH_STAT p) LPH_STAT_STATE LS_UP) p) p
  let s := wrF (wrB s (R_LPH_STAT p) LPH_STAT_RETRAINING false) (R_LPH_STAT p) LPH_STAT_ATTEMPT 0
  let s := wr s (R_LPH_UPTIME p) (w64 s.time)
  let s := setPhy s p { phyOf s p with downsSinceUp := 0, idleSince := s.time, eiAsked := false, eiExitAt := none, eiMeets := none,
                                       eiCrossed := false, stateAt := s.time,
                                       pendingSpare := none, pendingUnspare := false }
  let s := if was then countSat s 0x0A (R_LPH_CNT_A p) LPH_CNT_A_RETRAINS 1 else sessionOpen s p
  let s := portUpTargets (portEvent s p PT_STAT_EV_UP) p
  if was then replayKept s p else s

/-- A port enters LOOPBACK (R284, R288): every lane receives and is in use. -/
def enterLoopback (s : State) (p : Nat) (echo : Bool) : State :=
  let s := leaveFor s p LS_LOOPBACK
  let s := wrF s (R_LPH_STAT p) LPH_STAT_RATE (if echo then rdF s (R_LPH_STAT p) LPH_STAT_RATE else highestRate (ratesOf s p))
  let s := nineLanes.foldl (fun s j => freshWindow (setMode s p j LM_TRACKING) p j) (lanesReceive s p)
  portEvent (loopSend (setPhy s p { phyOf s p with echo := echo }) p) p PT_STAT_EV_LOOPBACK

/-- Whether the port trains for a far-end loopback (R288). -/
def farEndAsked (s : State) (p : Nat) : Bool := rdF s (R_LPH_CTL p) LPH_CTL_LOOP = 3

/-! ### Training blocks (R271, R279) -/

/-- The SYNC bytes of a training block. -/
def trainingSync : List Byte := [0x6E, 0x2C, 0x91, 0xD3, 0x6E, 0x2C, 0x91, 0xD3]

/-- Byte `i` of a block. -/
def byteOf (bs : List Byte) (i : Nat) : Nat := (bs.getD i 0).toNat

/-- Whether a training block is valid: its length, SYNC, CRC and lane number. -/
def blockValid (bs : List Byte) : Bool :=
  bs.length = 32 && bs.take 8 = trainingSync && leNat (sliceBytes bs 30 2) = crc16 (bs.take 30) && byteOf bs 9 < 9

/-- Whether this end ACKs the present training state (R278). -/
def ownAck (s : State) (p : Nat) : Bool :=
  if linkState s p = LS_ALIGN then (List.range 8).all (fun l => (phyOf s p).good.getLsbD (carrier s p l)) else (phyOf s p).good != 0

/-- The SPARE field that a port sends: the release it tries, the lane that moves, or the lane on the spare. -/
def spareField (s : State) (p : Nat) : Nat :=
  let h := phyOf s p
  if h.pendingUnspare then 0x10 else
    match h.pendingSpare with
    | some l => l + 8
    | none => if rxSpareFree s p then 0 else rdF s (R_LPH_STAT p) LPH_STAT_RX_SPARED + 8

/-- The training block of a lane, with the lane's request for the partner's taps and the answer to the partner's. -/
def trainingBlock (s : State) (p lane : Nat) : List Byte :=
  let h := phyOf s p
  let st := linkState s p
  let d := laneOf s p lane
  let eq := st = LS_EQUALIZE
  let offer := ratesBelow h.rates h.attemptRate + (rdF s (R_LPH_CTL p) LPH_CTL_PRECODE_REQ) <<< 3 +
    (b01 (farEndAsked s p)) <<< 4 + (rdF s (R_LPH_CTL p) LPH_CTL_ALLOW_FE) <<< 5 + (b01 (ownAck s p)) <<< 6
  let body := trainingSync ++ leBytes 1 st ++ leBytes 1 lane ++ leBytes 1 offer ++
    leBytes 1 (if st = LS_SPEED || st = LS_DETECT then 0xFF else rdF s (R_LPH_STAT p) LPH_STAT_RATE) ++
    leBytes 1 (if eq then d.coefReq else 0) ++ leBytes 1 (if eq then d.coefStat else 0) ++ leBytes 1 (laneEmf s p lane) ++
    leBytes 1 (spareField s p) ++ leBytes 4 h.detectCount ++ leBytes 10 0
  body ++ leBytes 2 (crc16 body)

/-- A training frame leaves on a lane: the block, then 224 bytes of scrambler output on zeros (R269, R279). -/
def sendFrame (s : State) (p j : Nat) : State :=
  let block := trainingBlock s p j
  let s := sendScrambled (seedTx (sendBits s p j (blockBits block)) p j) p j (List.replicate (8 * 224) false)
  emit (setLane s p j { laneOf s p j with reqSent := true }) (.trainingBlock p j block)

/-- Training frames begun by now since the present state began: a frame of 2,048 bits takes 4,096/35 cycles at 28 Gb/s, half of that at each
rate above. -/
def framesBy (s : State) (p : Nat) : Nat := 35 * (s.time - (phyOf s p).stateAt) / (1024 * 2 ^ laneRate s p) + 1

/-- The lanes on which a port that trains sends: all nine, and in ALIGN those that carry a logical lane: after EQUALIZE a free spare is held
silent (R286). -/
def trainingLanes (s : State) (p : Nat) : List Nat :=
  if linkState s p = LS_ALIGN then (List.range 8).map (txCarrier s p) else nineLanes

/-- What a port that trains sends in a core cycle: a frame on each lane when the last one has ended. In ALIGN, whose ACK only a training block
carries, frames go on, each followed by a marker (DESIGN CHOICE, log entry 76). -/
def trainingCycle (s : State) (p : Nat) : State :=
  let st := linkState s p
  if LS_DETECT ≤ st && st ≤ LS_ALIGN && (phyOf s p).frames < framesBy s p then
    let s := (trainingLanes s p).foldl (fun s j => sendFrame s p j) s
    let s := setPhy s p { phyOf s p with frames := framesBy s p }
    if st = LS_ALIGN then sendMarker s p 0 else s
  else s

/-- A request of the partner for a lane's taps, acted on once: the partner repeats it until it has seen the answer. -/
def coefTake (s : State) (p j req : Nat) : State :=
  let d := laneOf s p j
  if req != 0 && req = d.lastReq then s
  else
    let x := coefAnswer s p j req
    setLane x.2 p j { laneOf x.2 p j with coefStat := x.1, lastReq := req }

/-- A request that a frame has carried is repeated until the partner's COEF_STAT answers it; after a frame that holds, which the partner
answers with no change, the receiver's next one follows (R279; DESIGN CHOICE that 0 is no answer, log entry 76). -/
def coefAsk (s : State) (p j want stat : Nat) : State :=
  let d := laneOf s p j
  if !d.reqSent then s
  else if d.coefReq != 0 then (if stat = 0 then s else setLane s p j { d with coefReq := 0, reqSent := false })
  else if bitsOf want 4 3 = 0 || stat != 0 then s
  else setLane s p j { d with coefReq := want, reqSent := false }

/-- What any valid block tells: the lane's signal, lock and polarity, and the lane it comes from. -/
def noteBlock (s : State) (p lane : Nat) (rx : LaneReport) (bs : List Byte) : State :=
  let s := wrB (wrB s (R_LRX_STAT p lane) LRX_STAT_SIGNAL true) (R_LRX_STAT p lane) LRX_STAT_LOCKED true
  let s := wrB s (R_LRX_STAT p lane) LRX_STAT_INVERTED rx.inverted
  let s := setLane s p lane { laneOf s p lane with plane := byteOf bs 9 }
  let h := phyOf s p
  setPhy s p { h with heard := h.heard ||| BitVec.ofNat 9 (1 <<< lane), partnerRates := byteOf bs 10 % 8,
                      partnerPrecode := bitOf (byteOf bs 10) 3, partnerFeReq := bitOf (byteOf bs 10) 4,
                      partnerFeAllow := bitOf (byteOf bs 10) 5,
                      partnerAck := h.partnerAck || linkState s p < byteOf bs 8 ||
                        (byteOf bs 8 = linkState s p && bitOf (byteOf bs 10) 6) }

/-- How many of the nine lanes have had a valid block. -/
def heardCount (s : State) (p : Nat) : Nat := (nineLanes.filter (fun j => (phyOf s p).heard.getLsbD j)).length

/-- Whether every lane heard sits where a wiring of R271 puts it. -/
def wiringIs (s : State) (p : Nat) (rev : Bool) : Bool :=
  nineLanes.all (fun j => let q := (laneOf s p j).plane; q = 9 || q = (if j = 8 then 8 else if rev then 7 - j else j))

/-- DETECT: 8 of the 9 lanes heard; the wiring is found (R271, R278). -/
def detectBlock (s : State) (p : Nat) : State :=
  if 8 ≤ heardCount s p then
    enterTraining (wrB s (R_LPH_STAT p) LPH_STAT_REVERSED (!wiringIs s p false && wiringIs s p true)) p LS_SPEED
  else s

/-- SPEED: the highest rate that both ends offer, and the attempt rate falls to it; no common rate fails the attempt (R263, R268, R280).
Each direction precodes when its receiver asks for it and the rate is PAM4. -/
def speedBlock (s : State) (p : Nat) (partnerState : Nat) : State :=
  let h := phyOf s p
  if partnerState < LS_SPEED then s
  else
    let common := ratesBelow h.rates h.attemptRate &&& h.partnerRates
    if common = 0 then failAttempt s p 3
    else
      let rate := highestRate common
      let s := setPhy s p { h with good := 1 }
      if h.partnerAck then
        let s := wrF s (R_LPH_STAT p) LPH_STAT_RATE rate
        let s := if rate = h.attemptRate then s else wrF s (R_LPH_STAT p) LPH_STAT_ATTEMPT 1
        let s := wrB s (R_LPH_STAT p) LPH_STAT_PRECODE_RX (rdB s (R_LPH_CTL p) LPH_CTL_PRECODE_REQ && decide (rate < 2))
        let s := wrB s (R_LPH_STAT p) LPH_STAT_PRECODE_TX (h.partnerPrecode && decide (rate < 2))
        enterTraining (setPhy s p { phyOf s p with attemptRate := rate }) p LS_EQUALIZE
      else s

/-- The end of EQUALIZE: a loopback asked for by either end, or ALIGN (R278, R286–R288). A spare below EQ_TARGET is unusable until the next
attempt; a spare that is to be released stays in use when its lane's own receiver misses EQ_TARGET. -/
def endEqualize (s : State) (p : Nat) : State :=
  let h := phyOf s p
  let s := if rxSpareFree s p && !meetsTarget s p 8 then wrB s (R_LRX_STAT p 8) LRX_STAT_UNUSABLE true else s
  let s := if h.pendingUnspare then
      (if !rxSpareFree s p && meetsTarget s p (straightLane s p (rdF s (R_LPH_STAT p) LPH_STAT_RX_SPARED)) then releaseSpare s p
       else setPhy s p { phyOf s p with pendingUnspare := false })
    else s
  if retraining s p then enterTraining s p LS_ALIGN
  else if farEndAsked s p then (if h.partnerFeAllow then enterLoopback s p false else failAttempt s p 8)
  else if h.partnerFeReq && rdB s (R_LPH_CTL p) LPH_CTL_ALLOW_FE then enterLoopback s p true
  else enterTraining s p LS_ALIGN

/-- An EMF of a lane (R272, R289). -/
def noteEmf (s : State) (p j emf : Nat) : State :=
  let s := wrF s (R_LRX_STAT p j) LRX_STAT_EMF emf
  wrF s (R_LRX_STAT p j) LRX_STAT_EMF_MIN (min emf (rdF s (R_LRX_STAT p j) LRX_STAT_EMF_MIN))

/-- The equaliser settings that adaptation has reached; the FFE's are free values (R266, log entry 4). -/
def noteTaps (s : State) (p j : Nat) (ctle : BitVec 5) (dfe : BitVec 8) : State :=
  let s := wr s (R_LRX_EQ p j) (w64 (ctle.toNat + dfe.toNat <<< 8))
  let s := wr (wr s (R_LRX_FFE0 p j) (Config.ffeTaps s.free p j)) (R_LRX_FFE1 p j) (Config.ffeTaps s.free (p + 8) j &&& 0xFFFFFFFF)
  { s with free := s.free + 1 }

/-- EMF of a lane: the lowest over its eyes of floor(255 h / H), at most 255 (R272). -/
def emfOf (eyes : List Eye) : Nat := eyes.foldl (fun m e => min m (min 255 (255 * e.opening / e.spacing))) 255

/-- EQUALIZE: the lane's EMF and equaliser, the moves of lanes, and the end when all 8 logical lanes reach EQ_TARGET and both ends
ACK (R266, R278, R286). -/
def equalizeBlock (s : State) (p lane : Nat) (rx : LaneReport) (block : List Byte) : State :=
  let emf := emfOf rx.eyes
  let adapted := decide (bitsOf rx.coefReq.toNat 4 3 = 0) && decide (emf < eqTarget s)
  let s := noteTaps (noteEmf s p lane emf) p lane rx.ctle rx.dfe
  let s := txSpareAsk s p (byteOf block 15) (byteOf block 8)
  let s := spareMoves (spareFails s p lane adapted) p adapted
  if (missingLanes s p).isEmpty && (phyOf s p).pendingSpare.isNone then
    let s := setPhy s p { phyOf s p with good := 1 }
    if (phyOf s p).partnerAck then endEqualize s p else s
  else s

/-- ALIGN: markers found, lanes deskewed and mapped, scramblers locked, both ends ACK; a wiring of R271 or cause 5 (R271, R278). -/
def alignBlock (s0 : State) (p lane : Nat) (rx : LaneReport) (block : List Byte) : State :=
  let s := txSpareAsk s0 p (byteOf block 15) (byteOf block 8)
  let h := phyOf s p
  if !retraining s p && !wiringIs s p (reversed s p) then failAttempt s p 5
  else
    let good := if rx.aligned then h.good ||| BitVec.ofNat 9 (1 <<< lane) else h.good &&& ~~~(BitVec.ofNat 9 (1 <<< lane))
    let s := setPhy s p { h with good := good }
    if h.partnerAck && ownAck s p then enterUp s p else s

/-- TRAINING_BLOCK (R279): a block received on a lane advances the attempt or the retrain; a frame whose CRC fails is ignored. -/
def execTrainingBlock (port : BitVec 3) (lane : BitVec 4) (rx : LaneReport) (block : List Byte) (s : State) :
    Host.Outcome State Fault Refusal :=
  let p := port.toNat
  let j := lane.toNat
  let st := linkState s p
  if coreOn s && p < numPorts s.variant && j < 9 && LS_DETECT ≤ st && st ≤ LS_ALIGN && blockValid block then
    let s := noteBlock s p j rx block
    if st = LS_DETECT then .next (detectBlock s p)
    else if st = LS_SPEED then .next (speedBlock s p (byteOf block 8))
    else if st = LS_EQUALIZE then
      .next (equalizeBlock (coefAsk (coefTake s p j (byteOf block 12)) p j rx.coefReq.toNat (byteOf block 13 % 4)) p j rx block)
    else .next (alignBlock s p j rx block)
  else .next s

/-- The time limit of a training state in ns, and the cause of its failure (table "Port states"). -/
def stateLimit : Nat → Nat × Nat
  | 1 => (10000000, 1)
  | 2 => (1000000, 3)
  | 3 => (20000000, 4)
  | _ => (1000000, 5)

/-- TRAINING_TIMEOUT (R278, R280): an attempt past the limit of its state fails. -/
def execTrainingTimeout (port : BitVec 3) (s : State) : Host.Outcome State Fault Refusal :=
  let p := port.toNat
  let st := linkState s p
  if coreOn s && p < numPorts s.variant && LS_DETECT ≤ st && st ≤ LS_ALIGN && !retraining s p && nsPassed s (phyOf s p).stateAt (stateLimit st).1 then
    .next (failAttempt s p (stateLimit st).2)
  else .next s

/-- SIGNAL_LOSS (R267, R276, R281, R288): no signal on any receive lane for 10 µs in training, or 100 µs in UP, in an electrical-idle exit
or as the echo of a far-end loopback. -/
def execSignalLoss (port : BitVec 3) (s : State) : Host.Outcome State Fault Refusal :=
  let p := port.toNat
  let st := linkState s p
  if p < numPorts s.variant then
    if st = LS_DETECT then .next (lanesOff s p)
    else if LS_SPEED ≤ st && st ≤ LS_ALIGN then .next (enterDown s p 2)
    else if st = LS_UP && (!inEi s p || (phyOf s p).eiExitAt.isSome) then .next (enterDown s p 7)
    else if st = LS_LOOPBACK && (phyOf s p).echo then .next (startTraining s p)
    else .next s
  else .next s

/-- DOWN_BACKOFF_END (R281; not without the core's clock, R430): after 10 ms × 2^min(n − 1, 6), with n the entries to DOWN since UP. -/
def execDownBackoffEnd (port : BitVec 3) (s : State) : Host.Outcome State Fault Refusal :=
  let p := port.toNat
  let h := phyOf s p
  if coreOn s && p < numPorts s.variant && linkState s p = LS_DOWN && nsPassed s h.stateAt (10000000 * 2 ^ min (h.downsSinceUp - 1) 6) then
    .next (startTraining s p)
  else .next s

/-- UNANSWERED_BACKOFF_END (R282; not without the core's clock, R430): after 1 s the port starts again. -/
def execUnansweredBackoffEnd (port : BitVec 3) (s : State) : Host.Outcome State Fault Refusal :=
  let p := port.toNat
  if coreOn s && p < numPorts s.variant && linkState s p = LS_UNANSWERED && nsPassed s (phyOf s p).stateAt 1000000000 then .next (startTraining s p)
  else .next s

/-- Whether a control marker with a flag is received: the port is UP, and the marker's CRC holds (R270). -/
def markerTaken (s : State) (p : Nat) (marker : List Byte) (flag : Nat) : Bool := portUp s p && !inEi s p && markerSays marker flag

/-- What every received marker whose CRC holds does: the scramblers and precoders of its lanes are loaded (R268, R269). -/
def takeMarker (s : State) (marker : MarkerIn) : State :=
  let p := marker.port.toNat
  if portUp s p && !inEi s p && markerValid marker.bytes then rxMarked s p else s

/-- RETRAIN_REQ (R283): the partner asks for a retrain. -/
def execRetrainReq (marker : MarkerIn) (s : State) : Host.Outcome State Fault Refusal :=
  let s := takeMarker s marker
  if markerTaken s marker.port.toNat marker.bytes 4 then .next (startRetrain s marker.port.toNat) else .next s

/-- RETRAIN_TIMEOUT (R283): a retrain not complete within 5 ms ends in DOWN. -/
def execRetrainTimeout (port : BitVec 3) (s : State) : Host.Outcome State Fault Refusal :=
  let p := port.toNat
  if p < numPorts s.variant && retraining s p && nsPassed s (phyOf s p).retrainAt 5000000 then .next (enterDown s p 6) else .next s

/-! ### Eye margin and adaptation (R272–R274) -/

/-- The eyes of a lane at a rate: three on a PAM4 lane, one on an NRZ lane. -/
def eyesFit (s : State) (p : Nat) (eyes : List Eye) : Bool :=
  eyes.length = (if rdF s (R_LPH_STAT p) LPH_STAT_RATE < 2 then 3 else 1) && eyes.all (fun e => e.spacing != 0)

/-- Flits received by port `p` in the last `us` microseconds, and those with a slot in use (R273, R296). -/
def trafficIn (s : State) (p us : Nat) : Nat × Nat :=
  ((phyOf s p).traffic.filter (fun t => s.time / 1600 < t.1 + us)).foldl (fun a t => (a.1 + t.2.1, a.2 + t.2.2)) (0, 0)

/-- Whether the traffic of the last `us` microseconds is 1 % or more. -/
def trafficBusy (s : State) (p us : Nat) : Bool := let t := trafficIn s p us; t.2 != 0 && decide (t.1 ≤ 100 * t.2)

/-- Whether every update of a window lies within ±BAND of its first. -/
def windowSteady (band : Nat) (hist : List Nat) : Bool :=
  match hist.getLast? with
  | none => false
  | some f => hist.all (fun e => e ≤ f + band && f ≤ e + band)

/-- Whether `j` is the only lane in use of its direction below FLOOR. -/
def onlyBelow (s : State) (p j : Nat) : Bool :=
  nineLanes.all (fun k => k = j || !laneUsed s p k || rdF s R_LN_GCFG LN_GCFG_FLOOR ≤ laneEmf s p k)

/-- A retrain called by HARD_FLOOR, moving the lane to the spare when it alone is below FLOOR (R274). -/
def hardFloorRetrain (s : State) (p j : Nat) : State :=
  let move := linkState s p = LS_UP && onlyBelow s p j && rxSpareFree s p && !rdB s (R_LRX_STAT p 8) LRX_STAT_UNUSABLE &&
    rdB s (R_LPH_CTL p) LPH_CTL_AUTO_SPARE
  let s := startRetrain s p
  if move then setPhy s p { phyOf s p with pendingSpare := some (rdF s (R_LRX_STAT p j) LRX_STAT_LOGICAL) } else s

/-- The move of a lane's mode at an update (table "Adaptation modes"). -/
def adaptStep (s : State) (p j emf : Nat) : State :=
  let floor := rdF s R_LN_GCFG LN_GCFG_FLOOR
  let d := laneOf s p j
  let freezeUs := rdF s R_LN_GCFG LN_GCFG_FREEZE_US
  let d := { d with hist := (emf :: d.hist).take (freezeUs + 1), below := if emf < floor then d.below + 1 else 0,
                    above := if floor + rdF s R_LN_GCFG2 LN_GCFG2_HYST ≤ emf then d.above + 1 else 0 }
  let s := setLane s p j d
  let m := laneMode s p j
  if m = LM_READAPT then
    if 10 ≤ d.above then setLane (setMode s p j LM_TRACKING) p j { d with hist := [emf], below := 0, above := 0 } else s
  else if rdF s R_LN_GCFG LN_GCFG_FLOOR_US ≤ d.below then
    setLane (setMode (countSat s 0x0A (R_LPH_CNT_A p) LPH_CNT_A_READAPTS 1) p j LM_READAPT) p j { d with readaptAt := s.time, above := 0 }
  else if m = LM_FROZEN then
    if trafficBusy s p 10 then setLane (setMode s p j LM_TRACKING) p j { d with hist := [emf] } else s
  else if rdB s (R_LPH_CTL p) LPH_CTL_FREEZE_EN && d.hist.length = freezeUs + 1 &&
      windowSteady (rdF s R_LN_GCFG LN_GCFG_BAND) d.hist && !trafficBusy s p freezeUs then
    setMode s p j LM_FROZEN
  else s

/-- Whether a receive lane receives and is in use, so that it computes its EMF (R272): in UP outside electrical idle, in ALIGN when it carries
a logical lane, in LOOPBACK. -/
def laneMeasures (s : State) (p j : Nat) : Bool :=
  decide (p < numPorts s.variant) && decide (j < 9) &&
  ((linkState s p = LS_UP && !inEi s p && laneUsed s p j) ||
   (linkState s p = LS_ALIGN && (List.range 8).any (fun l => carrier s p l = j)) ||
   (linkState s p = LS_LOOPBACK && laneUsed s p j))

/-- What an update shows beside the EMF (R266, R267, R273, R288): outside FROZEN the settings that adaptation has reached, lock regained, and
in LOOPBACK the symbol errors of the pattern, which the echoing end does not check. -/
def noteObs (s : State) (p j : Nat) (rx : LaneObs) : State :=
  let s := if laneMode s p j = LM_FROZEN then s else noteTaps s p j rx.ctle rx.dfe
  let s := wrB s (R_LRX_STAT p j) LRX_STAT_SIGNAL true
  let s := if rx.locked then wrB s (R_LRX_STAT p j) LRX_STAT_LOCKED true else s
  if linkState s p = LS_LOOPBACK && !(phyOf s p).echo then countSat s 0x0A (R_LRX_ERR p j) LRX_ERR_PATTERN_ERR rx.errors.toNat else s

/-- EMF_UPDATE (R272–R274): a receive lane in use computes its EMF and moves between its modes; below HARD_FLOOR the port retrains. -/
def execEmfUpdate (port : BitVec 3) (lane : BitVec 4) (rx : LaneObs) (s : State) : Host.Outcome State Fault Refusal :=
  let p := port.toNat
  let j := lane.toNat
  if laneMeasures s p j && eyesFit s p rx.eyes then
    let emf := emfOf rx.eyes
    let s := noteObs (noteEmf s p j emf) p j rx
    if linkState s p = LS_ALIGN then .next s
    else
      let s := adaptStep s p j emf
      let d := laneOf s p j
      let hard := if emf < rdF s R_LN_GCFG LN_GCFG_HARD_FLOOR then d.belowHard + 1 else 0
      let s := setLane s p j { d with belowHard := hard }
      if rdF s R_LN_GCFG2 LN_GCFG2_HARD_UPDATES ≤ hard then .next (hardFloorRetrain s p j) else .next s
  else .next s

/-- READAPT_TIMEOUT (R273): a lane still in READAPT after READAPT_US makes the port retrain. -/
def execReadaptTimeout (port : BitVec 3) (lane : BitVec 4) (s : State) : Host.Outcome State Fault Refusal :=
  let p := port.toNat
  let j := lane.toNat
  if portUp s p && j < 9 && laneMode s p j = LM_READAPT &&
      nsPassed s (laneOf s p j).readaptAt (1000 * rdF s R_LN_GCFG2 LN_GCFG2_READAPT_US) then .next (startRetrain s p)
  else .next s

/-- MARKER_MISSING (R270): the third periodic marker in a row is missing on a lane. -/
def execMarkerMissing (port : BitVec 3) (lane : BitVec 4) (s : State) : Host.Outcome State Fault Refusal :=
  let p := port.toNat
  if portUp s p && !inEi s p && laneUsed s p lane.toNat then .next (startRetrain s p) else .next s

/-- LOSS_OF_LOCK (R267): the phase-tracking loop of a lane in use loses lock. -/
def execLossOfLock (port : BitVec 3) (lane : BitVec 4) (s : State) : Host.Outcome State Fault Refusal :=
  let p := port.toNat
  let j := lane.toNat
  if p < numPorts s.variant && !inEi s p && laneUsed s p j then
    .next (countSat (wrB s (R_LRX_STAT p j) LRX_STAT_LOCKED false) 0x0A (R_LRX_ERR p j) LRX_ERR_LOCK_LOSS 1)
  else .next s

/-! ### Electrical idle (R275–R277) -/

/-- Whether the conditions of R275 that an answer depends on hold; in SLEEP a port without a pair role behaves as if EI_EN = 1 (R352). -/
def idleReady (s : State) (p : Nat) : Bool :=
  (rdB s (R_LPH_CTL p) LPH_CTL_EI_EN || (devSleep s && !isPairPort s p)) && nothingToSend s p && (linkOf s p).kept.isEmpty

/-- Ask for electrical idle (R275). -/
def askEi (s : State) (p : Nat) : State :=
  let s := sendMarker s p 0x02
  setPhy s p { phyOf s p with eiAsked := true, eiMeets := none, eiCrossed := false }

/-- Enter electrical idle: one more marker, then no drive, and the receivers are off (R275). -/
def enterEi (s : State) (p : Nat) : State :=
  let s := wrB (lanesOff (sendMarker s p 0) p) (R_LPH_STAT p) LPH_STAT_EI true
  countWrap (setPhy s p { phyOf s p with eiAsked := false, eiExitAt := none, eiMeets := none, eiCrossed := false }) 0x0A (R_LPH_CNT_B p) LPH_CNT_B_EI_ENTRIES 1

/-- Leave electrical idle: the receivers lock in the burst and align on the marker, and each lane resumes its mode with fresh windows (R276). -/
def leaveEi (s : State) (p : Nat) : State :=
  let s := freshWindows (lanesReceive (rxMarked (wrB s (R_LPH_STAT p) LPH_STAT_EI false) p) p) p
  setPhy s p { phyOf s p with eiExitAt := none, eiAsked := false, eiMeets := none, eiCrossed := false, idleSince := s.time }

/-- EI_IDLE_TIMEOUT (R275): after EI_IDLE_US of idle a port asks for electrical idle. -/
def execEiIdleTimeout (port : BitVec 3) (s : State) : Host.Outcome State Fault Refusal :=
  let p := port.toNat
  let h := phyOf s p
  if portUp s p && !inEi s p && idleReady s p && !h.eiAsked && nsPassed s h.idleSince (1000 * rdF s (R_LPH_CTL p) LPH_CTL_EI_IDLE_US) then
    .next (askEi s p)
  else .next s

/-- EI_REQ (R275, R277): a received EI_REQ is answered EI_ACK or EI_NAK. One that meets the port's own is taken as EI_ACK while the port is
ready; the entry then waits 100 ns for the partner's EI_NAK. -/
def execEiReq (marker : MarkerIn) (s : State) : Host.Outcome State Fault Refusal :=
  let p := marker.port.toNat
  let s := takeMarker s marker
  if markerTaken s p marker.bytes 1 then
    let h := phyOf s p
    if idleReady s p then
      if h.eiAsked then .next (setPhy s p { h with eiMeets := some s.time }) else .next (enterEi (sendMarker s p 0x04) p)
    else
      let s := sendMarker s p 0x08
      .next (setPhy s p { phyOf s p with eiAsked := false, eiMeets := none, eiCrossed := h.eiCrossed || h.eiAsked,
                                         idleSince := if h.eiAsked then s.time else h.idleSince })
  else .next s

/-- EI_ACK (R275): both ends enter electrical idle. -/
def execEiAck (marker : MarkerIn) (s : State) : Host.Outcome State Fault Refusal :=
  let p := marker.port.toNat
  let s := takeMarker s marker
  if markerTaken s p marker.bytes 2 && (phyOf s p).eiAsked then .next (enterEi s p) else .next s

/-- EI_NAK (R275, R277): refused; the port asks again only after a further EI_IDLE_US. A port that has refused the partner's request while its own
was under way counts the partner's EI_NAK too. -/
def execEiNak (marker : MarkerIn) (s : State) : Host.Outcome State Fault Refusal :=
  let p := marker.port.toNat
  let s := takeMarker s marker
  if markerTaken s p marker.bytes 3 && ((phyOf s p).eiAsked || (phyOf s p).eiCrossed) then
    .next (countSat (setPhy s p { phyOf s p with eiAsked := false, eiMeets := none, eiCrossed := false, idleSince := s.time }) 0x0A (R_LPH_CNT_B p) LPH_CNT_B_EI_REFUSED 1)
  else .next s

/-- What a port in UP notes of electrical idle in a core cycle that ends: idle time counts only while nothing waits and every flit sent is
acknowledged (R275); an entry on requests that met is complete after 100 ns without an EI_NAK (R277). -/
def idleCycle (s : State) (p : Nat) : State :=
  if portUp s p && !inEi s p then
    let h := phyOf s p
    match h.eiMeets with
    | some t => if h.eiAsked && nsPassed s t 100 then enterEi s p else s
    | none => if nothingToSend s p && (linkOf s p).kept.isEmpty then s else setPhy s p { h with idleSince := s.time + 1 }
  else s

/-- EI_EXIT (R276): a port in electrical idle with anything to send sends a wake burst and a control marker. -/
def execEiExit (port : BitVec 3) (s : State) : Host.Outcome State Fault Refusal :=
  let p := port.toNat
  let h := phyOf s p
  if portUp s p && inEi s p && h.eiExitAt.isNone && !nothingToSend s p then
    let s := sendMarker (emit s (.burst p)) p 0
    .next (setPhy s p { phyOf s p with eiExitAt := some s.time })
  else .next s

/-- WAKE_BURST (R276, R277): the partner's burst answers the port's own, or is answered with a burst and a marker. -/
def execWakeBurst (port : BitVec 3) (s : State) : Host.Outcome State Fault Refusal :=
  let p := port.toNat
  if portUp s p && inEi s p then
    .next (leaveEi (if (phyOf s p).eiExitAt.isSome then s else sendMarker (emit s (.burst p)) p 0) p)
  else .next s

/-- EI_EXIT_TIMEOUT (R276): an exit not answered within 1 µs makes the port retrain. -/
def execEiExitTimeout (port : BitVec 3) (s : State) : Host.Outcome State Fault Refusal :=
  let p := port.toNat
  match (phyOf s p).eiExitAt with
  | none => .next s
  | some t => if portUp s p && nsPassed s t 1000 then .next (startRetrain s p) else .next s

/-! ### Enables and register writes (R278, R287–R290) -/

/-- A port's enable is set or cleared (R278); clearing it leaves UP, and the session ends. -/
def portEnable (s : State) (p : Nat) (on : Bool) : State :=
  if on then (if linkState s p = LS_DISABLED then startTraining s p else s)
  else if linkState s p = LS_DISABLED then s else leaveFor s p LS_DISABLED

/-- What LOOP asks of a port (R288). -/
def loopAct (s : State) (p old new : Nat) : State :=
  let st := linkState s p
  if st = LS_DISABLED then s
  else if new = 0 then (if old != 0 || st = LS_LOOPBACK then startTraining (sessionEnd s p) p else s)
  else if new = 3 then
    (if old != 3 || st = LS_UP then startTraining (sessionEnd s p) p else if st = LS_LOOPBACK then loopSend s p else s)
  else if old = new && st = LS_LOOPBACK then loopSend s p
  else enterLoopback s p false

/-- A write of LPH_CTL (R283, R287–R290). -/
def wrLphCtl (s : State) (p : Nat) (v : Word64) : Written :=
  if getF v LPH_CTL_RATES = 0 || getF v LPH_CTL_EI_IDLE_US = 0 then refusedWith s .range
  else
    let old := rdF s (R_LPH_CTL p) LPH_CTL_LOOP
    let s := loopAct (plainWrite s (R_LPH_CTL p) v) p old (getF v LPH_CTL_LOOP)
    if linkState s p = LS_UP && (acts v LPH_CTL_RETRAIN || acts v LPH_CTL_UNSPARE || (acts v LPH_CTL_SPARE_NOW && rxSpareFree s p)) then
      let s := startRetrain s p
      let h := phyOf s p
      accepted (setPhy s p { h with
        pendingUnspare := h.pendingUnspare || acts v LPH_CTL_UNSPARE
        pendingSpare := if acts v LPH_CTL_SPARE_NOW && rxSpareFree s p && !rdB s (R_LRX_STAT p 8) LRX_STAT_UNUSABLE then some (getF v LPH_CTL_SPARE_LANE) else h.pendingSpare })
    else accepted s

/-- A write of LRX_STAT: MIN_CLEAR. -/
def wrLrxStat (s : State) (p j : Nat) (v : Word64) : State :=
  if acts v LRX_STAT_MIN_CLEAR then wrF s (R_LRX_STAT p j) LRX_STAT_EMF_MIN 0xFF else s

/-- A write of LTX_FIX (R290). -/
def wrLtxFix (s : State) (p j : Nat) (v : Word64) : Written :=
  if tapsLegal v then accepted (plainWrite s (R_LTX_FIX p j) v) else refusedWith s .range

/-- Every window of every lane starts afresh (R290). -/
def allFresh (s : State) : State := (List.range (numPorts s.variant)).foldl freshWindows s

/-- A write of LN_GCFG (R290). -/
def wrLnGcfg (s : State) (v : Word64) : Written :=
  if getF v LN_GCFG_FLOOR ≤ getF v LN_GCFG_HARD_FLOOR || getF v LN_GCFG_FREEZE_US = 0 || getF v LN_GCFG_FLOOR_US = 0 then refusedWith s .range
  else accepted (allFresh (plainWrite s R_LN_GCFG v))

/-- A write of LN_GCFG2 (R290). -/
def wrLnGcfg2 (s : State) (v : Word64) : Written :=
  if 255 < rdF s R_LN_GCFG LN_GCFG_FLOOR + getF v LN_GCFG2_HYST || getF v LN_GCFG2_READAPT_US = 0 || getF v LN_GCFG2_HARD_UPDATES = 0 then
    refusedWith s .range
  else accepted (allFresh (plainWrite s R_LN_GCFG2 v))

/-- STAT_CLEAR of block 0x0A: LPH_CNT_A, LPH_CNT_B and LRX_ERR of every port; events of the cycle are lost. -/
def wrLnGctl (s : State) (v : Word64) : State :=
  if acts v LN_GCTL_STAT_CLEAR then
    let s := (List.range (numPorts s.variant)).foldl (fun s p =>
      nineLanes.foldl (fun s j => wr s (R_LRX_ERR p j) 0) (wr (wr s (R_LPH_CNT_A p) 0) (R_LPH_CNT_B p) 0)) s
    noteCleared s 0x0A
  else s

end Sys2Proof.Machine
end

