-- ==== Sys2Proof/Machine/Pair.lean ====
section
/-! DEFINITION. Mirrored pairs (R325–R347): received units and their acceptance, HELLO, joining and the choice of source,
resynchronisation, loss of a pair port and of the partner, promotion, healing, and the register writes of block 0x29. -/

namespace Sys2Proof.Machine

/-- PR_ROLE.ROLE. -/
def pairRole (s : State) : Nat := rdF s R_PR_ROLE PR_ROLE_ROLE
/-- PR_STAT.ACTIVE. -/
def pairActive (s : State) : Bool := rdB s R_PR_STAT PR_STAT_ACTIVE
/-- Whether this side is the source of SYNCING. -/
def pairSource (s : State) : Bool := rdB s R_PR_STAT PR_STAT_SOURCE

/-- Set an event bit of PR_STAT: one event on S4099 (R347). -/
def pairEvent (s : State) (f : Fld) : State := raiseSource (wrB s R_PR_STAT f true) 4099

/-- Change PR_STAT.STATE; a HELLO is due at once (R330). -/
def setPairState (s : State) (st : Nat) (active source : Bool) : State :=
  let s := wrB (wrB (wrF s R_PR_STAT PR_STAT_STATE st) R_PR_STAT PR_STAT_ACTIVE active) R_PR_STAT PR_STAT_SOURCE source
  { s with pair := { s.pair with helloDue := true } }

/-- The pair ports of the role's choice. -/
def pairPorts (s : State) : List Nat := [6, 7].filter (isPairPort s)

/-! ### Loss of the partner (R338–R341) -/

/-- Every segment of the mirrored regions (R339). -/
def mirroredSegments (s : State) : List Nat :=
  (List.range 4096).filter (fun g => arrayPresent s.variant (g * 0x10000) && mirroredAddr s (g * 0x10000))

/-- Step 1 of R339: the segment of every LINES unit not yet accepted. -/
def markUnits (s : State) : State :=
  s.pair.units.foldl (fun s u => match u.segment with | some g => markSegment s g | none => s) s

/-- Step 2 of R339. -/
def noteBreak (s : State) : State := pairEvent (wr s R_PR_BREAK (w64 s.time)) PR_STAT_EV_LOST

/-- The units still in a pair port's stream leave it; what answers the partner stays. -/
def purgeUnits (s : State) (p : Nat) : State :=
  let l := linkOf s p
  setLink s p { l with tx := l.tx.filter (fun u => u.1 != 0) }

/-- Forget the units in flight, the lines asked for and the copy; PENDING follows. -/
def dropUnits (s : State) : State :=
  let s := (pairPorts s).foldl purgeUnits s
  wrF { s with pair := { s.pair with units := [], syncSegs := [], syncPos := 0, syncLast := none, syncFault := none, heals := [],
                                     healWaits := [] } } R_PR_FWD PR_FWD_PENDING 0

/-- Enter SOLO (R339): every request that was waiting for acceptance is answered. -/
def enterSolo (s : State) : State :=
  let s := noteBreak (markUnits s)
  let s := wrB (addWrap s R_PR_EPOCH PR_EPOCH_EPOCH 1) R_PR_EPOCH PR_EPOCH_SOLO_SINCE_JOIN true
  let ds := s.pair.units.flatMap (fun u => u.deferred)
  runAllDeferred (setPairState (dropUnits s) PS_SOLO true false) ds

/-- Enter ORPHAN (R339). -/
def enterOrphan (s : State) : State :=
  let s := noteBreak (markUnits s)
  setPairState { dropUnits s with pair := { (dropUnits s).pair with orphanAt := s.time } } PS_ORPHAN false false

/-- The partner is lost (R339, R341, R344). -/
def partnerLost (s : State) : State :=
  let st := pairState s
  let s := { s with pair := { s.pair with partner := none, sourceCmd := if st = PS_SYNCING then 0 else s.pair.sourceCmd } }
  if st = PS_MIRRORED then (if pairActive s then enterSolo s else enterOrphan s)
  else if st = PS_SYNCING then
    if pairSource s then enterSolo s else wrB (enterOrphan s) R_PR_EPOCH PR_EPOCH_UNCLEAN true
  else s

/-- What was on a lost port is sent again on the other (R338): its units wait for UTAGs there, before any new unit, and the lines it was
asked for with them. -/
def moveUnits (s : State) (p : Nat) : State :=
  let s := purgeUnits s p
  let moved := s.pair.heals.filter (fun h => h.1 = p)
  settleTags { s with pair := { s.pair with units := s.pair.units.map (fun u => if u.port = p then { u with port := 8 } else u),
                                            heals := s.pair.heals.filter (fun h => h.1 != p),
                                            healWaits := moved.map (fun h => h.2.2) ++ s.pair.healWaits } }

/-- PAIR_PORT_LOSS (R338): a pair port has left UP, or has had no HELLO for LOSS_US. -/
def execPairPortLoss (port : BitVec 3) (s : State) : Host.Outcome State Fault Refusal :=
  let p := port.toNat
  let last := sget 0 s.pair.lastHello p
  if isPairPort s p && pairPortUp s p &&
      (!(portUp s p || retraining s p) || nsPassed s last (1000 * rdF s R_PR_CFG PR_CFG_LOSS_US)) then
    let s := wrF s R_PR_STAT PR_STAT_PORTS_UP (rdF s R_PR_STAT PR_STAT_PORTS_UP - 2 ^ (p - 6))
    let s := { s with pair := { s.pair with portLost := p :: s.pair.portLost.filter (fun x => x != p) } }
    let other := 13 - p
    if isPairPort s other && pairPortUp s other then .next (pairEvent (moveUnits s p) PR_STAT_EV_PORT)
    else .next (partnerLost s)
  else .next s

/-- The events of a promotion: each private source whose mailbox has EVENTS ≠ 0 and a binding of mode 1 (R340). -/
def promoteSources (s : State) : State :=
  (List.range (numMailboxes s.variant)).foldl (fun s m =>
    let d := mbxDecode s m 6
    if stEvents (mbxWord d 1) != 0 && mbxWord d 2 % 4 = 1 then raiseSource s m else s) s

/-- Promotion (R340). -/
def promote (s : State) : State := if pairState s = PS_ORPHAN then promoteSources (enterSolo s) else s

/-- AUTO_PROMOTE (R340): after PROMOTE_MS in ORPHAN. -/
def execAutoPromote (s : State) : Host.Outcome State Fault Refusal :=
  if pairState s = PS_ORPHAN && rdB s R_PR_CFG PR_CFG_AUTO_PROMOTE &&
      nsPassed s s.pair.orphanAt (1000000 * rdF s R_PR_CFG PR_CFG_PROMOTE_MS) then .next (promote s)
  else .next s

/-! ### Received units (R333, R334, R346) -/

/-- Whether units that carry changes are applied: on the passive device or the target of SYNCING (R333, R337). -/
def pairApplies (s : State) : Bool := pairRefuses s && pairState s != PS_ORPHAN

/-- The lines of a LINES unit: address and image, in ascending order. -/
def lineImages (base lmask : Nat) (data : List Byte) : List (Nat × List Byte) :=
  (((List.range 16).filter (fun k => bitOf lmask k)).zipIdx).map (fun x => (base + 64 * x.1, sliceBytes data (64 * x.2) 64))

/-- LINES (R333): each line is a full-line write of requester 25. -/
def execLinesUnit (port : BitVec 3) (utag : BitVec 12) (base : BitVec 32) (lmask : BitVec 16) (data : List Byte) (s : State) :
    Host.Outcome State Fault Refusal :=
  let ls := lineImages (base.toNat - base.toNat % 1024) lmask.toNat data
  if isPairPort s port.toNat then
    let s := countSlots s port.toNat 0 (1 + 4 * ls.length)
    .next (if pairApplies s && ls.all (fun x => arrayPresent s.variant x.1) then rxReceive s port.toNat utag.toNat (.lines ls) else s)
  else .next s

/-- SEM (R333): the state word and the binding, in a store cycle of requester 25. -/
def execSemUnit (port : BitVec 3) (utag : BitVec 12) (n : BitVec 16) (state binding : Word64) (s : State) :
    Host.Outcome State Fault Refusal :=
  if isPairPort s port.toNat then
    let s := countSlots s port.toNat 0 2
    .next (if pairApplies s then
      semUnitTurn (rxReceive s port.toNat utag.toNat (.sem n.toNat (leBytes 8 state.toNat ++ leBytes 8 binding.toNat))) else s)
  else .next s

/-- The changed codewords of an MBX unit, with their images. -/
def unitParts (parts : Nat) (data : List Byte) : List (Nat × List Byte) :=
  (((List.range 7).filter (fun k => bitOf parts k)).zipIdx).map (fun x => (x.1, sliceBytes data (32 * x.2) 32))

/-- MBX (R214, R333): the changed codewords and OPEN, in a store cycle of requester 25; no event follows. -/
def execMbxUnit (port : BitVec 3) (utag : BitVec 12) (n : BitVec 16) (parts : BitVec 7) (isOpen : Bool) (data : List Byte) (s : State) :
    Host.Outcome State Fault Refusal :=
  let ps := unitParts parts.toNat data
  if isPairPort s port.toNat then
    let s := countSlots s port.toNat 0 (1 + 2 * ps.length)
    .next (if pairApplies s && n.toNat < numMailboxes s.variant then
      mbxUnitTurn (rxReceive s port.toNat utag.toNat (.mbx n.toNat isOpen ps)) else s)
  else .next s

/-- VAT (R333): the whole entry. -/
def execVatUnit (port : BitVec 3) (utag : BitVec 12) (n : BitVec 16) (data : List Byte) (s : State) : Host.Outcome State Fault Refusal :=
  if isPairPort s port.toNat then
    let s := countSlots s port.toNat 0 5
    .next (if pairApplies s && n.toNat < 1024 then rxReceive s port.toNat utag.toNat (.vat n.toNat data) else s)
  else .next s

/-- Both devices enter MIRRORED (R344). -/
def enterMirrored (s : State) : State :=
  let s := if pairSource s then s else
    match s.pair.partner with
    | some f => wrF s R_PR_EPOCH PR_EPOCH_EPOCH f.epoch.toNat
    | none => s
  let s := if pairSource s then s else
    wrF ((List.range 64).foldl (fun s i => wr s (R_PR_BITMAP i) 0) s) R_PR_DIRTY PR_DIRTY_COUNT 0
  let s := wrB (wrB s R_PR_EPOCH PR_EPOCH_SOLO_SINCE_JOIN false) R_PR_EPOCH PR_EPOCH_UNCLEAN false
  let s := wrB s R_PR_STAT PR_STAT_DIVERGED false
  pairEvent (setPairState { s with pair := { s.pair with syncLast := none, sourceCmd := 0 } } PS_MIRRORED (pairActive s) false) PR_STAT_EV_REJOINED

/-- Lines of the segments before `syncPos` have all been sent. -/
def segmentSent (s : State) (g : Nat) : Bool := (s.pair.syncSegs.take (s.pair.syncPos / 1024)).contains g

/-- A segment whose every line has been accepted is clean (R344). -/
def settleSegment (s : State) (g : Nat) : State :=
  if segmentSent s g && !s.pair.units.any (fun u => u.segment = some g) && segDirty s g then
    wrF (clearSegment s g) R_PR_DIRTY PR_DIRTY_SYNC_LEFT (rdF s R_PR_DIRTY PR_DIRTY_SYNC_LEFT - 1)
  else s

/-- One unit is accepted (R334, R344). -/
def acceptOne (s : State) (p utag : Nat) : State :=
  match s.pair.units.find? (fun u => u.port = p && u.utag = utag) with
  | none => s
  | some u =>
    let s := { s with pair := { s.pair with units := s.pair.units.filter (fun x => x.num != u.num) } }
    let s := settleTags (occur (wrF s R_PR_FWD PR_FWD_PENDING (rdF s R_PR_FWD PR_FWD_PENDING - 1)) EV_PAIR_ACC)
    let s := runAllDeferred s u.deferred
    let s := match u.segment with
      | some g => settleSegment s g
      | none => s
    if pairState s = PS_SYNCING && pairSource s && s.pair.syncLast = some u.num then enterMirrored s else s

/-- ACCEPT (R334): what waited for each unit goes on. -/
def execAcceptUnit (port : BitVec 3) (utags : List (BitVec 12)) (s : State) : Host.Outcome State Fault Refusal :=
  if isPairPort s port.toNat then
    .next (utags.foldl (fun s t => acceptOne s port.toNat t.toNat) (countSlots s port.toNat 1 1))
  else .next s

/-- HEAL_REQ (R346): behind the earlier units of its port (R333), the line is read, and returned when it decodes clean or corrected and not
poisoned; a line that cannot be read is refused at once. -/
def execHealReq (port : BitVec 3) (utag : BitVec 12) (addr : BitVec 32) (s : State) : Host.Outcome State Fault Refusal :=
  let p := port.toNat
  let a := lineBase addr.toNat
  if isPairPort s p then
    let s := countSlots s p 0 1
    if !healAnswered s then .next s
    else if arrayPresent s.variant a && !regionRefuses s (regionOf a) then .next (rxReceive s p utag.toNat (.heal a))
    else .next (sendOn s p 1 (healDataBytes utag.toNat a none))
  else .next s

/-- HEAL_DATA (R346): good data is stored in one slot if the line is still bad there. -/
def execHealData (port : BitVec 3) (utag : BitVec 12) (addr : BitVec 32) (good : Bool) (data : List Byte) (s : State) :
    Host.Outcome State Fault Refusal :=
  let a := lineBase addr.toNat
  if !isPairPort s port.toNat then .next s
  else
    let s := countSlots s port.toNat 1 (if good then 5 else 1)
    if s.pair.heals.contains (port.toNat, utag.toNat, a) then
    let s := settleTags { s with pair := { s.pair with heals := s.pair.heals.erase (port.toNat, utag.toNat, a) } }
    if good then
      let (uid, s) := takeUid s
      .next (pairLine s uid a 0xA7 .write (sliceBytes data 0 64))
    else .next (addSat s R_PR_COUNTS PR_COUNTS_HEAL_FAILS 1)
    else .next s

/-! ### HELLO and joining (R325, R330, R342, R343) -/

/-- The fields of this device's HELLO. -/
def helloFields (s : State) : HelloFields :=
  { role := BitVec.ofNat 2 (pairRole s), state := BitVec.ofNat 3 (pairState s), ports := rdB s R_PR_ROLE PR_ROLE_PORTS,
    active := pairActive s, full := rdB s R_PR_EPOCH PR_EPOCH_UNCLEAN, part := BitVec.ofNat 16 (rdF s R_ID_DEVICE ID_DEVICE_PART),
    mirror := BitVec.ofNat 8 (rdF s R_PR_MIRROR PR_MIRROR_REGIONS), soloSince := rdB s R_PR_EPOCH PR_EPOCH_SOLO_SINCE_JOIN,
    keepPrimary := rdB s R_PR_CFG PR_CFG_KEEP_PRIMARY, sourceCmd := BitVec.ofNat 2 s.pair.sourceCmd,
    epoch := BitVec.ofNat 32 (rdF s R_PR_EPOCH PR_EPOCH_EPOCH), bitmapCount := BitVec.ofNat 32 (rdF s R_PR_DIRTY PR_DIRTY_COUNT) }

/-- The slot of a HELLO (table "HELLO header"). -/
def helloBytes (f : HelloFields) : List Byte :=
  leBytes 1 0xA4 ++ leBytes 1 (f.role.toNat + f.state.toNat <<< 2 + (b01 f.ports) <<< 5 + (b01 f.active) <<< 6 + (b01 f.full) <<< 7) ++
    leBytes 2 f.part.toNat ++ leBytes 1 f.mirror.toNat ++
    leBytes 1 (b01 f.soloSince + (b01 f.keepPrimary) <<< 1 + f.sourceCmd.toNat <<< 2) ++ leBytes 2 0 ++ leBytes 4 f.epoch.toNat ++
    leBytes 4 f.bitmapCount.toNat

/-- The fields of a HELLO slot. -/
def helloOf (bs : List Byte) : HelloFields :=
  let b1 := byteOf bs 1
  let b5 := byteOf bs 5
  { role := BitVec.ofNat 2 b1, state := BitVec.ofNat 3 (b1 / 4), ports := bitOf b1 5, active := bitOf b1 6, full := bitOf b1 7,
    part := BitVec.ofNat 16 (leNat (sliceBytes bs 2 2)), mirror := BitVec.ofNat 8 (byteOf bs 4), soloSince := bitOf b5 0,
    keepPrimary := bitOf b5 1, sourceCmd := BitVec.ofNat 2 (b5 / 4), epoch := BitVec.ofNat 32 (leNat (sliceBytes bs 8 4)),
    bitmapCount := BitVec.ofNat 32 (leNat (sliceBytes bs 12 4)) }

/-- HELLO_SEND (R330): every 1 µs, and at once after a change of state, on every pair port that is UP; none after a fatal error
(R416). -/
def execHelloSend (s : State) : Host.Outcome State Fault Refusal :=
  if !fatalState s && pairRole s != 0 && pairState s != PS_OFF && (s.pair.helloDue || nsPassed s s.pair.helloAt 1000) then
    let bs := helloBytes (helloFields s)
    let s := ((pairPorts s).filter (portUp s)).foldl (fun s p => emit (sendOn s p 3 bs) (.pairUnit p bs)) s
    .next { s with pair := { s.pair with helloDue := false, helloAt := s.time } }
  else .next s

/-- The check of R325 against a partner's HELLO (table "Join codes"). -/
def joinCheck (s : State) (f : HelloFields) : Nat :=
  if pairRole s = 0 || f.role = 0 || f.role.toNat = pairRole s then 1
  else if f.mirror.toNat != rdF s R_PR_MIRROR PR_MIRROR_REGIONS then 2
  else if f.part.toNat != rdF s R_ID_DEVICE ID_DEVICE_PART then 3
  else if f.ports != rdB s R_PR_ROLE PR_ROLE_PORTS then 4
  else 0

/-- Whether this side is the source (table "Source at join"); `none` while the keepers have not decided. -/
def sourceHere (s : State) (f : HelloFields) : Option Bool :=
  let prim := pairRole s = 1
  let mine := rdB s R_PR_EPOCH PR_EPOCH_SOLO_SINCE_JOIN
  if mine && f.soloSince then
    if (if prim then rdB s R_PR_CFG PR_CFG_KEEP_PRIMARY else f.keepPrimary) then some prim
    else if s.pair.sourceCmd = 1 && f.sourceCmd = 2 then some true
    else if s.pair.sourceCmd = 2 && f.sourceCmd = 1 then some false
    else none
  else if mine then some true
  else if f.soloSince then some false
  else some prim

/-- `n` segments out of a list, each once: those that the partner's bitmap names (log entry 41). -/
def pickSegs (draw : Nat) : Nat → List Nat → List Nat
  | 0, _ => []
  | n + 1, rest =>
    match rest[Config.partnerPick draw n % rest.length]? with
    | some g => g :: pickSegs draw n (rest.erase g)
    | none => []

/-- The copy set (R344): every segment of the mirrored regions when either side is unclean, otherwise the union of both bitmaps. The
partner's has BITMAP_COUNT segments (table "HELLO header"); which, no unit says (log entry 41). -/
def copySet (s : State) (f : HelloFields) : List Nat :=
  let all := mirroredSegments s
  let theirs := pickSegs s.free (min f.bitmapCount.toNat all.length) all
  if f.full || rdB s R_PR_EPOCH PR_EPOCH_UNCLEAN then all else all.filter (fun g => segDirty s g || theirs.contains g)

/-- The reads of an earlier copy that still wait at the stores are forgotten. -/
def dropCopyReads (s : State) : State :=
  { s with semq := s.semq.filter (fun o => o.kind != .semCopy), semStage := s.semStage.filter (fun o => o.kind != .semCopy),
           mbxq := s.mbxq.filter (fun o => o.kind != .mbxCopy), mbxStage := s.mbxStage.filter (fun o => o.kind != .mbxCopy) }

/-- SYNCING begins (R337, R343, R344). HELLO keeps SOURCE_CMD until the pair is MIRRORED, so that the partner applies the same table. -/
def beginSync (s : State) (f : HelloFields) (source : Bool) : State :=
  let segs := copySet s f
  let s := dropCopyReads (wrF s R_PR_STAT PR_STAT_JOIN_CODE 0)
  let s := { s with free := s.free + 1,
                    pair := { s.pair with joining := false, syncSegs := if source then segs else [], syncPos := 0,
                                          syncLast := none, syncFault := none } }
  let s := if source then wrF (segs.foldl markSegment s) R_PR_DIRTY PR_DIRTY_SYNC_LEFT segs.length else s
  setPairState s PS_SYNCING source source

/-- The join checks on a HELLO (R342, R343): a join is under way when this device or its partner has begun one. -/
def joinStep (s : State) (f : HelloFields) : State :=
  let st := pairState s
  let ready := st = PS_SEEKING || st = PS_SOLO || st = PS_ORPHAN
  if ready && (s.pair.joining || f.state = 1 || f.sourceCmd != 0) then
    let code := joinCheck s f
    if code != 0 then wrF { s with pair := { s.pair with joining := false } } R_PR_STAT PR_STAT_JOIN_CODE code
    else
      let both := rdB s R_PR_EPOCH PR_EPOCH_SOLO_SINCE_JOIN && f.soloSince
      let s := if both && !rdB s R_PR_STAT PR_STAT_DIVERGED then
          pairEvent (wrB s R_PR_STAT PR_STAT_DIVERGED true) PR_STAT_EV_DIVERGED else s
      match sourceHere s f with
      | some src => beginSync s f src
      | none => wrF s R_PR_STAT PR_STAT_JOIN_CODE 5
  else s

/-- HELLO (R325, R338, R342–R344): the port carries units; join checks; a target follows its source into MIRRORED. -/
def execHelloUnit (port : BitVec 3) (f : HelloFields) (s : State) : Host.Outcome State Fault Refusal :=
  let p := port.toNat
  let on := pairState s != PS_OFF
  let s := if isPairPort s p then countSlots s p 3 1 else s
  if isPairPort s p && on then
    let s := { s with pair := { s.pair with partner := some f, lastHello := sset 0 s.pair.lastHello p s.time } }
    let s := if pairPortUp s p then s else
      let s := wrF s R_PR_STAT PR_STAT_PORTS_UP (rdF s R_PR_STAT PR_STAT_PORTS_UP ||| 2 ^ (p - 6))
      if s.pair.portLost.contains p then
        pairEvent { s with pair := { s.pair with portLost := s.pair.portLost.filter (fun x => x != p) } } PR_STAT_EV_PORT
      else s
    if pairState s = PS_SYNCING && !pairSource s && f.state = 3 then .next (enterMirrored s) else .next (joinStep s f)
  else .next s

/-! ### Resynchronising (R344, R345) -/

/-- The engine that runs the copy, when one is online. -/
def syncEngine (s : State) : Option Nat :=
  if rdB s R_PR_CFG PR_CFG_ENG_SEL then
    if (onlineEngines s).contains (rdF s R_PR_CFG PR_CFG_ENGINE) then some (rdF s R_PR_CFG PR_CFG_ENGINE) else none
  else (onlineEngines s).getLast?

/-- Copy vat entry `n`; the unit of the last is noted. -/
def syncVat (s : State) (n : Nat) : State :=
  let uid := s.nextUid
  let s := syncNext (forwardVat s n [])
  if n = 1023 then { s with pair := { s.pair with syncLast := some uid } } else s

/-- Whether the copy may issue its next access (R142, R344, R358): its engine may, and the device is not in HOLD. -/
def syncMayIssue (s : State) (e : Nat) : Bool := engMayIssue s e && !inHold s

/-- The next line of the copy is issued on engine `e`, or the issued one takes the slot that its identifier wins. -/
def syncLineStep (s : State) (e : Nat) : State :=
  let addr := syncAddr s
  let b := bankIndex s.variant addr
  match waitingCopy s b (.engine e 0) 0xE4 with
  | some r => copySlot s b r
  | none =>
    if syncMayIssue s e && !regionRefuses s (regionOf addr) && !bankFull s (engRead e 0 addr 64) then
      copyAccess (useIssue s e) b (.engine e 0) 0xE4 addr
    else s

/-- A read of the copy at a store: semaphore or mailbox `n`, the item at the copy's place. -/
def syncStoreOp (s : State) (e : Nat) (kind : StoreKind) (n : Nat) : StoreOp :=
  { uid := s.pair.syncPos, who := .engine e 0, writer := .engine e 0, priv := true, kind := kind, effect := false, n := n, off := 0, len := 64,
    mask := BitVec.allOnes 64, data := [], value := 0, code := 1, tag := 0, entered := 0 }

/-- The next semaphore of the copy is issued, or the issued one takes a store cycle. -/
def syncSemStep (s : State) (e n : Nat) : State :=
  if (s.semq ++ s.semStage).any (fun o => o.kind = .semCopy) then semUnitTurn s
  else if syncMayIssue s e then semEnter (useIssue s e) (syncStoreOp s e .semCopy n)
  else s

/-- The next mailbox of the copy is issued, or the issued one takes a store cycle. -/
def syncMbxStep (s : State) (e n : Nat) : State :=
  if (s.mbxq ++ s.mbxStage).any (fun o => o.kind = .mbxCopy) then mbxUnitTurn s
  else if syncMayIssue s e then mbxEnter (useIssue s e) (syncStoreOp s e .mbxCopy n)
  else s

/-- The next vat entry of the copy; its read is an access of the engine like that of a line (DESIGN CHOICE, log entry 79). -/
def syncVatStep (s : State) (e n : Nat) : State :=
  if syncMayIssue s e && !pairBlocked s (storePort s) then syncVat (useIssue s e) n else s

/-- The next step of the copy on engine `e` (R344): segments, semaphores, mailboxes, vat entries. -/
def syncStep (s : State) (e : Nat) : State :=
  let lines := 1024 * s.pair.syncSegs.length
  let i := s.pair.syncPos
  if i < lines then syncLineStep s e
  else if i < lines + 65536 then syncSemStep s e (i - lines)
  else if i < lines + 65536 + numMailboxes s.variant then syncMbxStep s e (i - lines - 65536)
  else if i < lines + 65536 + numMailboxes s.variant + 1024 then syncVatStep s e (i - lines - 65536 - numMailboxes s.variant)
  else s

/-- SYNC_COPY (R344): the source's copy goes on by an access issued or served, at most one issued in a core cycle. -/
def execSyncCopy (s : State) : Host.Outcome State Fault Refusal :=
  if coreOn s && pairState s = PS_SYNCING && pairSource s && s.pair.syncFault.isNone then
    match syncEngine s with
    | none => .next s
    | some e => .next (syncStep s e)
  else .next s

/-! ### Register writes (R340, R342, R345, R347) -/

/-- A write of PR_ROLE. -/
def wrPrRole (s : State) (v : Word64) : Written :=
  if pairState s != PS_OFF || getF v PR_ROLE_ROLE = 3 then refusedWith s .range else accepted (plainWrite s R_PR_ROLE v)

/-- A write of PR_MIRROR; the bits of absent regions stay 0. -/
def wrPrMirror (s : State) (v : Word64) : Written :=
  if pairState s != PS_OFF then refusedWith s .range
  else accepted (plainWrite s R_PR_MIRROR (v &&& w64 (2 ^ numPorts s.variant - 1)))

/-- A write of PR_CFG. -/
def wrPrCfg (s : State) (v : Word64) : Written :=
  if getF v PR_CFG_LOSS_US = 0 || getF v PR_CFG_PROMOTE_MS = 0 then refusedWith s .range else accepted (plainWrite s R_PR_CFG v)

/-- A join begins (R342). -/
def beginJoin (s : State) (source : Option Bool) : State :=
  if pairRole s = 0 then wrF s R_PR_STAT PR_STAT_JOIN_CODE 1
  else
    let s := if pairState s = PS_OFF then setPairState s PS_SEEKING false false else s
    { s with pair := { s.pair with joining := true, helloDue := true,
                                   sourceCmd := match source with | some true => 1 | some false => 2 | none => 0 } }

/-- LEAVE (R345): to OFF from any state; what waited for acceptance goes on without a partner. -/
def leavePair (s : State) : State :=
  let ds := s.pair.units.flatMap (fun u => u.deferred)
  let s := setPairState (dropUnits s) PS_OFF false false
  let s := wrB (wrF s R_PR_STAT PR_STAT_PORTS_UP 0) R_PR_EPOCH PR_EPOCH_UNCLEAN true
  runAllDeferred { s with pair := { s.pair with partner := none, joining := false, sourceCmd := 0 } } ds

/-- A write of PR_CMD. -/
def wrPrCmd (s : State) (v : Word64) : State :=
  let s := plainWrite s R_PR_CMD v
  let s := if acts v PR_CMD_JOIN then beginJoin s (some (acts v PR_CMD_SOURCE)) else s
  let s := if acts v PR_CMD_PROMOTE then promote s else s
  if acts v PR_CMD_LEAVE then leavePair s else s

/-- Step S9 has been skipped (R342): a PRIMARY enters SOLO with every mirrored segment dirty, a SECONDARY enters ORPHAN. -/
def skipJoin (s : State) : State :=
  let s := { s with pair := { s.pair with joining := false } }
  if pairRole s = 1 then (mirroredSegments s).foldl markSegment (enterSolo s) else enterOrphan s

end Sys2Proof.Machine
end

