-- ==== Sys2Proof/Machine/Power.lean ====
section
/-! DEFINITION. Power (R348–R353, R358, R359, R369, R370): region targets, wakes and entries, the device power state, and
brownout HOLD. -/

namespace Sys2Proof.Machine

/-! ### Region targets (R351) -/

/-- Whether a range of array addresses lies partly in region `h`. -/
def rangeInRegion (h base len : Nat) : Bool := len != 0 && rangesMeet base len (h * 2 ^ 25) (2 ^ 25)

/-- Whether an enabled queue ring of the device lies partly in region `h`. -/
def ringInRegion (s : State) (h : Nat) : Bool :=
  (List.range (numEngines s.variant)).any (fun e => (List.range 4).any (fun q =>
    rdB s (R_Q_CFG e q) Q_CFG_ENABLE && rangeInRegion h (ringBase s e q) (64 * ringSize s e q)))

/-- Whether an enabled match context lies partly in region `h`. -/
def matchInRegion (s : State) (h : Nat) : Bool :=
  bigVariant s.variant && (List.range 256).any (fun n => rdB s (R_MC_CTL n) MC_CTL_ENABLE &&
    (let c := ctxOf s n
     rangeInRegion h c.header (64 + 2 ^ (c.k + 4)) || rangeInRegion h c.pool (64 * c.count)))

/-- Whether a change of a region's target to OFF is refused (R351). -/
def offRefused (s : State) (h : Nat) : Bool :=
  (bitOf (rdF s R_PR_MIRROR PR_MIRROR_REGIONS) h && pairState s != PS_OFF) ||
  (List.range 1024).any (fun n => vatValid s n && rangeInRegion h (vatBase s n) (vatLen s n)) ||
  ringInRegion s h || matchInRegion s h ||
  (rdB s R_CEL_CTL CEL_CTL_ENABLE && rangeInRegion h (cellarBase s.variant) 0x100000)

/-- The regions of a variant. -/
def presentRegions (v : Variant) : List Nat := (List.range 8).filter (regionPresent v)

/-- A write of PWR_REGION (R351, R370): refused as a whole when a field is 3 or a change to OFF is refused. -/
def wrPwrRegion (s : State) (v : Word64) : Written :=
  let hs := presentRegions s.variant
  let fld (h : Nat) : Nat := getF v (PWR_REGION_TARGET_H h)
  if hs.any (fun h => fld h = 3 || (fld h = 2 && regionTarget s h != 2 && offRefused s h)) then refusedWith s .range
  else
    let s' := plainWrite s R_PWR_REGION v
    accepted (hs.foldl (fun x h => if fld h = regionTarget s h then x else applyTarget x h) s')

/-! ### Wakes and entries (R349, R350) -/

/-- The idle time of a region begins anew. -/
def idleFromNow (s : State) (h : Nat) : State :=
  let until_ := s.time + rdF s R_PWR_CTL PWR_CTL_RETAIN_IDLE_US * 1600
  { s with power := { s.power with regionAt := sset 0 s.power.regionAt h until_ } }

/-- The accesses that a wake has held at the banks of a region, when they would have been presented (R53, R349, R411). -/
def sampleWakeHeld (s : State) (h : Nat) : State :=
  (List.range 8).foldl (fun s k => (((bankOf s (8 * h + k)).queue).filter (fun r => r.entered + 4 < s.time)).foldl
    (fun s r => sampleHeld s r.who r.uid) s) s

/-- RETAIN_WAKE_DONE (R349): what was held is served; a target OFF set during the wake takes effect. -/
def execRetainWakeDone (region : BitVec 3) (s : State) : Host.Outcome State Fault Refusal :=
  let h := region.toNat
  if coreOn s && regionState s h = RS_WAKING && !wakingFromOff s h then
    let s := idleFromNow (setRegionState (sampleWakeHeld s h) h RS_ACTIVE) h
    .next (if effectiveTarget s h = 2 then applyTarget s h else s)
  else .next s

/-- RETAIN_IDLE_TIMEOUT (R349): RETAIN_IDLE_US without an access; the region begins its return to RETAIN. A test or racking job
keeps its region ACTIVE (R246). -/
def execRetainIdleTimeout (region : BitVec 3) (s : State) : Host.Outcome State Fault Refusal :=
  let h := region.toNat
  if coreOn s && regionState s h = RS_ACTIVE && effectiveTarget s h = 1 && decide (sget 0 s.power.regionAt h ≤ s.time) &&
      !regionWaiting s h && !regionHeldByTest s h then .next (setRegionState s h RS_ENTERING)
  else .next s

/-- RETAIN_ENTRY_DONE (R349): the region rests, and wakes again when an access has come meanwhile. -/
def execRetainEntryDone (region : BitVec 3) (s : State) : Host.Outcome State Fault Refusal :=
  let h := region.toNat
  if coreOn s && regionState s h = RS_ENTERING && !enteringOff s h then
    let s := setRegionState s h RS_RETAIN
    .next (if effectiveTarget s h = 2 then applyTarget s h
      else if regionWaiting s h || effectiveTarget s h = 0 then wakeRegion s h else s)
  else .next s

/-- Core cycles of the clear of a bank: 65,544 lines, one each (R69). -/
def clearCycles : Nat := 65544

/-- OFF_WAKE_DONE (R69, R350, R351, R341): every line of the region's units is clear; the region follows its target. -/
def execOffWakeDone (region : BitVec 3) (s : State) : Host.Outcome State Fault Refusal :=
  let h := region.toNat
  match s.power.offWake.find? (fun w => w.1 = h) with
  | none => .next s
  | some (_, t) =>
    if coreOn s && t + clearCycles ≤ s.time then
      let s := (regionUnits s h).foldl clearUnit s
      let s := { s with power := { s.power with offWake := s.power.offWake.filter (fun w => w.1 != h) } }
      let s := if bitOf (rdF s R_PR_MIRROR PR_MIRROR_REGIONS) h then wrB s R_PR_EPOCH PR_EPOCH_UNCLEAN true else s
      .next (followOrDefer (idleFromNow s h) h)
    else .next s

/-- What PWR_REGSTAT shows: CLEARING once a wake from OFF has ramped its supply, 8 µs after it began (R350, R369). -/
def regstatWord (s : State) : Word64 :=
  s.power.offWake.foldl (fun w x => if x.2 + 12800 ≤ s.time then setF w (PWR_REGSTAT_STATE_H x.1) 5 else w) (rd s R_PWR_REGSTAT)

/-! ### Device power states (R352, R353) -/

/-- Whether a queue of the device is RUNNING or WAITING. -/
def anyQueueBusy (s : State) : Bool :=
  (List.range (numEngines s.variant)).any (fun e => (List.range 4).any (fun q => qState s e q = QS_RUNNING || qState s e q = QS_WAITING))

/-- Whether a write that sets SLEEP is refused (R353). -/
def sleepRefused (s : State) : Bool :=
  anyQueueBusy s || rackRuns s || s.test.fgUnit.isSome || pairState s = PS_SYNCING

/-- A port that is UP and has no pair role asks for electrical idle at once (R352). -/
def askIdle (s : State) (p : Nat) : State :=
  let h := phyOf s p
  if portUp s p && !isPairPort s p && !inEi s p && idleReady s p && !h.eiAsked then
    askEi s p
  else s

/-- Entry to SLEEP: the background test gives up its groups, every region goes to RETAIN, ports ask for electrical idle. -/
def enterSleep (s : State) : State :=
  let s := yieldBackground s
  let s := (presentRegions s.variant).foldl applyTarget s
  (List.range (numPorts s.variant)).foldl askIdle s

/-- Leaving SLEEP: each region follows its target again, and the scrubber resumes from INT_SCRUB_POS. -/
def leaveSleep (s : State) : State :=
  let s := { s with integ := { s.integ with nextVisit := s.time } }
  (presentRegions s.variant).foldl (fun s h => if regionTarget s h = 1 then s else applyTarget s h) s

/-- A write of PWR_CTL (R352, R353, R370). -/
def wrPwrCtl (s : State) (v : Word64) : Written :=
  let st := getF v PWR_CTL_DEV_STATE
  if st = 3 || getF v PWR_CTL_RETAIN_IDLE_US = 0 || (st = 2 && sleepRefused s) then refusedWith s .range
  else
    let was := devSleep s
    let s := wrF (plainWrite s R_PWR_CTL v) R_PWR_DEVSTAT PWR_DEVSTAT_STATE st
    accepted (if st = 2 && !was then enterSleep s else if st != 2 && was then leaveSleep s else s)

/-- A write of PWR_START (R369, R370): limits of the next start. -/
def wrPwrStart (s : State) (v : Word64) : Written :=
  if getF v PWR_START_S8_MS = 0 || getF v PWR_START_S9_MS = 0 then refusedWith s .range else accepted (plainWrite s R_PWR_START v)

/-! ### Brownout (R358, R359) -/

/-- Core cycles in 20 µs (R22). -/
def holdQuiet : Nat := 32000

/-- HOLD_ENTRY (R358): VDD has been below 0.70 V for 50 ns; `mv` is the lowest sample so far. -/
def execHoldEntry (mv : BitVec 16) (s : State) : Host.Outcome State Fault Refusal :=
  if s.power.clock = .none || inHold s then .next s
  else
    let s := addSat (wrB s R_PWR_DEVSTAT PWR_DEVSTAT_HOLD true) R_PWR_BROWN PWR_BROWN_HOLDS 1
    let s := raiseSource (wrF s R_PWR_BROWN PWR_BROWN_MIN_MV mv.toNat) 4098
    .next (yieldBackground { s with power := { s.power with holdSince := s.time, vdd := .low } })

end Sys2Proof.Machine
end

