-- ==== Sys2Proof/Machine/Reset.lean ====
section
/-! DEFINITION. Resets and the loss of power or REFCLK (R354–R357, R427, R428, R430, R431, R435): what each keeps, what it discards,
and the reset of one port. -/

namespace Sys2Proof.Machine

/-! KIND codes of the table "Resets". -/

/-- power-on -/
def KIND_POWER_ON : Nat := 1
/-- brownout reset -/
def KIND_BROWNOUT : Nat := 2
/-- pin -/
def KIND_PIN : Nat := 3
/-- warm -/
def KIND_WARM : Nat := 4

/-! ### Survival of state (R357) -/

/-- Registers of the two logs, with HEAD, COUNT and LOST. -/
def isLogReg (key : Nat) : Bool :=
  key = R_INT_LEES_CTL || key = R_INT_UE_CTL || (R_INT_LEES 0 0 ≤ key && key < 0x111800)

/-- Whether a field keeps its value through a reset of a kind (table "Survival of state"). MBX_CTL is cleared with its store, at
step S6. -/
def fieldSurvives (kind key : Nat) (f : FieldRow) : Bool :=
  f.nv ||
  (3 ≤ kind && (isLogReg key || (R_MBX_CTL 0 ≤ key && key < 0x158000) ||
    (key = R_PWR_DEVSTAT && f.fld = PWR_DEVSTAT_REFCLK_LOST))) ||
  (kind = 4 && (key / 0x10000 = 0x16 || (key = R_PWR_DEVSTAT && f.fld = PWR_DEVSTAT_HOLD) ||
    (key = R_SMP_STAT && (f.fld = SMP_STAT_NEXT || f.fld = SMP_STAT_COUNT)) ||
    (key = R_TR_STAT && (f.fld = TR_STAT_NEXT || f.fld = TR_STAT_COUNT))))

/-- A register after a reset of its fields but those that survive. -/
def survivingWord (v : Variant) (key : Nat) (old : Word64) (keep : FieldRow → Bool) : Word64 :=
  match findRow key with
  | none => regReset v key
  | some r => r.fields.foldl (fun w f => if keep f then setF w f.fld (getF old f.fld) else w) (regReset v key)

/-- Registers after a reset: each field survives or returns to its reset value. -/
def survivingRegs (v : Variant) (keep : Nat → FieldRow → Bool) (regs : List (Nat × Word64)) : List (Nat × Word64) :=
  (regs.map (fun e => (e.1, survivingWord v e.1 e.2 (keep e.1)))).filter (fun e => e.2 != regReset v e.1)

/-! ### What a reset discards -/

/-- The lines of a group that a test has borrowed are restored from its tasting buffer (R244): the array is kept. -/
def restoreBorrowed (s : State) (b : Nat) : State :=
  match (bankOf s b).borrow with
  | none => s
  | some bo => (List.range (bo.buffer.length / 2)).foldl (fun s i => restoreLine s bo.unit (groupBase bo.group + i) bo.buffer) s

/-- What the array holds after a reset that keeps it: borrowed groups restored; a region that was off is clear (R350); a destructive test that
ran leaves its unit undefined (R252). -/
def arrayKept (s : State) : State :=
  let s := (List.range 64).foldl restoreBorrowed s
  let s := (presentRegions s.variant).foldl (fun s h =>
    if regionState s h = RS_OFF || wakingFromOff s h then
      let s := (regionUnits s h).foldl clearUnit s
      if bitOf (rdF s R_PR_MIRROR PR_MIRROR_REGIONS) h then wrB s R_PR_EPOCH PR_EPOCH_UNCLEAN true else s
    else s) s
  match s.test.fgUnit with
  | some u => if s.test.fgMode = 2 then
      { s with test := { s.test with undef := (u, s.time) :: s.test.undef.filter (fun x => x.1 != u) } } else s
  | none => s

/-- Every port's session ends, without sending what is pending (R355). -/
def endSessions (s : State) : State := (List.range (numPorts s.variant)).foldl (fun s p => sessionEnd s p) s

/-- Every INT_N pin is released (R433). -/
def releasePins (s : State) : State :=
  (s.pins.filter (fun k => k.2)).foldl (fun s k => emit s (.pin k.1 false)) { s with pins := [] }

/-- The core-side fields of the status snapshot (table "Status snapshot"): bits [10:3] of FLAGS, START and TIME. -/
def snapCore (s : State) : List Byte :=
  let flags := b01 (!s.power.scHalted) <<< 3 + b01 (rdB s R_PWR_DEVSTAT PWR_DEVSTAT_READY) <<< 4 + b01 (inHold s) <<< 5 +
    b01 (fatalState s) <<< 6 + b01 s.mgmt.chain.keeper <<< 7 + b01 (!s.mgmt.reply.isEmpty) <<< 8 +
    b01 (s.mgmt.lines.any (fun l => l.1 = .chain)) <<< 9 + b01 s.power.fatalDone <<< 10
  leBytes 2 flags ++ leBytes 4 (rd s R_PWR_STEPREC).toNat ++ leBytes 8 s.time

/-- The core is about to lose its clock: its last copy stays in the chain domain (R379). -/
def keepSnap (s : State) : State := { s with mgmt := { s.mgmt with coreCopy := snapCore s } }

/-- Management state after a reset: sessions at watch level, the phrase kept (R395, R397); the chain logic runs on (R21). -/
def mgmtAfter (kind : Nat) (m : Mgmt) : Mgmt :=
  { mgmtReset with phrase := m.phrase, nextTick := if 3 ≤ kind then m.nextTick else 0, peekAddr := m.peekAddr, peekState := m.peekState,
                   peekRsp := m.peekRsp, peekData := m.peekData, coreCopy := m.coreCopy }

/-- Integrity state after a reset: the logs survive pin and warm reset (R357). -/
def integAfter (kind : Nat) (now : Nat) (i : Integ) : Integ :=
  if 3 ≤ kind then { integReset with intake := i.intake, leesSeq := i.leesSeq, ueSeq := i.ueSeq, passStart := now, nextVisit := now }
  else { integReset with passStart := now, nextVisit := now }

/-- Observation state after a reset: trace ring and sampler survive a warm reset (R357). -/
def obsAfter (kind : Nat) (o : Obs) : Obs :=
  if kind = 4 then
    { obsReset with smpS := o.smpS, smpSeq := o.smpSeq, smpRing := o.smpRing, trRing := o.trRing, trSeq := o.trSeq, trPend := o.trPend }
  else obsReset

/-! ### The start record (R367, R368) -/

/-- KIND of the current start. -/
def startKind (s : State) : Nat := rdF s R_PWR_START PWR_START_KIND

/-- Starts begun since manufacture, bytes 24–27 of the record. -/
def startsOf (s : State) : Nat := (rd s (R_PWR_SREC 3)).toNat % 2 ^ 32

/-- DECIDED: a bit for each step with a decision code other than 0. -/
def decidedBits (s : State) : Nat :=
  (List.range 12).foldl (fun n k => n + (if rdF s R_PWR_DECIDE (PWR_DECIDE_CODE_S k) = 0 then 0 else 2 ^ k)) 0

/-- A step number of PWR_START as a byte of the record: 0xF there is 0xFF. -/
def stepByte (n : Nat) : Nat := if n = 15 then 255 else n

/-- Bytes 0–27 of the record. -/
def recordBody (s : State) (starts : Nat) : List Byte :=
  [1, stepByte (rdF s R_PWR_START PWR_START_REACHED), stepByte (rdF s R_PWR_START PWR_START_FAILED), startKind s].map (BitVec.ofNat 8) ++
    leBytes 2 (decidedBits s) ++ leBytes 6 (rd s R_PWR_DECIDE).toNat ++
    (List.range 12).map (fun k => BitVec.ofNat 8 (rdF s R_PWR_ATTEMPT (PWR_ATTEMPT_ATT_S k))) ++ leBytes 4 starts

/-- Rewrite the record and its mirror TK6. -/
def writeRecord (s : State) (starts : Nat) : State :=
  let body := recordBody s starts
  let bs := body ++ leBytes 4 (crc32c 0 body)
  let s := (List.range 4).foldl (fun s k => wr s (R_PWR_SREC k) (w64 (leNat (sliceBytes bs (8 * k) 8)))) s
  wr s R_PWR_STEPREC (w64 (rdF s R_PWR_START PWR_START_REACHED + rdF s R_PWR_START PWR_START_FAILED <<< 4 + startKind s <<< 8 +
    decidedBits s <<< 12 + starts <<< 32))

/-- Power state after a reset: step S0 is due. -/
def powerAfter (s : State) : Power :=
  let p := s.power
  { powerReset s.variant with clock := p.clock, vdd := p.vdd, resetLow := p.resetLow, stepAt := s.time, holdSince := p.holdSince, vioOn := p.vioOn }

/-- A reset of the device of kind `kind` (R354, R355, R357): everything that does not survive is at its reset value, what has not
begun is discarded, and the start sequence is at step S0: REACHED of the start record shows no step (R367, R368). -/
def deviceReset (s : State) (kind : Nat) : State :=
  let lost := pairState s = PS_SYNCING || pairState s = PS_MIRRORED
  let s := releasePins (endSessions s)
  let s := if 3 ≤ kind then arrayKept s else s
  let s := if lost then wrB s R_PR_EPOCH PR_EPOCH_UNCLEAN true else s
  let s := { s with
    regs := survivingRegs s.variant (fieldSurvives kind) s.regs
    tk := if 3 ≤ kind then s.tk else s.tk.filter (fun e => tkBacked e.1)
    statCleared := [], banks := [], txns := [], heldOrd := [], semq := [], semServed := none, semClearAt := 0, semStage := [], mbxq := [],
    mbxStage := [], mbxServed := none, mbxClearAt := 0, commits := [], tallies := [], links := [], phys := [], lanes := [],
    queues := [], engines := [], pushes := [], intcEvents := [], intcWait := [], before := [], msgs := [],
    integ := integAfter kind s.time s.integ
    test := { testReset with weak := s.test.weak, undef := s.test.undef }
    pair := pairReset, power := powerAfter s, mgmt := mgmtAfter kind s.mgmt, obs := obsAfter kind s.obs }
  let s := recountFree s
  let s := wrF s R_PWR_START PWR_START_KIND kind
  writeRecord s (startsOf s)

/-- Every physical unit. -/
def allUnits : List Nat := List.range 68

/-! ### Resets (R354, R355, R427, R435) -/

/-- BROWNOUT_RESET (R359): as power-on, but device time goes on (R22), and KIND is 2. -/
def execBrownoutReset (s : State) : Host.Outcome State Fault Refusal :=
  if s.power.clock = .none then .next s
  else
    let s := { s with power := { s.power with vdd := .unknown } }
    .next (addSat (deviceReset s KIND_BROWNOUT) R_PWR_BROWN PWR_BROWN_RESETS 1)

/-- POWER_ON (R10, R22, R427): every rail is good and the core PLL has locked, after the device was OFF; array and stores are undefined until steps S3
and S6. -/
def execPowerOn (s : State) : Host.Outcome State Fault Refusal :=
  if s.power.clock = .none then
    let s := deviceReset { s with time := 0, power := { s.power with clock := .pll, vdd := .good, vioOn := true } } KIND_POWER_ON
    .next { s with test := { s.test with undef := allUnits.map (fun u => (u, 0)) },
                   mgmt := { mgmtReset with phrase := s.mgmt.phrase } }
  else .next s

/-- VIO has fallen, or stands at its good level: while it is good the chain logic works, whatever the other rails do (R21, R426); when it falls
the chain logic stops with it (R428). -/
def setVio (s : State) (good : Bool) : State :=
  { s with mgmt := if good then s.mgmt else { mgmtReset with phrase := s.mgmt.phrase }, power := { s.power with vioOn := good } }

/-- RAIL_FAIL (R428): the device is OFF, and array and store contents are lost. `vio` tells whether VIO is below its good level; a fall of
another rail while VIO is good leaves VIO present alone, also before the first POWER_ON (R426; DEDUCED, log entry 84). -/
def execRailFail (vio : Bool) (s : State) : Host.Outcome State Fault Refusal :=
  let tk := s.tk
  if s.power.clock = .none then .next (setVio s (!vio))
  else
    let s := deviceReset (if s.power.clock = .stopped then s else keepSnap s) KIND_POWER_ON
    .next (setVio { s with tk := tk, power := { s.power with clock := .none, vdd := .unknown, step := none } } (!vio))

/-- PIN_RESET (R355, R435): RESET_N has been low for 500 ns. It takes over a warm reset and ends a HOLD; step S0 waits for RESET_N.
Before the start sequence has begun, KIND stays (R427). -/
def execPinReset (s : State) : Host.Outcome State Fault Refusal :=
  if s.power.clock = .none || s.power.resetLow then .next { s with power := { s.power with resetLow := true } }
  else
    let k := rdF s R_PWR_START PWR_START_KIND
    let s := { s with power := { s.power with resetLow := true } }
    .next (if s.power.step = some 0 && rdF s R_PWR_ATTEMPT (PWR_ATTEMPT_ATT_S 0) = 0 && k < 3 then wrB s R_PWR_DEVSTAT PWR_DEVSTAT_HOLD false
      else deviceReset s KIND_PIN)

/-- RESET_N_RISE (R427, R435): step S0 may begin. -/
def execResetNRise (s : State) : Host.Outcome State Fault Refusal :=
  .next { s with power := { s.power with resetLow := false } }

/-- Whether a request has begun where it waits: an access of an engine or a unit of the device goes on through a warm reset (R355). -/
def staysInWarm (w : Who) : Bool :=
  match w with
  | .port _ _ => false
  | _ => true

/-- A warm reset is accepted (R355): requests of ports that have not begun are discarded, their responses being lost when the sessions end,
READY falls, and nothing is admitted; engine accesses issued already complete before the reset is done. -/
def beginWarm (s : State) : State :=
  let s := wrB s R_PWR_DEVSTAT PWR_DEVSTAT_READY false
  { s with txns := s.txns ++ s.heldOrd, heldOrd := [],
           banks := s.banks.map (fun b => (b.1,
             { b.2 with queue := b.2.queue.filter (fun r => staysInWarm r.who), staging := b.2.staging.filter (fun r => staysInWarm r.who) })),
           semq := s.semq.filter (fun o => staysInWarm o.who), semStage := s.semStage.filter (fun o => staysInWarm o.who),
           mbxq := s.mbxq.filter (fun o => staysInWarm o.who), mbxStage := s.mbxStage.filter (fun o => staysInWarm o.who),
           intcWait := s.intcWait.filter (fun x => staysInWarm x.2.who),
           power := { s.power with warmPending := true, step := some 0, stepAt := s.time } }

/-- Whether the units of the device have nothing left to do (R355). -/
def warmQuiet (s : State) : Bool :=
  (List.range (numEngines s.variant)).all (engineQuiet s) && s.commits.isEmpty && s.tallies.isEmpty && s.semq.isEmpty && s.semStage.isEmpty &&
  s.mbxq.isEmpty && s.mbxStage.isEmpty && s.banks.all (fun b => b.2.queue.isEmpty && b.2.staging.isEmpty)

/-- Whether everything that a warm reset waits for is complete: within 5 µs of its acceptance, 8,000 core cycles (R355; what waits for a
partner longer is not waited for, DESIGN CHOICE, log entry 73). -/
def warmDrained (s : State) : Bool := warmQuiet s || decide (s.power.stepAt + 8000 ≤ s.time)

/-- A warm reset that has waited for what it completes is done. -/
def warmStep (s : State) : State := if s.power.warmPending && warmDrained s then deviceReset s KIND_WARM else s

/-! ### The reset of a port (R356) -/

/-- Whether ports train: from step S8 on (R360). -/
def portsTrain (s : State) : Bool := match s.power.step with | some k => decide (8 ≤ k) | none => s.power.clock != .none

/-- Whether a register of block 0x02 + p or of port `p` in block 0x0A. -/
def regOfPort (p key : Nat) : Bool :=
  key / 0x10000 = 2 + p || (key / 0x10000 = 0x0A && key % 0x10000 < 0x8000 && key % 0x10000 / 0x1000 = p)

/-- A port reset (R356): its session ends, status and counters are cleared and configuration kept, and it goes through DISABLED to
DETECT when it is enabled. -/
def resetPort (s : State) (p : Nat) : State :=
  let s := setLink (leaveFor s p LS_DISABLED) p linkReset
  let s := { s with regs := survivingRegs s.variant (fun key f => !regOfPort p key || f.access = .rw) s.regs
                    phys := sdel s.phys p, lanes := s.lanes.filter (fun l => l.1 / 16 != p) }
  if portsTrain s && bitOf (rd s R_MG_PORTEN).toNat p then startTraining s p else s

/-- A write of PWR_RESET (R355, R356): WARM needs KEY 0x5741. -/
def wrPwrReset (s : State) (v : Word64) : Written :=
  if acts v PWR_RESET_WARM && getF v PWR_RESET_KEY != 0x5741 then refusedWith s .range
  else
    let s := ((List.range (numPorts s.variant)).filter (bitOf (getF v PWR_RESET_PORT))).foldl resetPort s
    accepted (if acts v PWR_RESET_WARM then beginWarm s else s)

/-! ### The reference clock (R430, R431) -/

/-- REFCLK_LOSS (R430): the core runs from its oscillator and every port loses its link. -/
def execRefclkLoss (s : State) : Host.Outcome State Fault Refusal :=
  if s.power.clock = .pll then
    let s := { s with power := { s.power with clock := .oscillator } }
    .next ((List.range (numPorts s.variant)).foldl (fun s p => if linkState s p = LS_DISABLED || linkState s p = LS_DOWN then s
      else portEvent (leaveFor s p LS_DOWN) p PT_STAT_EV_DOWN) s)
  else .next s

/-- The core stops once what was in the pipelines is complete (R430, R431). -/
def oscillatorStop (s : State) : State :=
  if s.power.clock = .oscillator && s.commits.isEmpty && s.tallies.isEmpty then
    wrB (keepSnap { s with power := { s.power with clock := .stopped } }) R_PWR_DEVSTAT PWR_DEVSTAT_REFCLK_LOST true
  else s

/-- REFCLK_RETURN (R430): a reset handled as a pin reset, with KIND 3. -/
def execRefclkReturn (s : State) : Host.Outcome State Fault Refusal :=
  if s.power.clock = .oscillator || s.power.clock = .stopped then
    let s := wrB s R_PWR_DEVSTAT PWR_DEVSTAT_REFCLK_LOST true
    .next (deviceReset { s with power := { s.power with clock := .pll } } KIND_PIN)
  else .next s

/-- SC_HALT (R361, R18): the watchdog of the service controller raises S4097. -/
def execScHalt (s : State) : Host.Outcome State Fault Refusal :=
  if s.power.clock = .none || s.power.scHalted then .next s
  else .next (raiseSource { s with power := { s.power with scHalted := true } } 4097)

end Sys2Proof.Machine
end

