-- ==== Sys2Proof/Machine/Start.lean ====
section
/-! DEFINITION. The start sequence (R360–R368): its steps, attempts and decisions, the start record, and the end of HOLD, for which the
next step waits (R358, R359). -/

namespace Sys2Proof.Machine

/-! ### Lines that the SC writes to the console (R362, R384, R390) -/

/-- An upper-case hexadecimal pair. -/
def hexPair (n : Nat) : List Byte := [hexChar (n / 16), hexChar n]

/-- A line as the console writes it: in machine mode with its checksum suffix. -/
def consoleLine (s : State) (text : List Byte) : State :=
  let sum := text.foldl (fun x b => x ^^^ b) 0
  emit s (.console (text ++ (if s.mgmt.console.machine then 0x2A :: hexPair sum.toNat else []) ++ [13, 10]))

/-- The bytes of an ASCII string. -/
def asciiBytes (t : String) : List Byte := t.toList.map (fun c => BitVec.ofNat 8 c.toNat)

/-- The rates of MG_CONSOLE.BAUD. -/
def baudRates : List Nat := [115200, 230400, 460800, 921600, 1500000, 3000000]

/-- Write a line that others follow: it ends when its characters, of 10 bits each, have been sent (R383). -/
def consoleWrite (s : State) (text : List Byte) : State :=
  let n := text.length + (if s.mgmt.console.machine then 5 else 2)
  let s := consoleLine s text
  { s with mgmt := { s.mgmt with conAt := s.time + n * 10 * 1600000000 / baudRates.getD (rdF s R_MG_CONSOLE MG_CONSOLE_BAUD) 115200 } }

/-- The prompt of human mode. -/
def promptBytes : List Byte := asciiBytes "jz> "

/-- The prompt, in human mode. -/
def ownPrompt (s : State) : State := if s.mgmt.console.machine then s else emit s (.console promptBytes)

/-- A line that the SC writes on its own: at once before a prompt, or after the reply that is being written (R384). -/
def ownLine (s : State) (text : List Byte) : State :=
  if s.mgmt.conReply.isEmpty then ownPrompt (consoleLine s text) else { s with mgmt := { s.mgmt with conOwn := s.mgmt.conOwn ++ [text] } }

/-- A decision's line: "start:", the step, the unit and the code (R362). -/
def startLine (s : State) (step unit code : Nat) : State :=
  if code = 0 || code = 1 then s else ownLine s (asciiBytes "start:" ++ Config.startText step unit code)

/-! ### Steps -/

/-- Whether a step is run for a reset (table "Start steps"). -/
def stepRuns (s : State) (k : Nat) : Bool :=
  let kind := startKind s
  match k with
  | 3 => kind ≤ 2
  | 4 => kind ≤ 3 && s.power.quickMarch
  | 6 => kind ≤ 3
  | _ => true

/-- The step after `k`. -/
def stepAfter (s : State) (k : Nat) : Nat :=
  match ((List.range 12).filter (fun j => k < j && stepRuns s j)).head? with
  | some j => j
  | none => 11

/-- Whether the device has pair mode and a role (R366). -/
def pairStarts (s : State) : Bool := bigVariant s.variant && pairRole s != 0

/-- Ports that step S8 trains: enabled in TK2 and not dropped at step S7. -/
def startPorts (s : State) : List Nat :=
  (List.range (numPorts s.variant)).filter (fun p => bitOf (rd s R_MG_PORTEN).toNat p && !bitOf s.power.dropped p)

/-- What begins with a step: step S8 trains its ports, step S9 begins a join. -/
def beginStep (s : State) (k : Nat) : State :=
  let s := { s with power := { s.power with stepAt := s.time } }
  if k = 8 then (startPorts s).foldl (fun s p => portEnable s p true) s
  else if k = 9 && pairStarts s then beginJoin s none
  else s

/-- The next step begins, or waits for the end of HOLD (table "Requests in HOLD"). -/
def goToStep (s : State) (k : Nat) : State :=
  let s := { s with power := { s.power with step := some k, stepAt := s.time, attempt := 0, code := 0, failing := [] } }
  if inHold s then s else beginStep s k

/-- A step is over with a decision code; step S11 ends the sequence. Its record is written (R362, R367). -/
def stepDone (s : State) (k code : Nat) : State :=
  let s := wrF s R_PWR_DECIDE (PWR_DECIDE_CODE_S k) code
  let s := wrF s R_PWR_START PWR_START_REACHED k
  let s := writeRecord s (startsOf s)
  if k = 11 then { s with power := { s.power with step := none } } else goToStep s (stepAfter s k)

/-- One more attempt of a step is counted (R362). -/
def countAttempt (s : State) (k : Nat) : State :=
  wrF { s with power := { s.power with attempt := s.power.attempt + 1 } } R_PWR_ATTEMPT (PWR_ATTEMPT_ATT_S k) (s.power.attempt + 1)

/-- An attempt of a step has failed (R362). -/
def noteFailed (s : State) (k : Nat) : State := wrF s R_PWR_START PWR_START_FAILED k

/-- The code of a step that passes: 1 after a failed attempt, or what an attempt has decided already. -/
def passCode (s : State) : Nat := max s.power.code (if 1 < s.power.attempt then 1 else 0)

/-- The steps without attempts to fail: a failed attempt `bad` is repeated until `limit`, then `act` is taken. -/
def attemptStep (s : State) (k limit : Nat) (bad : Bool) (act : State → State × Nat) : State :=
  if bad then
    let s := noteFailed s k
    if s.power.attempt < limit then { s with power := { s.power with stepAt := s.time } }
    else
      let r := act s
      stepDone r.1 k r.2
  else stepDone s k (passCode s)

/-! ### Step S0 (R368) -/

/-- The keep-store item behind a register has lost both copies: after a pin or warm reset it is taken from its triple-kept word
where one exists, otherwise it is at its reset value. The start record's word is TK6; MG_KS_DATA stands for the keeper phrase. -/
def loseItem (s : State) (key : Nat) : State :=
  let kept := 3 ≤ startKind s
  let s := startLine s 0 key 3
  if R_PWR_SREC 0 ≤ key && key ≤ R_PWR_SREC 3 then
    let starts := if kept then (rd s R_PWR_STEPREC).toNat / 2 ^ 32 else 0
    [0, 1, 2, 3].foldl (fun s k => wr s (R_PWR_SREC k) (if k = 3 then w64 starts else 0)) s
  else if key = R_MG_KS_DATA then { s with mgmt := { s.mgmt with phrase := newPhrase } }
  else
    match tkIndex key with
    | some _ => if kept then s else wr s key (regReset s.variant key)
    | none => wr s key (survivingWord s.variant key (rd s key) (fun f => !f.nv))

/-- STARTS of the record, one more. -/
def countStart (s : State) : State :=
  wr s (R_PWR_SREC 3) (w64 ((rd s (R_PWR_SREC 3)).toNat / 2 ^ 32 * 2 ^ 32 + (startsOf s + 1) % 2 ^ 32))

/-- The start is counted, and takes the settings of PWR_START for its later steps. -/
def startSettle (s : State) : State :=
  let s := countStart s
  { s with power := { s.power with s8Ms := rdF s R_PWR_START PWR_START_S8_MS, s9Ms := rdF s R_PWR_START PWR_START_S9_MS,
                                   quickMarch := rdB s R_PWR_START PWR_START_QUICK_MARCH } }

/-- The keep-store items of a report whose copies both fail. A copy that fails alone is rewritten from the other, and with it the model's one
value of the item stands (R368). -/
def lostItems (rep : StepReport) : List Nat :=
  ((rep.badCopies.filter (fun c => c.2 = 0)).map (fun c => c.1)).filter (fun k => rep.badCopies.contains (k, 1))

/-- Step S0: the settings of this start are taken from the keep store. -/
def stepS0 (s : State) (rep : StepReport) : State :=
  let s := if startKind s = 0 then wrF s R_PWR_START PWR_START_KIND KIND_POWER_ON else s
  let lost := lostItems rep
  if !rep.ok || !lost.isEmpty then attemptStep s 0 2 true (fun s =>
    let s := if lost.isEmpty then startLine s 0 0 3 else wrB s R_PWR_START PWR_START_KEEP_LOST true
    (startSettle (lost.foldl loseItem s), 3))
  else attemptStep (startSettle s) 0 2 false (fun s => (s, 3))

/-! ### Step S1 (R236, R360) -/

/-- TKn is voted: copies that disagree are all rewritten with the majority, and counted. -/
def voteWord (s : State) (n : Nat) : State :=
  let d := tkReset s.variant n
  let t := sget (d, d, d) s.tk n
  if t.1 = t.2.1 && t.1 = t.2.2 then s
  else
    let m := majority t
    let s := { s with tk := sset (d, d, d) s.tk n (m, m, m) }
    let s := countSat s 0x11 R_INT_TK_STAT INT_TK_STAT_DISAGREE 1
    setIntStat (wrF s R_INT_TK_STAT INT_TK_STAT_LAST n) INT_STAT_TK_DISAGREE none

/-- TKn is loaded from the keep store into its three copies. -/
def loadWord (s : State) (n : Nat) : State :=
  let d := tkReset s.variant n
  let m := majority (sget (d, d, d) s.tk n)
  { s with tk := sset (d, d, d) s.tk n (m, m, m) }

/-- Step S1: after power-on the words with keep-store backing are loaded, and the rest are at their reset values; otherwise every word is voted and
kept. -/
def stepS1 (s : State) : State :=
  let words := List.range 96
  let s := if startKind s ≤ 2 then (words.filter tkBacked).foldl loadWord { s with tk := s.tk.filter (fun e => tkBacked e.1) }
    else words.foldl voteWord s
  stepDone (wr s R_ID_FIRMWARE Config.firmware) 1 0

/-! ### Steps S2 and S4: units that fail (R237, R363, R364) -/

/-- Units of a report that are present. -/
def badUnits (s : State) (rep : StepReport) : List Nat :=
  allUnits.filter (fun u => unitPresent s.variant u &&
    (if u < 64 then rep.badBanks.getLsbD u else if u < 66 then rep.badSpares.getLsbD (u - 64) else rep.badStores.getLsbD (u - 66)))

/-- A unit has failed the checker self-test (R237). -/
def noteSuspect (s : State) (u : Nat) : State :=
  if u < 64 then wrB (wr s R_INT_SELFTEST (rd s R_INT_SELFTEST ||| w64 (2 ^ u))) (R_INT_UNITERR u) INT_UNITERR_SUSPECT true
  else
    let s := wr s R_INT_SELFTEST_X (rd s R_INT_SELFTEST_X ||| w64 (2 ^ (u - 64)))
    if u < 66 then wrB s (R_INT_UNITERR u) INT_UNITERR_SUSPECT true else s

/-- The lowest free spare that is not among the failing units. -/
def goodSpare (s : State) (failing : List Nat) : Option Nat := (freeSpares s).find? (fun i => !failing.contains (64 + i))

/-- Resolve a unit that has failed every attempt of step S2 (R363); the worst code so far is kept. -/
def resolveS2 (failing : List Nat) (r : State × Nat) (u : Nat) : State × Nat :=
  let s := r.1
  let with_ (s : State) (code : Nat) : State × Nat := (startLine s 2 u code, max r.2 code)
  if 66 ≤ u then with_ s 5
  else if 64 ≤ u then with_ (setSpareState s (u - 64) 3) 3
  else
    match dataBank s u, goodSpare s failing with
    | some b, some i =>
      if bankRacking s b then with_ s 5
      else with_ (if startKind s ≤ 2 then setSpare s i b 2 65536 else setSpare s i b 1 0) 4
    | _, _ => with_ s 5

/-- Step S2 (R363). -/
def stepS2 (s : State) (rep : StepReport) : State :=
  let bad := badUnits s rep
  let s := bad.foldl noteSuspect s
  let failing := if s.power.attempt = 1 then bad else s.power.failing.filter bad.contains
  let s := { s with power := { s.power with failing := failing } }
  attemptStep s 2 3 (!bad.isEmpty) (fun s =>
    let spares := failing.filter (fun u => 64 ≤ u && u < 66)
    let rest := failing.filter (fun u => u < 64 || 66 ≤ u)
    (spares ++ rest).foldl (resolveS2 failing) (s, 1))

/-- Step S3 (R69, R341): the array is clear. -/
def stepS3 (s : State) : State :=
  let s := (List.range 66).foldl clearUnit s
  stepDone (if rdF s R_PR_MIRROR PR_MIRROR_REGIONS != 0 then wrB s R_PR_EPOCH PR_EPOCH_UNCLEAN true else s) 3 0

/-- Units that step S4 marches: in-service banks, FREE spares and both stores; the stores only after a pin reset (R364). -/
def marchedUnits (s : State) : List Nat :=
  if startKind s = 3 then [66, 67]
  else allUnits.filter (fun u => unitPresent s.variant u &&
    (66 ≤ u || (dataBank s u).isSome || (64 ≤ u && spareState s (u - 64) = 0)))

/-- A failing line that stays in service is recorded in TST_RESULT (R364). -/
def recordLine (s : State) (unit : Nat) (l : Nat × Nat) : State :=
  let s := addSat s R_TST_RESULT TST_RESULT_FAILS 1
  if rdB s R_TST_RESULT TST_RESULT_VALID then s
  else wr s R_TST_RESULT ((rd s R_TST_RESULT &&& fldMask TST_RESULT_FAILS) ||| w64 (l.1 + l.2 <<< 17 + unit <<< 28 + 1 <<< 63))

/-- Lines of a unit that are neither remapped nor dead. -/
def openLines (s : State) (unit : Nat) : List (Nat × Nat) :=
  (weakLines s unit).filter (fun l => if l.1 < 65536 then (remapOf s unit l.1).isNone
    else rdF s (R_RMP_ENTRY unit (l.1 - 65536)) RMP_ENTRY_STATE != 3)

/-- The failing lines that stay in service are recorded: those of the units that hold data, and of the stores (R364). -/
def recordOpenLines (s : State) : State :=
  (marchedUnits s).foldl (fun s u => (openLines s u).foldl (fun s l => recordLine s u l) s) s

/-- The remap of a line at the start, its steps together (R235): the unit is cleared after its march, so there is no data to copy. A line
remapped before leaves its old entry dead. -/
def remapLineAtStart (s : State) (unit line : Nat) : State :=
  let old := remapOf s unit line
  let src := physLine s unit line
  let s := startRemap s unit line false
  match s.integ.remaps.find? (fun j => j.unit = unit && j.line = line) with
  | some j => remapDone s j src old
  | none => s

/-- The SC remaps a failing line; a failing spare line makes a free entry dead, and the line that it holds is remapped again (R235, R243,
R364). -/
def remapAtStart (s : State) (unit : Nat) (l : Nat × Nat) : State :=
  if 65536 ≤ l.1 then
    let entry := R_RMP_ENTRY unit (l.1 - 65536)
    if rdF s entry RMP_ENTRY_STATE = 0 then addSat (wrF s entry RMP_ENTRY_STATE 3) (R_INT_UNITERR unit) INT_UNITERR_REMAPS 1
    else if rdF s entry RMP_ENTRY_STATE = 2 then remapLineAtStart s unit (rdF s entry RMP_ENTRY_LINE)
    else s
  else remapLineAtStart s unit l.1

/-- A marched unit with a failing cell (R364, R258): a FREE spare becomes UNUSABLE; a bank is retired without copy, else its lines
are remapped. The step has failed when something is left: the flag. -/
def resolveS4 (r : State × Nat × Bool) (u : Nat) : State × Nat × Bool :=
  let (s, code, bad) := r
  if 66 ≤ u then (s, code, true)
  else
    match dataBank s u with
    | none => (setSpareState s (u - 64) 3, code, bad)
    | some b =>
      match goodSpare s [] with
      | some i =>
        let s := if 64 ≤ u then setSpareState s (u - 64) 3 else s
        (startLine (setSpare s i b 2 65536) 4 u 4, max code 4, bad)
      | none =>
        let ls := openLines s u
        let s := ls.foldl (fun s l => remapAtStart s u l) s
        let rest := openLines s u
        (startLine s 4 u 3, max code 3, bad || !rest.isEmpty)

/-- Cells that a march has found failing are defects of the array from now on. -/
def noteCells (s : State) (cs : List (Nat × Nat × Nat)) : State :=
  { s with test := { s.test with weak := s.test.weak ++ cs.filter (fun c => !s.test.weak.contains c) } }

/-- Step S4 (R364): the march runs, fails when a line is left that can be neither retired nor remapped, and leaves every marched
unit clean and zero. -/
def stepS4 (s : State) (rep : StepReport) : State :=
  let s := noteCells s rep.badCells
  let units := marchedUnits s
  let failing := units.filter (fun u => !(openLines s u).isEmpty)
  let spares := failing.filter (fun u => u < 66 && (dataBank s u).isNone)
  let (s, code, bad) := (spares ++ failing.filter (fun u => !spares.contains u)).foldl resolveS4 (s, 0, false)
  let s := units.foldl fgClear s
  let s := { s with power := { s.power with code := max s.power.code code } }
  if bad then attemptStep s 4 2 true (fun s =>
    (startLine (recordOpenLines s) 4 0 2, 2))
  else stepDone s 4 (passCode s)

/-! ### Steps S5 to S7 -/

/-- A copying entry is copied again from its line, and is done (R235). -/
def applyEntry (s : State) (u k : Nat) : State :=
  if rdF s (R_RMP_ENTRY u k) RMP_ENTRY_STATE = 1 then
    let line := rdF s (R_RMP_ENTRY u k) RMP_ENTRY_LINE
    let addr := match dataBank s u with | some b => lineAddr s.variant b line | none => 0
    remapCopyNow s ⟨u, line, k, false⟩ addr
  else s

/-- After power-on a spare found RACKING is recorded as RETIRED, and one retired into before is done with (R257, R258). -/
def settleSpare (s : State) (i : Nat) : State :=
  if startKind s ≤ 2 && spareState s i = 1 then
    let b := spareBank s i
    let s := (List.range 2).foldl (fun s j => if j != i && spareState s j = 2 && spareBank s j = b then setSpareState s j 3 else s) s
    setSpare s i b 2 65536
  else s

/-- Step S5 (R235, R257): remap entries and the retire map apply. -/
def stepS5 (s : State) : State :=
  let s := (List.range (numSpares s.variant)).foldl settleSpare s
  let s := ((List.range 66).filter (unitPresent s.variant)).foldl (fun s u =>
    let s := (List.range 8).foldl (fun s k => applyEntry s u k) s
    wrF s (R_INT_UNITERR u) INT_UNITERR_REMAPS
      ((List.range 8).filter (fun k => rdF s (R_RMP_ENTRY u k) RMP_ENTRY_STATE != 0)).length) s
  stepDone (recountFree s) 5 0

/-- Step S6 (R93, R132): stores cleared, the vat table at its reset values. -/
def stepS6 (s : State) : State :=
  let s := clearMbxStore (clearSemStore s)
  let s := (List.range (numMailboxes s.variant)).foldl (fun s n => wr s (R_MBX_CTL n) 0) s
  stepDone { s with regs := s.regs.filter (fun e => e.1 / 0x10000 != 0x16) } 6 0

/-- Step S7 (R436): a port whose calibration fails every attempt is dropped. -/
def stepS7 (s : State) (rep : StepReport) : State :=
  let bad := (List.range (numPorts s.variant)).filter (fun p => rep.badPorts.getLsbD p)
  attemptStep s 7 3 (!bad.isEmpty) (fun s =>
    (bad.foldl (fun s p => startLine { s with power := { s.power with dropped := s.power.dropped ||| 2 ^ p } } 7 p 3) s, 3))

/-! ### Step S8 (R365) -/

/-- Whether a port has been dropped, or has reached UP. -/
def portSettled (s : State) (p : Nat) : Bool :=
  portUp s p || bitOf s.power.droppedS8 p

/-- Ports of step S8 that have been dropped, or are not UP at their highest rate. -/
def portsBelow (s : State) : List Nat :=
  (startPorts s).filter (fun p => bitOf s.power.droppedS8 p || !portUp s p || rdF s (R_LPH_STAT p) LPH_STAT_RATE != highestRate (ratesOf s p))

/-- A port is dropped at step S8. -/
def dropPort (s : State) (p : Nat) : State := { s with power := { s.power with droppedS8 := s.power.droppedS8 ||| 2 ^ p } }

/-- Step S8 ends: ports not UP are dropped and go on training. -/
def endS8 (s : State) : State :=
  let low := portsBelow s
  let failed := low.any (fun p => bitOf s.power.droppedS8 p || !portUp s p)
  let s := low.foldl (fun s p => startLine (if portUp s p then s else dropPort s p) 8 p 3) s
  stepDone (if failed then noteFailed s 8 else s) 8 (if low.isEmpty then 0 else 3)

/-- Whether START_STEP may end step S8. -/
def s8Over (s : State) : Bool := (startPorts s).all (portSettled s)

/-! ### Steps S9 to S11 -/

/-- Step S9 (R366): what its state and JOIN_CODE decide; 0 goes on. -/
def stepS9 (s : State) : State :=
  let st := pairState s
  let code := rdF s R_PR_STAT PR_STAT_JOIN_CODE
  if !pairStarts s || st = PS_SYNCING || st = PS_MIRRORED then stepDone s 9 (if pairStarts s then passCode s else 0)
  else if code = 5 then stepDone (startLine (enterSolo { s with pair := { s.pair with joining := false } }) 9 0 6) 9 6
  else if code != 0 then stepDone (startLine (skipJoin s) 9 0 2) 9 2
  else s

/-- Step S10 (R260): engines that fail their self-test are left OFFLINE. -/
def stepS10 (s : State) (rep : StepReport) : State :=
  let es := List.range (numEngines s.variant)
  let bad := es.filter (fun e => rep.badEngines.getLsbD e)
  let mask (l : List Nat) : Nat := l.foldl (fun n e => n + 2 ^ e) 0
  let s := wr s R_TST_ENGRES (w64 (mask (es.filter (fun e => !bad.contains e)) + mask bad <<< 16))
  let s := bad.foldl (fun s e => startLine (setEngState s e 2) 10 e 3) s
  stepDone (if bad.isEmpty then s else noteFailed s 10) 10 (if bad.isEmpty then 0 else 3)

/-- Step S11: requests are admitted, and racking resumes (R257, R363). -/
def stepS11 (s : State) : State := rackResume (stepDone (wrB s R_PWR_DEVSTAT PWR_DEVSTAT_READY true) 11 0)

/-- Whether the step in progress may go on: the SC runs from the PLL, RESET_N is high, and a step that had not begun waits for the
end of HOLD (R358, R361, R427). -/
def startRuns (s : State) : Bool :=
  coreOn s && !s.power.scHalted &&
  (!inHold s || s.power.attempt != 0 || decide (s.power.stepAt < s.power.holdSince))

/-- One attempt of step `k`. -/
def runStep (s : State) (k : Nat) (rep : StepReport) : State :=
  let c := countAttempt s k
  match k with
  | 0 => stepS0 { c with power := { c.power with vdd := .good } } rep
  | 1 => stepS1 c
  | 2 => stepS2 c rep
  | 3 => stepS3 c
  | 4 => stepS4 c rep
  | 5 => stepS5 c
  | 6 => stepS6 c
  | 7 => stepS7 c rep
  | 8 => if s8Over s then endS8 c else s
  | 9 => if rdF s R_PWR_ATTEMPT (PWR_ATTEMPT_ATT_S 9) = 0 then stepS9 c else stepS9 s
  | 10 => stepS10 c rep
  | _ => stepS11 c

/-- START_STEP (R360–R368): an attempt of the step in progress ends as reported. After a warm reset step S0 waits for what the reset
completes (R355). -/
def execStartStep (rep : StepReport) (s : State) : Host.Outcome State Fault Refusal :=
  match s.power.step with
  | none => .next s
  | some k =>
    if startRuns s then
      if s.power.warmPending then
        if warmDrained s then .next (runStep (deviceReset s KIND_WARM) 0 rep) else .next s
      else .next (runStep s k rep)
    else .next s

/-- Whether a time limit of a step has passed, in milliseconds since it or its attempt began. -/
def stepLate (s : State) (k ms : Nat) : Bool := s.power.step = some k && startRuns s && decide (s.power.stepAt + ms * 1600000 ≤ s.time)

/-- S4_TIMEOUT (R364): a march that has not ended within 10 ms is a failed attempt; lines that an earlier attempt has left unresolved stay
in service and are recorded. -/
def execS4Timeout (s : State) : Host.Outcome State Fault Refusal :=
  if stepLate s 4 10 then .next (attemptStep (countAttempt s 4) 4 2 true (fun s => (startLine (recordOpenLines s) 4 0 2, 2))) else .next s

/-- S8_TIMEOUT (R365). -/
def execS8Timeout (s : State) : Host.Outcome State Fault Refusal :=
  if stepLate s 8 s.power.s8Ms then .next (endS8 (countAttempt s 8)) else .next s

/-- S9_TIMEOUT (R366): a second attempt follows the first; then the step is skipped. -/
def execS9Timeout (s : State) : Host.Outcome State Fault Refusal :=
  if stepLate s 9 s.power.s9Ms && pairStarts s && pairState s != PS_SYNCING && pairState s != PS_MIRRORED then
    let s := if rdF s R_PWR_ATTEMPT (PWR_ATTEMPT_ATT_S 9) = 0 then countAttempt s 9 else s
    if s.power.attempt < 2 then
      .next (countAttempt (noteFailed { s with power := { s.power with stepAt := s.time } } 9) 9)
    else .next (stepDone (startLine (skipJoin (noteFailed s 9)) 9 0 2) 9 2)
  else .next s

/-- HOLD_END (R359): VDD has been at or above 0.70 V for 20 µs; `minMv` is the lowest sample of the HOLD. A start step that waited
begins. -/
def execHoldEnd (minMv : BitVec 16) (s : State) : Host.Outcome State Fault Refusal :=
  let s := if s.power.vdd = .low then { s with power := { s.power with vdd := .good } } else s
  let t := s.power.holdSince
  if inHold s && t + holdQuiet ≤ s.time then
    let us := (s.time - t) / 1600
    let s := wrF (wrB s R_PWR_DEVSTAT PWR_DEVSTAT_HOLD false) R_PWR_BROWN PWR_BROWN_MIN_MV minMv.toNat
    let s := wrF (addSat s R_PWR_HOLDTIME PWR_HOLDTIME_TOTAL_US us) R_PWR_HOLDTIME PWR_HOLDTIME_LAST_US us
    match s.power.step with
    | some k => .next (if s.power.attempt = 0 && t ≤ s.power.stepAt then beginStep s k else s)
    | none => .next s
  else .next s

end Sys2Proof.Machine
end

