-- ==== Sys2Proof/Machine/RegFile.lean ====
section
/-! DEFINITION. Register accesses (R30–R40, R236, R361, R393, R399): what a read returns, what a write does, and the write of each
register by its block. -/

namespace Sys2Proof.Machine

/-! ### Reads -/

/-- MBX_CTL shows OVERRUN, EVENTS and the writer from the mailbox's STATUS codeword (R131). -/
def mbxCtlWord (s : State) (n : Nat) : Word64 :=
  let st := mbxWord (mbxDecode s n 6) 1
  w64 (b01 (mbxOpen s n) + (b01 (stOverrun st)) <<< 8 + (stEvents st) <<< 16 + (bitsOf st 38 32) <<< 32)

/-- PC_OVFSUM: the OVF bits of the counters. -/
def ovfSum (s : State) : Nat := (List.range 64).foldl (fun n i => n + (if rdB s (R_PC_CNT i) PC_CNT_OVF then 2 ^ i else 0)) 0

/-- TGT_BEST (R201). -/
def bestWord (s : State) (t : Nat) : Word64 :=
  match bestSource s t with
  | some n => w64 (n + srcF s n SRC_ENTRY_PRIORITY <<< 16 + 1 <<< 63)
  | none => 0

/-- What the sender's credits are on the four channels, as PT_CREDIT_RX and PT_CREDIT_TX show them (R308, R323). -/
def fourWords (f : Nat → Nat) : Word64 := w64 (f 0 + f 1 <<< 16 + f 2 <<< 32 + f 3 <<< 48)

/-- A register of block 0x02 + p whose value is derived from the link's state. -/
def ptWord (s : State) (p off : Nat) (w : Word64) : Word64 :=
  if off = 0x10 then setF w PT_TXSEQ_UNACKED (linkOf s p).kept.length
  else if off = 0x20 then fourWords (rxSize s p)
  else if off = 0x28 then fourWords (fun vc => if rdB s (R_PT_STAT p) PT_STAT_CREDITED then txCredits (linkOf s p) vc else 0)
  else if off = 0x58 then setF w PT_TAGS_OUTSTANDING (tagsOf s p).length
  else w

/-- MG_CHAINSESS: a chain command is running from the completion of its line on, and its reply waits until it is polled (R392). -/
def chainSessWord (s : State) : Word64 :=
  w64 (b01 s.mgmt.chain.keeper + (b01 (s.mgmt.lines.any (fun l => l.1 = .chain))) <<< 1 + (b01 (!s.mgmt.reply.isEmpty)) <<< 2 +
    s.mgmt.reply.length <<< 16)

/-- The bits of a register that the keep store backs. -/
def nvMask (key : Nat) : Word64 :=
  match findRow key with
  | some r => r.fields.foldl (fun m f => if f.nv then m ||| fldMask f.fld else m) 0
  | none => 0

/-- The registers that the keep store backs, as they stand. -/
def keepRegs (s : State) : List (Nat × Word64) :=
  (s.regs.filter (fun e => nvMask e.1 != 0)).map (fun e => (e.1, e.2 &&& nvMask e.1))

/-- The word of the keep store at a byte offset (R400): a free value of the offset and of what is kept, but for the bytes of the keeper
phrase, which read zero. -/
def keepRead (s : State) (at_ : Nat) : Word64 :=
  let w := (Config.keepWord at_ (keepRegs s) (s.tk.filter (fun e => tkBacked e.1))).toNat
  w64 (leNat ((List.range 8).map (fun i =>
    if Config.keepPhrase ≤ at_ + i && at_ + i < Config.keepPhrase + 8 then 0 else BitVec.ofNat 8 (bitsOf w (8 * i + 7) (8 * i)))))

/-- The value that a read of a register returns, from one instant (R31). -/
def regRead (s : State) (key : Nat) : Word64 :=
  let w := rd s key
  let block := key / 0x10000
  let off := key % 0x10000
  if key = R_GLB_TIME then w64 s.time
  else if 0x02 ≤ block && block ≤ 0x09 then ptWord s (block - 2) off w
  else if block = 0x15 && off < 0x8000 then mbxCtlWord s (off / 8)
  else if block = 0x20 then setF w SRC_ENTRY_RAW (b01 (rawLevel s (off / 8)))
  else if block = 0x21 && off % 0x100 = 0x20 then bestWord s (off / 0x100)
  else if key = R_PWR_REGSTAT then regstatWord s
  else if key = R_MG_CONSOLE then
    setF (setF w MG_CONSOLE_MACHINE (b01 s.mgmt.console.machine)) MG_CONSOLE_KEEPER (b01 s.mgmt.console.keeper)
  else if key = R_MG_CHAINSESS then chainSessWord s
  else if key = R_MG_KS_DATA then keepRead s (8 * rdF s R_MG_KS_ADDR MG_KS_ADDR_OFFSET)
  else if key = R_PC_OVFSUM then w64 (ovfSum s)
  else w

/-- A read of a register that shows a triple-kept word votes its copies (R236). -/
def voteTk (s : State) (key : Nat) : State :=
  match tkIndex key with
  | none => s
  | some n => voteWord s n

/-- Target of a key of block 0x21. -/
def tgtOfKey (key : Nat) : Nat := key % 0x10000 / 0x100

/-- Whether a key is a TGT_CLAIM, whose read is a claim (R208). -/
def isClaimKey (key : Nat) : Bool := key / 0x10000 = 0x21 && key % 0x100 = 0x08 && tgtOfKey key < 36

/-- What a register read of MBX_CTL answers for the decoded control codeword of mailbox `n`: UE when it is uncorrectable, otherwise
the value `w`; a finding is counted and logged, and a correction is not written back (R131). -/
def mbxCtlFound (s : State) (who : Who) (n : Nat) (d : Decoded) (w : Word64) : Status × Word64 × State :=
  let log (kind : Nat) : State :=
    storeFinding s 67 (7 * n + 6) (0xFE400000 + 256 * n + 0xC0) ⟨0, d, kind, whoId who, whoSlot who, false⟩
  match d.outcome with
  | .uncorrectable => (.ue, 0, log 2)
  | .corrected => (.ok, w, log 1)
  | _ => (.ok, w, s)

/-- A read of MBX_CTL decodes the control codeword as a mailbox READ does: a correction is counted and logged and not written back, and an
uncorrectable codeword answers UE (R131, R226). -/
def readMbxCtl (s : State) (who : Who) (key : Nat) : Status × Word64 × State :=
  let n := key % 0x10000 / 8
  mbxCtlFound (bumpFree s 67) who n (mbxDecode s n 6) (regRead s key)

/-- A register read: its status, its value and what it does. -/
def readStep (s : State) (who : Who) (key : Nat) : Status × Word64 × State :=
  if isClaimKey key then (.ok, claimTarget s (tgtOfKey key))
  else if key / 0x10000 = 0x15 && key % 0x10000 < 0x8000 then readMbxCtl s who key
  else
    (.ok, regRead s key, voteTk s key)

/-! ### Writes of registers with rules of their own -/

/-- A write of PT_CTL (R323, R324). STAT_CLEAR leaves PEAK at the tags outstanding now. -/
def wrPtCtl (s : State) (p : Nat) (v : Word64) : Written :=
  if getF v PT_CTL_REPLAY_NS < 100 then refusedWith s .range
  else
    let s := plainWrite s (R_PT_CTL p) v
    if acts v PT_CTL_STAT_CLEAR then
      let s := [R_PT_FLITS p, R_PT_REPLAY p, R_PT_REQS p, R_PT_ERR p, R_PT_LOST p].foldl (fun s k => wr s k 0) s
      accepted (noteCleared (wrF s (R_PT_TAGS p) PT_TAGS_PEAK (tagsOf s p).length) (0x02 + p))
    else accepted s

/-- A write of ARB_SHARE or ARB_WEIGHT (R55): it takes effect at the next frame position 0. -/
def wrArbSetting (s : State) (key : Nat) (v : Word64) : State :=
  let s := plainWrite s key v
  { s with power := { s.power with arbPend := s.power.arbPend ++ [(s.time, rd s R_ARB_SHARE, rd s R_ARB_WEIGHT)] } }

/-- A write of ARB_CTL: STAT_CLEAR (R70). -/
def wrArbCtl (s : State) (v : Word64) : State :=
  if acts v ARB_CTL_STAT_CLEAR then
    noteCleared ((List.range 64).foldl (fun s b => wr s (R_ARB_BANKSTAT b) 0) (wr s R_ARB_SPLITS 0)) 0x10
  else s

/-- A write of MBX_CTL: OPEN, and its unit to the partner (R131, R328). -/
def wrMbxCtl (s : State) (key : Nat) (v : Word64) : Written :=
  let n := key % 0x10000 / 8
  let s' := plainWrite s key v
  { status := .ok, state := s', post := if mbxOpen s' n = mbxOpen s n then .none else .mbxOpen n }

/-- A write of CEL_CTL (R418). -/
def wrCelCtl (s : State) (v : Word64) : Written :=
  let h := regionOf (cellarBase s.variant)
  if hasF v CEL_CTL_ENABLE && (regionState s h = RS_OFF || wakingFromOff s h) then refusedWith s .range
  else accepted (plainWrite s R_CEL_CTL v)

/-- A write of MG_PORTEN by the SC (R278, R398): a port whose enable changes trains or goes to DISABLED. -/
def wrMgPorten (s : State) (v : Word64) : State :=
  let old := (rd s R_MG_PORTEN).toNat
  let s := plainWrite s R_MG_PORTEN v
  let new := (rd s R_MG_PORTEN).toNat
  if portsTrain s then
    ((List.range (numPorts s.variant)).filter (fun p => bitOf old p != bitOf new p)).foldl (fun s p => portEnable s p (bitOf new p)) s
  else s

/-- A write of block 0x2A by the SC (R399, R400). -/
def wrMgmt (s : State) (key : Nat) (v : Word64) : Written :=
  if key = R_MG_CHAINADDR then (if getF v MG_CHAINADDR_ADDRESS = 63 then refusedWith s .range else accepted (plainWrite s key v))
  else if key = R_MG_GRANT then accepted (plainWrite (noteBefore s key) key v)
  else if key = R_MG_PORTEN then accepted (wrMgPorten s v)
  else if key = R_MG_CONSOLE then (if 5 < getF v MG_CONSOLE_BAUD then refusedWith s .range else accepted (plainWrite s key v))
  else if key = R_MG_CTL then
    accepted (if acts v MG_CTL_STAT_CLEAR then
      noteCleared ([R_MG_CHAINCNT, R_MG_CHAINERR, R_MG_SHEXA].foldl (fun s k => wr s k 0) s) 0x2A else s)
  else accepted (plainWrite s key v)

/-! ### The write of each block -/

/-- Block 0x0A (R289, R290). -/
def wrLaneBlock (s : State) (key : Nat) (v : Word64) : Written :=
  let off := key % 0x10000
  let p := off / 0x1000
  let o := off % 0x1000
  if key = R_LN_GCFG then wrLnGcfg s v
  else if key = R_LN_GCFG2 then wrLnGcfg2 s v
  else if key = R_LN_GCTL then accepted (wrLnGctl s v)
  else if o = 0 then wrLphCtl s p v
  else if 0x100 ≤ o && o < 0x340 && o % 0x40 = 0 then accepted (wrLrxStat s p ((o - 0x100) / 0x40) v)
  else if 0x400 ≤ o && o % 0x10 = 8 then wrLtxFix s p ((o - 0x400) / 0x10) v
  else accepted (plainWrite s key v)

/-- Block 0x11 (R240). -/
def wrIntegBlock (s : State) (key : Nat) (v : Word64) : Written :=
  if key = R_INT_CTL then accepted (wrIntCtl s v)
  else if key = R_INT_INJECT then wrIntInject s v
  else if key = R_INT_SCRUB_CFG then wrIntScrubCfg s v
  else if key = R_INT_HF_CFG then wrIntHfCfg s v
  else accepted (plainWrite s key v)

/-- Block 0x12 (R261). -/
def wrTestBlock (s : State) (key : Nat) (v : Word64) : Written :=
  if key = R_TST_BG then accepted (wrTstBg s v)
  else if key = R_TST_CMD then wrTstCmd s v
  else if key = R_TST_CTL then accepted (wrTstCtl s v)
  else if key = R_TST_RESULT then accepted (wrTstResult s v)
  else if key = R_RMP_CMD then wrRmpCmd s v
  else if key = R_RET_CMD then wrRetCmd s v
  else if key = R_TST_ENG then wrTstEng s v
  else accepted (plainWrite s key v)

/-- Block 0x18 (R175). -/
def wrEngBlock (s : State) (key : Nat) (v : Word64) : Written :=
  let e := engOfKey key
  let o := key % 0x1000
  let q := queueOfKey key
  if o < 0x100 then (if o = 0 then accepted (wrEngCtl s e v) else accepted (plainWrite s key v))
  else
    match (o - 0x100) % 0x80 with
    | 0x00 => wrQRing s e q v
    | 0x08 => wrQCfg s e q v
    | 0x10 => wrQHead s e q v
    | 0x18 => wrQTail s e q v
    | 0x28 => accepted (wrQCtl s e q v)
    | _ => accepted (plainWrite s key v)

/-- Block 0x19 (R193). -/
def wrMatchBlock (s : State) (key : Nat) (v : Word64) : Written :=
  if key = R_MC_GCTL then accepted (wrMcGctl s v)
  else
    match key % 0x40 with
    | 0x00 => wrMcCtl s (ctxOfKey key) v
    | 0x08 => wrMcArea s key v
    | 0x10 => wrMcArea s key v
    | _ => accepted (plainWrite s key v)

/-- Block 0x21 (R215). -/
def wrTgtBlock (s : State) (key : Nat) (v : Word64) : Written :=
  match key % 0x100 with
  | 0x00 => accepted (wrTgtCtl s (tgtOfKey key) v)
  | 0x10 => eoiTarget s (tgtOfKey key) (getF v TGT_EOI_SOURCE)
  | _ => accepted s

/-- Block 0x28 (R369). -/
def wrPwrBlock (s : State) (key : Nat) (v : Word64) : Written :=
  if key = R_PWR_CTL then wrPwrCtl s v
  else if key = R_PWR_REGION then wrPwrRegion s v
  else if key = R_PWR_RESET then wrPwrReset s v
  else if key = R_PWR_START then wrPwrStart s v
  else accepted (plainWrite s key v)

/-- Block 0x29 (R347). -/
def wrPairBlock (s : State) (key : Nat) (v : Word64) : Written :=
  if key = R_PR_ROLE then wrPrRole s v
  else if key = R_PR_MIRROR then wrPrMirror s v
  else if key = R_PR_CFG then wrPrCfg s v
  else if key = R_PR_CMD then accepted (wrPrCmd s v)
  else accepted (plainWrite s key v)

/-- Block 0x30 (R420). -/
def wrObsBlock (s : State) (key : Nat) (v : Word64) : Written :=
  if key = R_PC_GCTL then accepted (wrPcGctl s v)
  else if R_PC_CFG 0 ≤ key && key ≤ R_PC_CFG 63 then wrPcCfg s ((key - R_PC_CFG 0) / 8) v
  else if key = R_SMP_CTL then wrSmpCtl s v
  else if key = R_SMP_IDX then accepted (wrSmpIdx s v)
  else if key = R_TR_CTL then accepted (wrTrCtl s v)
  else if key = R_TR_ADDR then wrTrAddr s v
  else if key = R_TR_IDX then accepted (wrTrIdx s v)
  else if key = R_CEL_CTL then wrCelCtl s v
  else accepted (plainWrite s key v)

/-- A write of a present register, all 64 bits in one cycle (R31). A FIRST of MBX_CLEAR that names an absent mailbox is refused with ABSENT
(R4) also while BUSY = 1 (DESIGN CHOICE, log entry 77). -/
def regWrite (s : State) (key : Nat) (v : Word64) : Written :=
  let block := key / 0x10000
  if 0x02 ≤ block && block ≤ 0x09 then (if key % 0x10000 = 0 then wrPtCtl s (block - 2) v else accepted (plainWrite s key v))
  else
    match block with
    | 0x0A => wrLaneBlock s key v
    | 0x10 => if key = R_ARB_CTL then accepted (wrArbCtl s v)
        else if key = R_ARB_SHARE || key = R_ARB_WEIGHT then accepted (wrArbSetting s key v) else accepted (plainWrite s key v)
    | 0x11 => wrIntegBlock s key v
    | 0x12 => wrTestBlock s key v
    | 0x14 => if key = R_SEM_CLEAR then accepted (wrSemClear s v)
        else if key = R_SEM_CTL then accepted (wrSemCtl s v) else accepted (plainWrite s key v)
    | 0x15 => if key = R_MBX_CLEAR then
          (if numMailboxes s.variant ≤ getF v MBX_CLEAR_FIRST then refusedWith s .absent else accepted (wrMbxClear s v))
        else if key = R_MBX_GCTL then accepted (wrMbxGctl s v)
        else if key % 0x10000 < 0x8000 then wrMbxCtl s key v else accepted (plainWrite s key v)
    | 0x16 => if key % 0x40 = 0 then wrVatCtl s (vatOfKey key) v else wrVatOther s key v
    | 0x18 => wrEngBlock s key v
    | 0x19 => wrMatchBlock s key v
    | 0x20 => wrSrcEntry s (key % 0x10000 / 8) v
    | 0x21 => wrTgtBlock s key v
    | 0x28 => wrPwrBlock s key v
    | 0x29 => wrPairBlock s key v
    | 0x2A => wrMgmt s key v
    | 0x30 => wrObsBlock s key v
    | _ => accepted (plainWrite s key v)

/-! ### Checks of a register access (R31, R33–R38) -/

/-- Key of a register address in either view (R30). -/
def keyOf (addr : Nat) : Nat := addr % 0x800000 / 8 * 8

/-- Whether a register address lies in the unprivileged view. -/
def inUnprivView (addr : Nat) : Bool := addr < 0xFF800000

/-- The 8-byte-aligned words that an access touches (R31). -/
def touchedWords (r : Req) : List Nat := (List.range ((r.addr % 8 + r.len + 7) / 8)).map (fun i => r.addr / 8 * 8 + 8 * i)

/-- How a register appears to a requester at an address (R35–R38). -/
def regMode (s : State) (who : Who) (addr : Nat) : ViewMode :=
  if spaceOf addr != .reg || !regPresent s.variant (keyOf addr) then .absent
  else
    match who with
    | .port p _ => if inUnprivView addr then unprivMode s p (keyOf addr) else .full
    | _ => .full

/-- Whether a write of a register changes mirrored state (R328, R336). -/
def mirroredKey (key : Nat) : Bool :=
  key = R_SEM_CLEAR || key = R_MBX_CLEAR || key / 0x10000 = 0x16 || (key / 0x10000 = 0x15 && key % 0x10000 < 0x8000)

/-- Registers that only the SC writes (R399). -/
def scOnlyKey (key : Nat) : Bool := key = R_MG_CHAINADDR || key = R_MG_GRANT || key = R_MG_PORTEN || key = R_MG_CONSOLE

/-- Whether a register access breaks a view, privilege or pair rule (R35–R37, R336, R399). -/
def regDenied (s : State) (r : Req) : Bool :=
  let ws := touchedWords r
  (r.op = .write && pairRefuses s && ws.any (fun a => mirroredKey (keyOf a))) ||
  (match r.who with
   | .port p _ =>
     ws.any (fun a => (!inUnprivView a && !portPrivileged s p) ||
       (r.op = .write && (regMode s r.who a = .read || scOnlyKey (keyOf a))))
   | _ => false)

/-- Whether an operation at a register answers RANGE even where a view would deny it: an atomic operation and an ACC answer DENIED only under
R336 (R76, R101, R33). -/
def neverDenied (o : Op) : Bool :=
  match o with
  | .atomic _ => true
  | .acc => true
  | _ => false

/-- The first failing check of a register access (R34). -/
def decodeReg (s : State) (r : Req) : Option Status :=
  if (touchedWords r).any (fun a => regMode s r.who a = .absent) then some .absent
  else if regDenied s r && !neverDenied r.op then some .denied
  else if !plainOp r.op then some .range
  else if r.len != 8 || r.addr % 8 != 0 || (r.op = .write && !allEnabled r) then some .misalign
  else none

/-- Whether an access is a write of TGT_EOI. -/
def isEoi (r : Req) : Bool := r.op = .write && keyOf r.addr / 0x10000 = 0x21 && r.addr % 0x100 = 0x10

/-- Whether a register access answers RETRY at admission: one of a port before step S11 (R361), after a fatal error (R416), in HOLD; one of the
SC in HOLD (R358). -/
def regRetry (s : State) (r : Req) : Bool :=
  if r.who = .sc then inHold s && r.op = .write && !isEoi r
  else
  let block := keyOf r.addr / 0x10000
  let early := match s.power.step with
    | some k => r.op = .read && decide (8 ≤ k) && (block = 0x00 || block = 0x01 || block = 0x28)
    | none => false
  (!rdB s R_PWR_DEVSTAT PWR_DEVSTAT_READY && !early) || ((fatalState s || inHold s) && !(r.op = .read || isEoi r))

/-- Count a register access answered DENIED on the passive device (R336). -/
def countRegDenied (s : State) (r : Req) : State :=
  if r.op = .write && pairRefuses s && (touchedWords r).any (fun a => mirroredKey (keyOf a)) then addSat s R_PR_COUNTS PR_COUNTS_DENIED 1
  else s

/-! ### Service -/

/-- The trace entry of a register access (R413, R414). -/
def traceReg (s : State) (r : Req) (st : Status) (data : List Byte) : State :=
  trace s { time := s.time, addr := r.addr, req := whoId r.who, slot := whoSlot r.who, half2 := false, opcode := r.code, len := r.len, status := st,
            ce := false, sup := false, unit := 66, gsize := 1, gpos := 0, rot := 0, tag := r.tag, data := data,
            cls := traceClass r.op, dest := 3 }

/-- What follows an accepted write of mirrored state: its unit; the access waits for the partner (R334). -/
def settlePost (s : State) (p : Post) (ds : List Deferred) : State :=
  match p with
  | .none => s
  | .vat n xs => forwardVat s n (ds ++ xs)
  | .mbxOpen n => pairForward s (storePort s) (mbxBytes n 0 (mbxOpen s n) []) none ds

/-- Serve an admitted register access. -/
def serveReg (s : State) (r : Req) (uid : Nat) : State :=
  let key := keyOf r.addr
  let s := samplePoint s r.who uid 3 0xFF 1 0
  if r.op = .read then
    let x := readStep s r.who key
    let data := if x.1 = .ok then leBytes 8 x.2.1.toNat else []
    answerPart (traceReg x.2.2 r x.1 data) r.who uid 0 x.1 false false data 0
  else
    let w := regWrite s key (w64 (leNat (sliceBytes r.data 0 8)))
    let s := answerPart (traceReg w.state r w.status r.data) r.who uid 0 w.status false false [] (b01 (w.post != .none))
    settlePost s w.post [.release r.who uid]

/-! ### The order of the interrupt controller (R206) -/

/-- Lines that a request touches; a FENCE touches none. -/
def linesOf (r : Req) : List Nat := if r.op = .fence then [] else [r.addr / 64, (r.addr + r.len - 1) / 64]

/-- Whether two requests touch a common line (R65). -/
def shareLine (a b : Req) : Bool := (linesOf a).any (linesOf b).contains

/-- Whether an access is one of the interrupt controller's registers. -/
def isIntcReq (r : Req) : Bool := keyOf r.addr / 0x10000 = 0x20 || keyOf r.addr / 0x10000 = 0x21

/-- The target that an access makes a claim or an EOI for. -/
def intcTarget (r : Req) : Option Nat :=
  if (r.op = .read && isClaimKey (keyOf r.addr)) || isEoi r then some (tgtOfKey (keyOf r.addr)) else none

/-- Whether a register write of the SC waits for a pair unit's number (R332). -/
def scBlocked (s : State) (r : Req) : Bool :=
  r.who = .sc && r.op = .write && mirroredKey (keyOf r.addr) && pairBlocked s (storePort s)

/-- Whether an access may be taken in this cycle of the controller: claims and EOIs by ascending target, then one write, then the plain reads
(R206). -/
def intcMay (s : State) (r : Req) : Bool :=
  let t := intcTurnNow s
  if isIntcReq r then
    match intcTarget r with
    | some k => !t.wasRead && !t.wrote && t.next ≤ k
    | none => r.op = .read || (!t.wasRead && !t.wrote)
  else !scBlocked s r

/-- Take an access: what R206 notes of it, and its service. A plain read closes the controller's cycle first. -/
def intcTake (s : State) (r : Req) (uid : Nat) : State :=
  if isIntcReq r then
    match intcTarget r with
    | some k => serveReg (takeTarget s k) r uid
    | none => serveReg (if r.op = .read then closeTurn s else takeWrite s) r uid
  else serveReg s r uid

/-- The oldest waiting access of a kind that may be taken: none behind another of its requester to the same line (R65). -/
def intcNext (s : State) (kind : Req → Bool) : Option (Nat × Req) :=
  s.intcWait.find? (fun x => kind x.2 && intcMay s x.2 &&
    !s.intcWait.any (fun y => y.1 < x.1 && y.2.who = x.2.who && shareLine y.2 x.2))

/-- Take the oldest waiting access of a kind, when one may be taken. -/
def intcTakeNext (s : State) (kind : Req → Bool) : State :=
  match intcNext s kind with
  | some x => intcTake { s with intcWait := s.intcWait.filter (fun y => y.1 != x.1) } x.2 x.1
  | none => s

/-- Take waiting accesses of a kind, at most `n`. -/
def intcTakeAll (s : State) (kind : Req → Bool) : Nat → State
  | 0 => s
  | n + 1 => intcTakeAll (intcTakeNext s kind) kind n

/-- Whether an access is a plain read of the controller's registers. -/
def isPlainRead (r : Req) : Bool := isIntcReq r && r.op = .read && (intcTarget r).isNone

/-- INTC_CYCLE (R206): the cycle's events; the claims and EOIs that wait, by ascending target; a write that waits; the evaluation of every target;
the plain reads that wait. The controller closes one cycle in a core cycle. -/
def execIntcCycle (s : State) : Host.Outcome State Fault Refusal :=
  if coreOn s && !(intcTurnNow s).wasRead then
    let s := (presentTargets s.variant).foldl (fun s t => intcTakeNext s (fun r => intcTarget r = some t)) (turnEvents s)
    let s := intcTakeNext s (fun r => isIntcReq r && r.op = .write && (intcTarget r).isNone)
    let s := intcTakeAll s (fun r => !isIntcReq r) s.intcWait.length
    .next (intcTakeAll (closeTurn s) isPlainRead s.intcWait.length)
  else .next s

/-- An admitted register access: it is served, or waits at the interrupt controller's input (R206, R355). -/
def enterReg (s : State) (r : Req) (uid : Nat) : State :=
  if !isIntcReq r && !scBlocked s r then serveReg s r uid
  else if s.intcWait.isEmpty && intcMay s r then intcTake s r uid
  else { s with intcWait := s.intcWait ++ [(uid, r)] }

/-- A register access: decode, admission, service. -/
def submitReg (s : State) (r : Req) (uid : Nat) : State :=
  match decodeReg s r with
  | some .denied => refuse (countRegDenied s r) r uid 1 .denied
  | some st => refuse s r uid 1 st
  | none => if regRetry s r then refuse s r uid 1 .retry else enterReg s r uid

/-! ### The SC's accesses (R38, R393) -/

/-- A register access of the SC. -/
def scReq (op : Op) (key : Nat) (v : Word64) : Req :=
  { who := .sc, tag := 0, mgmt := false, ord := false, op := op, code := if op = .read then 1 else 2, addr := 0xFF800000 + key, len := 8,
    mask := BitVec.allOnes 64, opfmt := 0, tally := false, data := if op = .read then [] else leBytes 8 v.toNat }

/-- A register access of the SC whose answer nobody waits for. -/
def scPost (s : State) (r : Req) : State :=
  let (uid, s) := takeUid s
  submitReg s r uid

end Sys2Proof.Machine
end

