-- ==== Sys2Proof/Machine/Request.lean ====
section
/-! DEFINITION. Port requests (R45–R50, R65–R68, R309–R315, R318, R319): a unit's arrival, its members, ordering, admission,
and the response. -/

namespace Sys2Proof.Machine

/-- A malformed unit (R318): counted, and the stream is dropped until FIRST of a later flit. -/
def malformed (s : State) (p : Nat) : State :=
  let s := countSat (countSat s (2 + p) (R_PT_ERR p) PT_ERR_MALFORMED 1) (2 + p) (R_PT_ERR p) PT_ERR_RESYNC 1
  setLink s p { linkOf s p with resync := true, partialUnit := [], needSlots := 0 }

/-! ### Ordering and admission -/

/-- Whether a request is a register write that needs a pair unit's number and has none (R332). -/
def regBlocked (s : State) (r : Req) : Bool :=
  r.op = .write && spaceOf r.addr = .reg && mirroredKey (keyOf r.addr) && pairBlocked s (storePort s)

/-- Whether a request may leave decode: an ORDERED one when every earlier request of its (port, slot) is complete (R67), none
before a held one to the same line (R65), a DOORBELL write none before a held WRITE to the mailbox store, behind which it has to be served
(R124), and one that changes mirrored state there when a pair unit's number is free (R332). -/
def mayPass (s : State) (t : Txn) : Bool :=
  (!t.req.ord || earlierDone s.txns s.heldOrd t) && !regBlocked s t.req && !lookupBlocked s t.req &&
  !s.heldOrd.any (fun x => x.req.who = t.req.who && x.uid < t.uid &&
    (shareLine x.req t.req || (isDoorbell t.req && isMbxWrite x.req)))

/-- Whether a port's access to the array or a store, or its FENCE, answers RETRY at admission (R358, R361, R416). -/
def portRetry (s : State) (r : Req) : Bool := !rdB s R_PWR_DEVSTAT PWR_DEVSTAT_READY || fatalState s || holdRetry s r

/-- A request leaves decode. -/
def passDecode (s : State) (t : Txn) : State :=
  let t := sampleDecoded t
  if t.req.op = .fence then
    if portRetry s t.req then { s with txns := s.txns ++ [{ t with status := .retry, due := some s.time }] }
    else settleFences { s with txns := s.txns ++ [t] }
  else
    let s := { s with txns := s.txns ++ [t] }
    if spaceOf t.req.addr = .reg then submitReg s t.req t.uid else submitAccess s t.req t.uid (portRetry s t.req)

/-! ### Arrival -/

/-- A request or run member is accepted (R311, R409): `slots` are the slots of its unit that it stands for. -/
def acceptMember (s : State) (p : Nat) (r : Req) (slots : Nat) : State :=
  let s := occur (occur (countWrap s (2 + p) (R_PT_REQS p) PT_REQS_ACCEPTED 1) EV_ACCEPTED) (evPort p 0)
  let (sample, s) := sampleAccept s
  let (uid, s) := takeUid s
  let sample := if r.op = .fence then sample.map (fun m => { m with dest := 5 }) else sample
  let t : Txn := { uid := uid, req := r, left := if r.op = .fence then 0 else if isSplit r then 2 else 1, waits := 0, status := .ok,
                   ce := false, sup := true, data0 := [], data1 := [], split := isSplit r, sample := sample, due := none,
                   lost := false, slots := slots, noStore := false }
  let s := if mayPass s t then passDecode s t else { s with heldOrd := s.heldOrd ++ [t] }
  if rdF s (R_PT_TAGS p) PT_TAGS_PEAK < (tagsOf s p).length then wrF s (R_PT_TAGS p) PT_TAGS_PEAK (tagsOf s p).length else s

/-- Member `k` of a request unit (R309–R311). -/
def memberReq (h : ReqHdr) (code addr len : Nat) (mask : BitVec 64) (opfmt : Nat) (tally : Bool) (data : List Byte) (op : Op) (k : Nat) :
    Req :=
  { who := .port h.port.toNat h.slot.toNat, tag := (h.tag.toNat + k) % 4096, mgmt := h.mgmt, ord := h.ord, op := op, code := code,
    addr := if op = .fence then 0 else (addr + 64 * k) % 2 ^ 32, len := if op = .fence then 0 else len,
    mask := if isRun code then BitVec.allOnes 64 else mask, opfmt := opfmt, tally := tally && code = 0x20,
    data := if isRun code then sliceBytes data (64 * k) (if op = .write then 64 else 0) else data }

/-- A request unit arrives in an open session of a port (R309–R312): malformed, dropped for its tag or for credit (R318, R319), or
accepted. A pair port takes no requests (R326). -/
def arriveUnit (s : State) (h : ReqHdr) (code addr len : Nat) (mask : BitVec 64) (opfmt : Nat) (tally : Bool) (run : Nat)
    (data : List Byte) : State :=
  let p := h.port.toNat
  let n := memberCount code run
  let payload := payloadLen code len opfmt run
  let need := 1 + (payload + 15) / 16
  let vc := if h.mgmt then 3 else 0
  if !coreOn s || numPorts s.variant ≤ p || !rdB s (R_PT_STAT p) PT_STAT_SESSION then s
  else if isPairPort s p then malformed s p
  else
    match opOfCode code with
    | none => malformed s p
    | some op =>
      if headerMalformed code len run then malformed s p
      else if (List.range n).any (fun k => (tagsOf s p).contains ((h.tag.toNat + k) % 4096)) then
        countSat (countSlots s p vc need) (2 + p) (R_PT_ERR p) PT_ERR_TAGDUP 1
      else if rxCredits s p vc < need then countSat (countSlots s p vc need) (2 + p) (R_PT_ERR p) PT_ERR_OVERRUN 1
      else
        let s := countSlots s p vc need
        let d := sliceBytes data 0 payload
        (List.range n).foldl (fun s k =>
          let slots := if isRun code then (if k = 0 then 1 else 0) + (if op = .write then 4 else 0) else need
          acceptMember s p (memberReq h code addr len mask opfmt tally d op k) slots) s

/-- READ (R45, R310). -/
def execReadReq (h : ReqHdr) (addr : BitVec 32) (len : BitVec 7) (s : State) : Host.Outcome State Fault Refusal :=
  .next (arriveUnit s h 0x01 addr.toNat len.toNat 0 0 false 0 [])
/-- WRITE (R45, R46). -/
def execWriteReq (h : ReqHdr) (addr : BitVec 32) (len : BitVec 7) (mask : BitVec 64) (data : List Byte) (s : State) :
    Host.Outcome State Fault Refusal := .next (arriveUnit s h 0x02 addr.toNat len.toNat mask 0 false 0 data)
/-- READ_RUN (R311). -/
def execReadRun (h : ReqHdr) (addr : BitVec 32) (len : BitVec 7) (run : BitVec 8) (s : State) : Host.Outcome State Fault Refusal :=
  .next (arriveUnit s h 0x03 addr.toNat len.toNat 0 0 false run.toNat [])
/-- WRITE_RUN (R311). -/
def execWriteRun (h : ReqHdr) (addr : BitVec 32) (len : BitVec 7) (run : BitVec 8) (data : List Byte) (s : State) :
    Host.Outcome State Fault Refusal := .next (arriveUnit s h 0x04 addr.toNat len.toNat 0 0 false run.toNat data)
/-- FADD (R71). -/
def execFaddReq (h : ReqHdr) (addr : BitVec 32) (len : BitVec 7) (data : List Byte) (s : State) : Host.Outcome State Fault Refusal :=
  .next (arriveUnit s h 0x10 addr.toNat len.toNat 0 0 false 0 data)
/-- FAND (R71). -/
def execFandReq (h : ReqHdr) (addr : BitVec 32) (len : BitVec 7) (data : List Byte) (s : State) : Host.Outcome State Fault Refusal :=
  .next (arriveUnit s h 0x11 addr.toNat len.toNat 0 0 false 0 data)
/-- FOR (R71). -/
def execForReq (h : ReqHdr) (addr : BitVec 32) (len : BitVec 7) (data : List Byte) (s : State) : Host.Outcome State Fault Refusal :=
  .next (arriveUnit s h 0x12 addr.toNat len.toNat 0 0 false 0 data)
/-- FXOR (R71). -/
def execFxorReq (h : ReqHdr) (addr : BitVec 32) (len : BitVec 7) (data : List Byte) (s : State) : Host.Outcome State Fault Refusal :=
  .next (arriveUnit s h 0x13 addr.toNat len.toNat 0 0 false 0 data)
/-- SWAP (R71). -/
def execSwapReq (h : ReqHdr) (addr : BitVec 32) (len : BitVec 7) (data : List Byte) (s : State) : Host.Outcome State Fault Refusal :=
  .next (arriveUnit s h 0x14 addr.toNat len.toNat 0 0 false 0 data)
/-- CAS (R71). -/
def execCasReq (h : ReqHdr) (addr : BitVec 32) (len : BitVec 7) (data : List Byte) (s : State) : Host.Outcome State Fault Refusal :=
  .next (arriveUnit s h 0x15 addr.toNat len.toNat 0 0 false 0 data)
/-- FMINS (R71). -/
def execFminsReq (h : ReqHdr) (addr : BitVec 32) (len : BitVec 7) (data : List Byte) (s : State) : Host.Outcome State Fault Refusal :=
  .next (arriveUnit s h 0x16 addr.toNat len.toNat 0 0 false 0 data)
/-- FMINU (R71). -/
def execFminuReq (h : ReqHdr) (addr : BitVec 32) (len : BitVec 7) (data : List Byte) (s : State) : Host.Outcome State Fault Refusal :=
  .next (arriveUnit s h 0x17 addr.toNat len.toNat 0 0 false 0 data)
/-- FMAXS (R71). -/
def execFmaxsReq (h : ReqHdr) (addr : BitVec 32) (len : BitVec 7) (data : List Byte) (s : State) : Host.Outcome State Fault Refusal :=
  .next (arriveUnit s h 0x18 addr.toNat len.toNat 0 0 false 0 data)
/-- FMAXU (R71). -/
def execFmaxuReq (h : ReqHdr) (addr : BitVec 32) (len : BitVec 7) (data : List Byte) (s : State) : Host.Outcome State Fault Refusal :=
  .next (arriveUnit s h 0x19 addr.toNat len.toNat 0 0 false 0 data)
/-- ACC (R96–R101). -/
def execAccReq (h : ReqHdr) (addr : BitVec 32) (len : BitVec 7) (opfmt : BitVec 4) (tally : Bool) (data : List Byte) (s : State) :
    Host.Outcome State Fault Refusal := .next (arriveUnit s h 0x20 addr.toNat len.toNat 0 opfmt.toNat tally 0 data)
/-- RDCV (R102). -/
def execRdcvReq (h : ReqHdr) (addr : BitVec 32) (len : BitVec 7) (s : State) : Host.Outcome State Fault Refusal :=
  .next (arriveUnit s h 0x21 addr.toNat len.toNat 0 0 false 0 [])
/-- FENCE (R68). -/
def execFenceReq (h : ReqHdr) (s : State) : Host.Outcome State Fault Refusal := .next (arriveUnit s h 0x30 0 0 0 0 false 0 [])

/-- MALFORMED_UNIT (R318). -/
def execMalformedUnit (port : BitVec 3) (s : State) : Host.Outcome State Fault Refusal :=
  let p := port.toNat
  if coreOn s && p < numPorts s.variant && rdB s (R_PT_STAT p) PT_STAT_SESSION then .next (malformed s p) else .next s

/-- ORDERED_RELEASE (R67): the oldest request of a (port, slot) that is held at decode and may go on. -/
def execOrderedRelease (port : BitVec 3) (slot : BitVec 2) (s : State) : Host.Outcome State Fault Refusal :=
  match s.heldOrd.find? (fun t => t.req.who = .port port.toNat slot.toNat && mayPass s t) with
  | some t => if coreOn s then .next (passDecode { s with heldOrd := s.heldOrd.filter (fun x => x.uid != t.uid) } t) else .next s
  | none => .next s

/-! ### Responses (R313–R315) -/

/-- Data that a response carries (R310, R314). -/
def responseData (t : Txn) : List Byte :=
  if t.status = .ok && returnsData t.req.op then t.data0 ++ t.data1 else []

/-- Pad bytes to whole slots. -/
def padSlots (bs : List Byte) : List Byte := sliceBytes bs 0 (16 * slotsOf bs)

/-- A response unit of one entry (R313). -/
def responseUnit (t : Txn) : List Byte :=
  let data := responseData t
  let w := t.req.tag + (whoSlot t.req.who) <<< 12 + (statusCode t.status) <<< 14 + (b01 t.ce) <<< 18 + (b01 (responseSup t)) <<< 19 +
    (b01 (!data.isEmpty)) <<< 20
  leBytes 1 (if t.req.mgmt then 0x82 else 0x81) ++ leBytes 3 w ++ leBytes 12 0 ++ padSlots data

/-- Slots of a channel that wait in a port's send queue. -/
def queuedSlots (l : Link) (vc : Nat) : Nat := (l.tx.filter (fun u => u.1 = vc)).foldl (fun n u => n + slotsOf u.2) 0

/-- Whether an earlier request of the (port, slot) of request `t` to a line of it is not answered, or, when `t` is a FENCE, any earlier one of
the session: `t` is answered after it (R65, R315). -/
def answeredAfter (s : State) (t : Txn) : Bool :=
  (s.txns ++ s.heldOrd).any (fun x => x.req.who = t.req.who && x.uid < t.uid && !x.lost && (t.req.op = .fence || shareLine x.req t.req))

/-- The response of a channel that fell due first (R315), of those that wait for no other (R65). -/
def nextDue (s : State) (p : Nat) (mgmt : Bool) : Option Txn :=
  match (dueOn s p).filter (fun t => t.req.mgmt = mgmt && !answeredAfter s t) with
  | [] => none
  | t :: ts =>
    let before (a b : Txn) : Bool := a.due.getD 0 < b.due.getD 0 || (a.due = b.due && a.uid < b.uid)
    some (ts.foldl (fun m x => if before x m then x else m) t)

/-- The occurrences of a response sent (R404), and INT_POISON.ANSWERS (R230). -/
def countResponse (s : State) (p : Nat) (t : Txn) : State :=
  let s := occur (occur s (if t.status = .ok then EV_RSP_OK else EV_RSP_OTHER)) (evPort p 1)
  let s := if t.ce then occur s EV_RSP_CE else s
  let s := if responseSup t then occur s EV_RSP_SUP else s
  if t.status = .poison then countSat s 0x11 R_INT_POISON INT_POISON_ANSWERS 1 else s

/-- Whether a channel's next response has the credits it needs. -/
def responseCredit (s : State) (p : Nat) (mgmt : Bool) (t : Txn) : Bool :=
  let vc := if mgmt then 3 else 1
  let l := linkOf s p
  decide (slotsOf (responseUnit t) + queuedSlots l vc ≤ txCredits l vc)

/-- A response joins the last response slot of its channel that waits to leave, when it has an empty entry: its own entry, and its data after the
others' (R313). `none` when it cannot. -/
def joinResponse (vc : Nat) (r : List Byte) : List (Nat × List Byte) → Option (List (Nat × List Byte))
  | [] => none
  | u :: us =>
    match joinResponse vc r us with
    | some us' => some (u :: us')
    | none =>
      let n := respEntries u.2
      if u.1 = vc && !us.any (fun x => x.1 = vc) && 1 ≤ n && n < 4 then
        some ((u.1, overlay u.2 (4 * n) (sliceBytes r 0 4) ++ r.drop 16) :: us)
      else none

/-- A response enters its channel's stream. One that finds a response slot of its channel still waiting with an entry free joins it (DESIGN
CHOICE, log entry 37). -/
def sendResponse (s : State) (p vc : Nat) (r : List Byte) : State :=
  match joinResponse vc r (linkOf s p).tx with
  | some tx => setLink s p { linkOf s p with tx := tx }
  | none => sendOn s p vc r

/-- RESPONSE_SEND (R313–R315): the response of the channel that fell due first is packed when it has credit. -/
def execResponseSend (port : BitVec 3) (mgmt : Bool) (s : State) : Host.Outcome State Fault Refusal :=
  let p := port.toNat
  match nextDue s p mgmt with
  | none => .next s
  | some t =>
    if coreOn s && portUp s p && rdB s (R_PT_STAT p) PT_STAT_CREDITED && responseCredit s p mgmt t then
      let s := samplePacked s p t
      let s := countResponse (settleFences { s with txns := s.txns.filter (fun x => x.uid != t.uid) }) p t
      let s := sendResponse s p (if mgmt then 3 else 1) (responseUnit t)
      .next (emit s (.response p mgmt (whoSlot t.req.who) t.req.tag t.status t.ce (responseSup t) (responseData t)))
    else .next s

end Sys2Proof.Machine
end

