-- ==== Sys2Proof/Machine/Link.lean ====
section
/-! DEFINITION. Flits (R291–R304): forward error correction and CRC, the slot stream and its units, acknowledgement and replay. -/

namespace Sys2Proof.Machine

/-! ### FEC (R294) and CRC (R295) -/

/-- Multiplication by β in GF(2^8). -/
def gfDouble (a : Nat) : Nat := if a < 128 then 2 * a else (2 * a - 256) ^^^ 0x1D

/-- The bytes of code `j` of a flit, in ascending order. -/
def codeBytes (bs : List Byte) (j : Nat) : List Nat :=
  ((List.range bs.length).filter (fun i => i % 3 = j)).map (fun i => (bs.getD i 0).toNat)

/-- One message byte through the division by g(x): the remainder as (coefficient of x, constant). -/
def fecStep (r : Nat × Nat) (c : Nat) : Nat × Nat :=
  let f := c ^^^ r.1
  (r.2 ^^^ gfDouble f ^^^ f, gfDouble f)

/-- Check bytes of a code from its other bytes. -/
def fecCheck (m : List Nat) : Nat × Nat := m.foldl fecStep (0, 0)

/-- The syndromes S0 and S1 of a code. -/
def fecSyndromes (c : List Nat) : Nat × Nat := (c.foldl (fun a x => a ^^^ x) 0, c.foldl (fun a x => gfDouble a ^^^ x) 0)

/-- `a` times β to the `n`. -/
def gfShift (a : Nat) : Nat → Nat
  | 0 => a
  | n + 1 => gfDouble (gfShift a n)

/-- The place of the one wrong byte of a code: `some none` for a clean code, `none` for an uncorrectable one. -/
def fecLocate (c : List Nat) : Option (Option (Nat × Nat)) :=
  let (s0, s1) := fecSyndromes c
  if s0 = 0 && s1 = 0 then some none
  else if s0 = 0 || s1 = 0 then none
  else
    match (List.range c.length).find? (fun j => gfShift s0 j = s1) with
    | some j => some (some (c.length - 1 - j, s0))
    | none => none

/-- Decode one code of a flit: the flit corrected, and whether a byte was; `none` when it is uncorrectable. -/
def fecCode (bs : List Byte) (j : Nat) : Option (List Byte × Bool) :=
  match fecLocate (codeBytes bs j) with
  | none => none
  | some none => some (bs, false)
  | some (some (k, e)) => some (setAt bs (3 * k + j) ((bs.getD (3 * k + j) 0) ^^^ BitVec.ofNat 8 e), true)

/-- Decode the three codes. -/
def fecDecode (bs : List Byte) : Option (List Byte × Bool) :=
  [0, 1, 2].foldl (fun acc j => match acc with
    | none => none
    | some (b, fixed) => (fecCode b j).map (fun r => (r.1, fixed || r.2))) (some (bs, false))

/-- A flit from its header and slots: CRC and check bytes follow (R292). -/
def flitBytes (hdr : Nat) (slots : List Byte) : List Byte :=
  let body := leBytes 2 hdr ++ sliceBytes slots 0 240
  let bs := body ++ leBytes 8 (crc64 body)
  let r (j : Nat) : Nat × Nat := fecCheck (codeBytes bs j)
  bs ++ [(r 1).1, (r 2).1, (r 0).1, (r 1).2, (r 2).2, (r 0).2].map (BitVec.ofNat 8)

/-- Slot `k` of a flit. -/
def flitSlot (bs : List Byte) (k : Nat) : List Byte := sliceBytes bs (2 + 16 * k) 16

/-! ### Units (R296, R297, R318, R329) -/

/-- Ones among the low `n` bits. -/
def popCount (x n : Nat) : Nat := ((List.range n).filter (bitOf x)).length

/-- Slots of a request unit with its leading slot; `none` when it is malformed. -/
def requestSlots (b : List Byte) : Option Nat :=
  let code := byteOf b 0
  let len := byteOf b 1 % 128
  let run := byteOf b 8
  if headerMalformed code len run then none else some (1 + (payloadLen code len (run % 16) run + 15) / 16)

/-- Slots of a pair unit. -/
def pairSlots (b : List Byte) : Option Nat :=
  match byteOf b 0 with
  | 0xA0 => some (1 + 4 * popCount (leNat (sliceBytes b 8 2)) 16)
  | 0xA1 => some 2
  | 0xA2 => some (1 + 2 * popCount (byteOf b 6) 7)
  | 0xA3 => some 5
  | 0xA4 => some 1
  | 0xA5 => some 1
  | 0xA6 => some 1
  | 0xA7 => some (if bitOf (byteOf b 1) 0 then 5 else 1)
  | _ => none

/-- Slots of the unit that a leading slot begins on a port. -/
def unitSlots (s : State) (p : Nat) (b : List Byte) : Option Nat := if isPairPort s p then pairSlots b else requestSlots b

/-- A request unit from its bytes (R309). -/
def takeRequest (s : State) (p : Nat) (b : List Byte) : State :=
  let w := leNat (sliceBytes b 2 2)
  let h : ReqHdr := { port := BitVec.ofNat 3 p, slot := BitVec.ofNat 2 (w / 4096), tag := BitVec.ofNat 12 w, ord := bitOf w 14,
                      mgmt := bitOf (byteOf b 1) 7 }
  arriveUnit s h (byteOf b 0) (leNat (sliceBytes b 4 4)) (byteOf b 1 % 128) (BitVec.ofNat 64 (leNat (sliceBytes b 8 8)))
    (byteOf b 8 % 16) (bitOf w 15) (byteOf b 8) (b.drop 16)

/-- The state that an outcome carries on with. -/
def stateAfter (s : State) (o : Host.Outcome State Fault Refusal) : State :=
  match o with
  | .next t => t
  | _ => s

/-- UTAGs of the entries of an ACCEPT slot. -/
def acceptTags (b : List Byte) : List (BitVec 12) :=
  ([0, 4, 8, 12].filter (fun i => byteOf b i = 0xA5)).map (fun i => BitVec.ofNat 12 (leNat (sliceBytes b (i + 1) 2)))

/-- A pair unit from its bytes (R329). -/
def takePairUnit (s : State) (p : Nat) (b : List Byte) : State :=
  let port := BitVec.ofNat 3 p
  let utag := BitVec.ofNat 12 (leNat (sliceBytes b 2 2))
  let a4 := leNat (sliceBytes b 4 4)
  let n := BitVec.ofNat 16 (leNat (sliceBytes b 4 2))
  match byteOf b 0 with
  | 0xA0 => stateAfter s (execLinesUnit port utag (BitVec.ofNat 32 a4) (BitVec.ofNat 16 (leNat (sliceBytes b 8 2))) (b.drop 16) s)
  | 0xA1 => stateAfter s (execSemUnit port utag n (w64 (leNat (sliceBytes b 16 8))) (w64 (leNat (sliceBytes b 24 8))) s)
  | 0xA2 => stateAfter s (execMbxUnit port utag n (BitVec.ofNat 7 (byteOf b 6)) (bitOf (byteOf b 7) 0) (b.drop 16) s)
  | 0xA3 => stateAfter s (execVatUnit port utag n (b.drop 16) s)
  | 0xA4 => stateAfter s (execHelloUnit port (helloOf b) s)
  | 0xA5 => stateAfter s (execAcceptUnit port (acceptTags b) s)
  | 0xA6 => stateAfter s (execHealReq port utag (BitVec.ofNat 32 a4) s)
  | _ => stateAfter s (execHealData port utag (BitVec.ofNat 32 a4) (bitOf (byteOf b 1) 0) (b.drop 16) s)

/-- A whole unit has arrived; its own step counts its slots (R307). -/
def takeUnit (s : State) (p : Nat) (b : List Byte) : State :=
  let l := linkOf s p
  let s := setLink s p { l with partialUnit := [], needSlots := 0 }
  if isPairPort s p then takePairUnit s p b else takeRequest s p b

/-- The next slot of the stream. -/
def takeSlot (s : State) (p : Nat) (slot : List Byte) : State :=
  let l := linkOf s p
  if l.resync then s
  else if l.needSlots != 0 then
    let b := l.partialUnit ++ slot
    if l.needSlots = 1 then takeUnit s p b else setLink s p { l with partialUnit := b, needSlots := l.needSlots - 1 }
  else if byteOf slot 0 = 0 then s
  else
    match unitSlots s p slot with
    | none => malformed s p
    | some 1 => takeUnit s p slot
    | some n => setLink s p { l with partialUnit := slot, needSlots := n - 1 }

/-! ### Traffic (R273, R275, R296) -/

/-- Note a flit received, and whether a slot of it is in use. -/
def noteReceived (s : State) (p : Nat) (used : Bool) : State :=
  let h := phyOf s p
  let us := s.time / 1600
  let cell := (h.traffic.find? (fun t => t.1 = us)).getD (us, 0, 0)
  let rest := h.traffic.filter (fun t => t.1 != us && decide (us < t.1 + 65536))
  let s := setPhy s p { h with traffic := (us, cell.2.1 + 1, cell.2.2 + b01 used) :: rest,
                               idleSince := if used then s.time else h.idleSince }
  if used then occur s (evPort p 5) else s

/-- Whether a sequenced flit has a slot in use. -/
def slotsUsed (s : State) (p : Nat) (bs : List Byte) (from_ : Nat) : Bool :=
  (linkOf s p).needSlots != 0 || (List.range (15 - from_)).any (fun i => byteOf (flitSlot bs (from_ + i)) 0 != 0)

/-! ### Link control slots (R299) -/

/-- What an ACK of `a` frees. -/
def ackUpTo (s : State) (p a : Nat) : State :=
  let l := linkOf s p
  match l.kept.findIdx? (fun k => k.fseq = a) with
  | none => s
  | some i =>
    let gone := l.kept.take (i + 1)
    let fs := gone.map (fun k => k.fseq)
    let s := setLink s p { startReplayTimer s p l with
                                  kept := l.kept.drop (i + 1)
                                  replayNext := match l.replayNext with
                                    | some j => if l.kept.length ≤ i + 1 then none else some (j - (i + 1))
                                    | none => none
                                  limitFlit := match l.limitFlit with
                                    | some f => if fs.contains f then none else some f
                                    | none => none }
    let s := { s with pushes := (s.pushes.map (fun w =>
      if w.port = p && (match w.lastFseq with | some f => fs.contains f | none => false) then { w with acked := true } else w)).filter (fun w =>
        !(w.acked && w.run = 2 ^ 32)) }
    let s := if (linkOf s p).replayNext.isNone then wrB s (R_PT_STAT p) PT_STAT_TX_REPLAY false else s
    wrB (wrF s (R_PT_TXSEQ p) PT_TXSEQ_ACKED a) (R_PT_TXSEQ p) PT_TXSEQ_ACKED_V true

/-- Apply a received link control slot (R299–R302, R306, R307). -/
def applyControl (s : State) (p : Nat) (b : List Byte) : State :=
  let w := leNat (sliceBytes b 0 2)
  let cs := [2, 4, 6, 8].map (fun i => leNat (sliceBytes b i 2))
  let s := if bitOf w 9 then ackUpTo s p (w % 512) else s
  let s := if bitOf w 11 then wrB (setLink s p { linkOf s p with partnerSize := cs }) (R_PT_STAT p) PT_STAT_CREDITED true
    else setLink s p { linkOf s p with partnerC := cs }
  if bitOf w 10 then setLink s p { linkOf s p with replayDue := true } else s

/-- Whether a link control slot gives the buffer sizes: until the partner's INIT has arrived, and at least once in a session (R306). -/
def initDue (s : State) (p : Nat) : Bool := !rdB s (R_PT_STAT p) PT_STAT_CREDITED || !(linkOf s p).initSent

/-- The link control slot to send: ACK, NAK, INIT and the C fields or the sizes. -/
def controlSlot (s : State) (p : Nat) : List Byte :=
  let l := linkOf s p
  let init := initDue s p
  let e := rdF s (R_PT_RXSEQ p) PT_RXSEQ_EXPECTED
  leBytes 2 ((e + 511) % 512 + (b01 l.rxAckValid) <<< 9 + (b01 l.nakDue) <<< 10 + (b01 init) <<< 11) ++
    [0, 1, 2, 3].flatMap (fun vc => leBytes 2 (if init then rxSize s p vc else freedSlots s p vc)) ++ leBytes 6 0

/-- Whether the next flit carries a link control slot (R300, R301, R306). -/
def controlDue (s : State) (p : Nat) : Bool :=
  let l := linkOf s p
  initDue s p || 8 ≤ l.rxSinceAck || l.lcsDue || l.nakDue ||
  [0, 1, 2, 3].any (fun vc => vcOf l.freed vc != freedSlots s p vc)

/-- A link control slot has been sent. -/
def controlSent (s : State) (p : Nat) : State :=
  let l := linkOf s p
  let init := initDue s p
  let s := if l.nakDue then countSat s (2 + p) (R_PT_REPLAY p) PT_REPLAY_NAKS 1 else s
  setLink s p { l with rxSinceAck := 0, unackedSince := none, lcsDue := !rdB s (R_PT_STAT p) PT_STAT_CREDITED,
                       nakDue := false, initSent := true, nakSentAt := if l.nakDue then some s.time else l.nakSentAt,
                       nakNs := if l.nakDue then rdF s (R_PT_CTL p) PT_CTL_REPLAY_NS else l.nakNs,
                       freed := if init then l.freed else [0, 1, 2, 3].map (freedSlots s p) }

/-! ### Receiving (R295, R300, R301) -/

/-- A flit that is not taken while the receiver is not waiting: a NAK is due (R301). -/
def askReplay (s : State) (p : Nat) : State :=
  if rdB s (R_PT_STAT p) PT_STAT_RX_WAIT then s
  else wrB (setLink s p { linkOf s p with nakDue := true }) (R_PT_STAT p) PT_STAT_RX_WAIT true

/-- A flit accepted in order: its slots join the stream. -/
def acceptFlit (s : State) (p : Nat) (bs : List Byte) (lcs : Bool) (first : Nat) : State :=
  let from_ := if lcs then 1 else 0
  let l := linkOf s p
  let s := wrF (wrB s (R_PT_STAT p) PT_STAT_RX_WAIT false) (R_PT_RXSEQ p) PT_RXSEQ_EXPECTED (rdF s (R_PT_RXSEQ p) PT_RXSEQ_EXPECTED + 1)
  let start := if l.resync && first != 15 then max first from_ else from_
  let s := setLink s p { l with rxAckValid := true, rxSinceAck := l.rxSinceAck + 1, nakSentAt := none,
                                unackedSince := if l.unackedSince.isSome then l.unackedSince else some s.time,
                                resync := l.resync && first = 15 }
  let s := noteReceived s p (slotsUsed s p bs from_)
  (List.range (15 - start)).foldl (fun s i => takeSlot s p (flitSlot bs (start + i))) s

/-- FLIT_RECEIVE (R293, R295, R300, R301): the flit that the lanes' symbols carry. -/
def execFlitReceive (port : BitVec 3) (symbols : List (List (BitVec 2))) (s : State) : Host.Outcome State Fault Refusal :=
  let p := port.toNat
  let bytes := receivedFlit s p symbols
  let bad (s : State) : State :=
    askReplay (occur (countSat (noteReceived s p false) (2 + p) (R_PT_FLITS p) PT_FLITS_BAD 1) (evPort p 3)) p
  if coreOn s && portUp s p && !inEi s p && rdB s (R_PT_STAT p) PT_STAT_SESSION then
    let s := flitTaken s p symbols
    match fecDecode bytes with
    | none => .next (bad s)
    | some (bs, fixed) =>
      let hdr := leNat (sliceBytes bs 0 2)
      let kind := hdr / 512 % 4
      if crc64 (bs.take 242) != leNat (sliceBytes bs 242 8) || kind = 3 then .next (bad s)
      else
        let s := if fixed then countSat s (2 + p) (R_PT_FLITS p) PT_FLITS_FEC_FIXED 1 else s
        let lcs := bitOf hdr 11
        let s := if lcs then applyControl s p (flitSlot bs 0) else s
        if kind = 0 then .next (noteReceived s p false)
        else if hdr % 512 = rdF s (R_PT_RXSEQ p) PT_RXSEQ_EXPECTED then .next (acceptFlit s p bs lcs (hdr / 4096))
        else .next (askReplay (noteReceived s p false) p)
  else .next s

/-- NAK_TIMEOUT (R301): REPLAY_NS has passed since the NAK without an accepted flit. -/
def execNakTimeout (port : BitVec 3) (s : State) : Host.Outcome State Fault Refusal :=
  let p := port.toNat
  let l := linkOf s p
  match l.nakSentAt with
  | none => .next s
  | some t =>
    if portUp s p && rdB s (R_PT_STAT p) PT_STAT_RX_WAIT && nsPassed s t l.nakNs then
      .next (setLink s p { l with nakDue := true, nakSentAt := none })
    else .next s

/-- ACK_TIMEOUT (R300): 64 ns have passed since a flit was accepted that is not acknowledged. -/
def execAckTimeout (port : BitVec 3) (s : State) : Host.Outcome State Fault Refusal :=
  let p := port.toNat
  let l := linkOf s p
  match l.unackedSince with
  | none => .next s
  | some t => if portUp s p && nsPassed s t 64 then .next (setLink s p { l with lcsDue := true }) else .next s

/-! ### Sending (R296, R298, R302, R307) -/

/-- What a NEW flit is filled with: slots, how many of its first slots continue a unit, units that end in it, what is left of the last
one, the units still waiting and the slots sent by channel. -/
structure Fill where
  slots : List (List Byte)
  cont : Nat
  ended : List (List Byte)
  part : Option TxPart
  tx : List (Nat × List Byte)
  sent : List Nat

/-- Cut bytes into slots. -/
def toSlots (bs : List Byte) : List (List Byte) := (List.range (slotsOf bs)).map (fun k => sliceBytes bs (16 * k) 16)

/-- Put the rest of a unit into a flit with room for `room` slots. -/
def fillPart (f : Fill) (t : TxPart) (room : Nat) : Fill :=
  let n := slotsOf t.rest
  let f := { f with slots := f.slots ++ (toSlots t.rest).take room }
  if n ≤ room then { f with ended := f.ended ++ [t.unit], part := none } else { f with part := some { t with rest := t.rest.drop (16 * room) } }

/-- The first waiting unit that its channel has credits for; no unit passes another of its channel. -/
def nextUnit (l : Link) (sent : List Nat) : List (Nat × List Byte) → List Nat → Option (Nat × List Byte)
  | [], _ => none
  | u :: us, blocked =>
    if !blocked.contains u.1 && slotsOf u.2 ≤ txCredits { l with sent := sent } u.1 then some u else nextUnit l sent us (u.1 :: blocked)

/-- Fill a flit, with at most `fuel` units begun. -/
def fillUnits (l : Link) : Nat → Nat → Fill → Fill
  | 0, _, f => f
  | fuel + 1, cap, f =>
    if f.part.isSome || cap ≤ f.slots.length then f
    else
      match nextUnit l f.sent f.tx [] with
      | none => f
      | some u =>
        let f := { f with tx := f.tx.erase u, sent := vcAdd f.sent u.1 (slotsOf u.2) }
        fillUnits l fuel cap (fillPart f ⟨u.1, u.2, u.2⟩ (cap - f.slots.length))

/-- The contents of the next NEW flit with room for `cap` slots. -/
def fillFlit (l : Link) (cap : Nat) : Fill :=
  let f : Fill := { slots := [], cont := 0, ended := [], part := none, tx := l.tx, sent := l.sent }
  let f := match l.txPart with
    | some t => let g := fillPart f t cap; { g with cont := g.slots.length }
    | none => f
  fillUnits l 15 cap f

/-- A flit leaves; a link control slot it carries has been sent. -/
def sendFlit (s : State) (p hdr : Nat) (slots : List Byte) (lcs : Bool) : State :=
  let s := sendFlitBlocks s p (flitBytes hdr slots)
  if lcs then controlSent s p else s

/-- An IDLE flit, with a link control slot when one is due (R296). -/
def sendIdle (s : State) (p : Nat) : State :=
  let lcs := controlDue s p
  let hdr := rdF s (R_PT_TXSEQ p) PT_TXSEQ_NEXT + (b01 lcs) <<< 11 + (if lcs then 1 else 0) <<< 12
  sendFlit s p hdr (if lcs then controlSlot s p else []) lcs

/-- A flit with slots in use has been sent. -/
def noteSent (s : State) (p : Nat) : State :=
  occur (setPhy s p { phyOf s p with idleSince := s.time }) (evPort p 6)

/-- A kept flit is sent again (R302). -/
def sendReplay (s : State) (p i : Nat) (k : KeptFlit) : State :=
  let l := linkOf s p
  let last := l.kept.length ≤ i + 1
  let slots := if k.lcs then controlSlot s p ++ k.slots.drop 16 else k.slots
  let s := sendFlit s p (k.fseq + 2 <<< 9 + (b01 k.lcs) <<< 11 + k.first <<< 12) slots k.lcs
  let l := linkOf s p
  let s := setLink s p { l with kept := setAt l.kept i { k with resent := k.resent + 1 }, replayNext := if last then none else some (i + 1) }
  let s := occur (countSat s (2 + p) (R_PT_REPLAY p) PT_REPLAY_REPLAYED 1) (evPort p 4)
  noteSent (if last then wrB s (R_PT_STAT p) PT_STAT_TX_REPLAY false else s) p

/-- The first PUSH message of a port that is not sent and has these bytes notes the FSEQ of its flit: messages leave in the order in which they
stand (R164, R317). -/
def notePush (p fseq : Nat) (u : List Byte) : List PushWait → List PushWait
  | [] => []
  | w :: ws => if w.port = p && w.lastFseq.isNone && w.unit = u then { w with lastFseq := some fseq } :: ws else w :: notePush p fseq u ws

/-- A PUSH message whose last slot is in a flit notes its FSEQ (R164). -/
def notePushes (s : State) (p fseq : Nat) (ended : List (List Byte)) : State :=
  { s with pushes := ended.foldl (fun ws u => notePush p fseq u ws) s.pushes }

/-- A NEW flit of units that wait (R296, R298, R302). -/
def sendNew (s : State) (p : Nat) (f : Fill) (lcs : Bool) : State :=
  let fseq := rdF s (R_PT_TXSEQ p) PT_TXSEQ_NEXT
  let from_ := if lcs then 1 else 0
  let first := if from_ + f.cont < 15 then from_ + f.cont else 15
  let slots := sliceBytes ((if lcs then controlSlot s p else []) ++ f.slots.flatten) 0 240
  let k : KeptFlit := { fseq := fseq, slots := slots, lcs := lcs, first := first, resent := 0,
                        resps := f.ended.foldl (fun n u => n + respEntries u) 0 }
  let s := sendFlit s p (fseq + 1 <<< 9 + (b01 lcs) <<< 11 + first <<< 12) slots lcs
  let l := linkOf s p
  let l := if l.kept.isEmpty then startReplayTimer s p l else l
  let s := setLink s p { l with kept := l.kept ++ [k], tx := f.tx, txPart := f.part, sent := f.sent }
  noteSent (notePushes (wrF s (R_PT_TXSEQ p) PT_TXSEQ_NEXT (fseq + 1)) p fseq f.ended) p

/-- Whether a port completes an entry to electrical idle: a flit that falls due waits for it (R277). -/
def enteringEi (s : State) (p : Nat) : Bool := (phyOf s p).eiAsked && (phyOf s p).eiMeets.isSome

/-- FLIT_SEND (R277, R296, R300–R302, R306): the next flit of a port. A kept flit without a link control slot waits for an IDLE flit that
carries one. -/
def execFlitSend (port : BitVec 3) (s : State) : Host.Outcome State Fault Refusal :=
  let p := port.toNat
  let l := linkOf s p
  if coreOn s && portUp s p && !inEi s p && !enteringEi s p && rdB s (R_PT_STAT p) PT_STAT_SESSION then
    if initDue s p then .next (sendIdle s p)
    else
      match l.replayNext with
      | some i =>
        match l.kept[i]? with
        | some k => .next (if controlDue s p && !k.lcs then sendIdle s p else sendReplay s p i k)
        | none => .next (sendIdle s p)
      | none =>
        let lcs := controlDue s p
        let f := fillFlit l (if lcs then 14 else 15)
        .next (if f.slots.isEmpty || 256 ≤ l.kept.length then sendIdle s p else sendNew s p f lcs)
  else .next s

/-- REPLAY (R302, R303): a NAK, or no ACK for REPLAY_NS, starts a replay; a ninth time is a retrain. -/
def execReplayFlits (port : BitVec 3) (s : State) : Host.Outcome State Fault Refusal :=
  let p := port.toNat
  let l := linkOf s p
  let late := nsPassed s l.progressAt l.progressNs
  if coreOn s && portUp s p && (l.replayDue || (!l.kept.isEmpty && late)) then
    match l.kept with
    | [] => .next (setLink s p { l with replayDue := false })
    | _ :: _ => .next (replayKept s p)
  else .next s

end Sys2Proof.Machine
end

