-- ==== Sys2Proof/Machine/RegWrites.lean ====
section
/-! DEFINITION. The rows that are accesses of one register (R31, R35–R38): a write by an agent on a port is a WRITE unit to the
register's address in one of the views, a write by the SC is its own access. A row for an action bit sets that bit in the value. -/

namespace Sys2Proof.Machine

/-- Base of a view of the register space (R30). -/
def viewBase (unpriv : Bool) : Nat := if unpriv then 0xFF000000 else 0xFF800000

/-- Whether the SC runs: it is powered, clocked and out of reset, and has not halted (R23, R435). -/
def scRuns (s : State) : Bool := coreOn s && !s.power.scHalted

/-- A write of a register by an agent on a port, or by the SC. -/
def writeBy (s : State) (by_ : RegBy) (key : Nat) (v : Word64) : State :=
  match by_ with
  | .port h unpriv => arriveUnit s h 0x02 (viewBase unpriv + key) 8 (BitVec.allOnes 64) 0 false 0 (leBytes 8 v.toNat)
  | .sc => if scRuns s then scPost s (scReq .write key v) else s

/-- A read of a register by an agent on a port, or by the SC. -/
def readBy (s : State) (by_ : RegBy) (key : Nat) : State :=
  match by_ with
  | .port h unpriv => arriveUnit s h 0x01 (viewBase unpriv + key) 8 0 0 false 0 []
  | .sc => if scRuns s then scPost s (scReq .read key 0) else s

/-- A word with the bits of a field set. -/
def withAction (v : Word64) (f : Fld) : Word64 := v ||| fldMask f

/-- TGT_CLAIM (R208): a read of TGT_CLAIM. -/
def execTgtClaim (by_ : RegBy) (t : BitVec 6) (s : State) : Host.Outcome State Fault Refusal :=
  .next (readBy s by_ (R_TGT_CLAIM t.toNat))

/-- SEM_CLEAR (R93). -/
def execSemClear (by_ : RegBy) (v : Word64) (s : State) : Host.Outcome State Fault Refusal :=
  .next (writeBy s by_ R_SEM_CLEAR (withAction v SEM_CLEAR_START))

/-- SEM_STAT_CLEAR (R92). -/
def execSemStatClear (by_ : RegBy) (v : Word64) (s : State) : Host.Outcome State Fault Refusal :=
  .next (writeBy s by_ R_SEM_CTL (withAction v SEM_CTL_STAT_CLEAR))

/-- MBX_CLEAR (R132). -/
def execMbxClear (by_ : RegBy) (v : Word64) (s : State) : Host.Outcome State Fault Refusal :=
  .next (writeBy s by_ R_MBX_CLEAR (withAction v MBX_CLEAR_START))

/-- MBX_STAT_CLEAR (R131). -/
def execMbxStatClear (by_ : RegBy) (v : Word64) (s : State) : Host.Outcome State Fault Refusal :=
  .next (writeBy s by_ R_MBX_GCTL (withAction v MBX_GCTL_STAT_CLEAR))

/-- ARB_STAT_CLEAR (R70). -/
def execArbStatClear (by_ : RegBy) (v : Word64) (s : State) : Host.Outcome State Fault Refusal :=
  .next (writeBy s by_ R_ARB_CTL (withAction v ARB_CTL_STAT_CLEAR))

/-- VAT_CTL_WRITE (R118). -/
def execVatCtlWrite (by_ : RegBy) (vat : BitVec 10) (v : Word64) (s : State) : Host.Outcome State Fault Refusal :=
  .next (writeBy s by_ (R_VAT_CTL vat.toNat) v)

/-- REARM (R113). -/
def execVatRearm (by_ : RegBy) (vat : BitVec 10) (v : Word64) (s : State) : Host.Outcome State Fault Refusal :=
  .next (writeBy s by_ (R_VAT_CTL vat.toNat) (withAction v VAT_CTL_REARM))

/-- VAT_STAT_CLEAR (R116). -/
def execVatStatClear (by_ : RegBy) (vat : BitVec 10) (v : Word64) (s : State) : Host.Outcome State Fault Refusal :=
  .next (writeBy s by_ (R_VAT_CTL vat.toNat) (withAction v VAT_CTL_STAT_CLEAR))

/-- REGISTER_WRITE (R31): a write of any register. MG_CHAINADDR, MG_GRANT, MG_PORTEN and MG_CONSOLE the SC writes only on a command of a
keeper-level session (R399), which is a row of its own. -/
def execRegisterWrite (by_ : RegBy) (key : BitVec 23) (v : Word64) (s : State) : Host.Outcome State Fault Refusal :=
  if by_ = .sc && scOnlyKey key.toNat then .next s else .next (writeBy s by_ key.toNat v)

/-- Q_TAIL_WRITE (R137). -/
def execQTailWrite (by_ : RegBy) (e : BitVec 4) (q : BitVec 2) (v : Word64) (s : State) : Host.Outcome State Fault Refusal :=
  .next (writeBy s by_ (R_Q_TAIL e.toNat q.toNat) v)

/-- Q_CFG_WRITE (R141). -/
def execQCfgWrite (by_ : RegBy) (e : BitVec 4) (q : BitVec 2) (v : Word64) (s : State) : Host.Outcome State Fault Refusal :=
  .next (writeBy s by_ (R_Q_CFG e.toNat q.toNat) v)

/-- STOP (R169). -/
def execStopQueue (by_ : RegBy) (e : BitVec 4) (q : BitVec 2) (v : Word64) (s : State) : Host.Outcome State Fault Refusal :=
  .next (writeBy s by_ (R_Q_CTL e.toNat q.toNat) (withAction v Q_CTL_STOP))

/-- GO (R169). -/
def execGoQueue (by_ : RegBy) (e : BitVec 4) (q : BitVec 2) (v : Word64) (s : State) : Host.Outcome State Fault Refusal :=
  .next (writeBy s by_ (R_Q_CTL e.toNat q.toNat) (withAction v Q_CTL_GO))

/-- RESUME_RETRY (R168). -/
def execResumeRetry (by_ : RegBy) (e : BitVec 4) (q : BitVec 2) (v : Word64) (s : State) : Host.Outcome State Fault Refusal :=
  .next (writeBy s by_ (R_Q_CTL e.toNat q.toNat) (withAction v Q_CTL_RESUME_RETRY))

/-- RESUME_SKIP (R168). -/
def execResumeSkip (by_ : RegBy) (e : BitVec 4) (q : BitVec 2) (v : Word64) (s : State) : Host.Outcome State Fault Refusal :=
  .next (writeBy s by_ (R_Q_CTL e.toNat q.toNat) (withAction v Q_CTL_RESUME_SKIP))

/-- OFFLINE (R170). -/
def execOfflineWrite (by_ : RegBy) (e : BitVec 4) (v : Word64) (s : State) : Host.Outcome State Fault Refusal :=
  .next (writeBy s by_ (R_ENG_CTL e.toNat) v)

/-- ENGINE_RESET (R171). -/
def execEngineReset (by_ : RegBy) (e : BitVec 4) (v : Word64) (s : State) : Host.Outcome State Fault Refusal :=
  .next (writeBy s by_ (R_ENG_CTL e.toNat) (withAction v ENG_CTL_RESET))

/-- MC_CTL_WRITE (R194). -/
def execMcCtlWrite (by_ : RegBy) (ctx : BitVec 8) (v : Word64) (s : State) : Host.Outcome State Fault Refusal :=
  .next (writeBy s by_ (R_MC_CTL ctx.toNat) v)

/-- MC_STAT_CLEAR (R193). -/
def execMcStatClear (by_ : RegBy) (v : Word64) (s : State) : Host.Outcome State Fault Refusal :=
  .next (writeBy s by_ R_MC_GCTL (withAction v MC_GCTL_STAT_CLEAR))

/-- SET_PEND (R199). -/
def execSetPend (by_ : RegBy) (src : BitVec 13) (v : Word64) (s : State) : Host.Outcome State Fault Refusal :=
  .next (writeBy s by_ (R_SRC_ENTRY src.toNat) (withAction v SRC_ENTRY_SET_PEND))

/-- PENDING_CLEAR (R199). -/
def execPendingClear (by_ : RegBy) (src : BitVec 13) (v : Word64) (s : State) : Host.Outcome State Fault Refusal :=
  .next (writeBy s by_ (R_SRC_ENTRY src.toNat) (withAction v SRC_ENTRY_PENDING))

/-- TARGET_WRITE (R212). -/
def execTargetWrite (by_ : RegBy) (src : BitVec 13) (v : Word64) (s : State) : Host.Outcome State Fault Refusal :=
  .next (writeBy s by_ (R_SRC_ENTRY src.toNat) v)

/-- TGT_EOI (R210). -/
def execTgtEoi (by_ : RegBy) (t : BitVec 6) (v : Word64) (s : State) : Host.Outcome State Fault Refusal :=
  .next (writeBy s by_ (R_TGT_EOI t.toNat) v)

/-- ASLEEP_WRITE (R204). -/
def execAsleepWrite (by_ : RegBy) (t : BitVec 6) (v : Word64) (s : State) : Host.Outcome State Fault Refusal :=
  .next (writeBy s by_ (R_TGT_CTL t.toNat) v)

/-- LOG_CLEAR (R229). -/
def execLogClear (by_ : RegBy) (v : Word64) (s : State) : Host.Outcome State Fault Refusal :=
  .next (writeBy s by_ R_INT_CTL (withAction v INT_CTL_LOG_CLEAR))

/-- INT_STAT_CLEAR (R240). -/
def execIntStatClear (by_ : RegBy) (v : Word64) (s : State) : Host.Outcome State Fault Refusal :=
  .next (writeBy s by_ R_INT_CTL (withAction v INT_CTL_STAT_CLEAR))

/-- INT_INJECT_WRITE (R239). -/
def execIntInjectWrite (by_ : RegBy) (v : Word64) (s : State) : Host.Outcome State Fault Refusal :=
  .next (writeBy s by_ R_INT_INJECT v)

/-- TST_CMD_START (R252). -/
def execTstCmdStart (by_ : RegBy) (v : Word64) (s : State) : Host.Outcome State Fault Refusal :=
  .next (writeBy s by_ R_TST_CMD (withAction v TST_CMD_START))

/-- ABORT (R252). -/
def execAbortTest (by_ : RegBy) (v : Word64) (s : State) : Host.Outcome State Fault Refusal :=
  .next (writeBy s by_ R_TST_CTL (withAction v TST_CTL_ABORT))

/-- TST_STAT_CLEAR (R261). -/
def execTstStatClear (by_ : RegBy) (v : Word64) (s : State) : Host.Outcome State Fault Refusal :=
  .next (writeBy s by_ R_TST_CTL (withAction v TST_CTL_STAT_CLEAR))

/-- RMP_CMD_GO (R254). -/
def execRmpCmdGo (by_ : RegBy) (v : Word64) (s : State) : Host.Outcome State Fault Refusal :=
  .next (writeBy s by_ R_RMP_CMD (withAction v RMP_CMD_GO))

/-- RET_CMD_START (R255). -/
def execRetCmdStart (by_ : RegBy) (v : Word64) (s : State) : Host.Outcome State Fault Refusal :=
  .next (writeBy s by_ R_RET_CMD (withAction v RET_CMD_START))

/-- TST_ENG_GO (R260). -/
def execTstEngGo (by_ : RegBy) (v : Word64) (s : State) : Host.Outcome State Fault Refusal :=
  .next (writeBy s by_ R_TST_ENG (withAction v TST_ENG_GO))

/-- PT_STAT_CLEAR (R323). -/
def execPtStatClear (by_ : RegBy) (p : BitVec 3) (v : Word64) (s : State) : Host.Outcome State Fault Refusal :=
  .next (writeBy s by_ (R_PT_CTL p.toNat) (withAction v PT_CTL_STAT_CLEAR))

/-- LPH_RETRAIN (R283). -/
def execLphRetrain (by_ : RegBy) (p : BitVec 3) (v : Word64) (s : State) : Host.Outcome State Fault Refusal :=
  .next (writeBy s by_ (R_LPH_CTL p.toNat) (withAction v LPH_CTL_RETRAIN))

/-- SPARE_NOW (R286). -/
def execSpareNowWrite (by_ : RegBy) (p : BitVec 3) (v : Word64) (s : State) : Host.Outcome State Fault Refusal :=
  .next (writeBy s by_ (R_LPH_CTL p.toNat) (withAction v LPH_CTL_SPARE_NOW))

/-- UNSPARE (R287). -/
def execUnspareWrite (by_ : RegBy) (p : BitVec 3) (v : Word64) (s : State) : Host.Outcome State Fault Refusal :=
  .next (writeBy s by_ (R_LPH_CTL p.toNat) (withAction v LPH_CTL_UNSPARE))

/-- LOOP_WRITE (R288). -/
def execLoopWrite (by_ : RegBy) (p : BitVec 3) (v : Word64) (s : State) : Host.Outcome State Fault Refusal :=
  .next (writeBy s by_ (R_LPH_CTL p.toNat) v)

/-- MIN_CLEAR (R289). -/
def execMinClear (by_ : RegBy) (p : BitVec 3) (lane : BitVec 4) (v : Word64) (s : State) : Host.Outcome State Fault Refusal :=
  .next (writeBy s by_ (R_LRX_STAT p.toNat lane.toNat) (withAction v LRX_STAT_MIN_CLEAR))

/-- LN_STAT_CLEAR (R289). -/
def execLnStatClear (by_ : RegBy) (v : Word64) (s : State) : Host.Outcome State Fault Refusal :=
  .next (writeBy s by_ R_LN_GCTL (withAction v LN_GCTL_STAT_CLEAR))

/-- PROMOTE (R340). -/
def execPromoteWrite (by_ : RegBy) (v : Word64) (s : State) : Host.Outcome State Fault Refusal :=
  .next (writeBy s by_ R_PR_CMD (withAction v PR_CMD_PROMOTE))

/-- JOIN (R342). -/
def execJoinWrite (by_ : RegBy) (v : Word64) (s : State) : Host.Outcome State Fault Refusal :=
  .next (writeBy s by_ R_PR_CMD (withAction v PR_CMD_JOIN))

/-- LEAVE (R345). -/
def execLeaveWrite (by_ : RegBy) (v : Word64) (s : State) : Host.Outcome State Fault Refusal :=
  .next (writeBy s by_ R_PR_CMD (withAction v PR_CMD_LEAVE))

/-- PWR_REGION_WRITE (R351). -/
def execPwrRegionWrite (by_ : RegBy) (v : Word64) (s : State) : Host.Outcome State Fault Refusal :=
  .next (writeBy s by_ R_PWR_REGION v)

/-- DEV_STATE_WRITE (R353). -/
def execDevStateWrite (by_ : RegBy) (v : Word64) (s : State) : Host.Outcome State Fault Refusal :=
  .next (writeBy s by_ R_PWR_CTL v)

/-- WARM (R355). -/
def execWarmReset (by_ : RegBy) (v : Word64) (s : State) : Host.Outcome State Fault Refusal :=
  .next (writeBy s by_ R_PWR_RESET (withAction v PWR_RESET_WARM))

/-- PORT_RESET (R356). -/
def execPortReset (by_ : RegBy) (v : Word64) (s : State) : Host.Outcome State Fault Refusal :=
  .next (writeBy s by_ R_PWR_RESET v)

/-- MG_STAT_CLEAR (R400). -/
def execMgStatClear (by_ : RegBy) (v : Word64) (s : State) : Host.Outcome State Fault Refusal :=
  .next (writeBy s by_ R_MG_CTL (withAction v MG_CTL_STAT_CLEAR))

/-- PC_CFG_WRITE (R405, R407). -/
def execPcCfgWrite (by_ : RegBy) (i : BitVec 6) (v : Word64) (s : State) : Host.Outcome State Fault Refusal :=
  .next (writeBy s by_ (R_PC_CFG i.toNat) v)

/-- FREEZE (R408). -/
def execFreezeCounters (by_ : RegBy) (v : Word64) (s : State) : Host.Outcome State Fault Refusal :=
  .next (writeBy s by_ R_PC_GCTL (withAction v PC_GCTL_FREEZE))

/-- CLEAR_ALL (R407). -/
def execClearAll (by_ : RegBy) (v : Word64) (s : State) : Host.Outcome State Fault Refusal :=
  .next (writeBy s by_ R_PC_GCTL (withAction v PC_GCTL_CLEAR_ALL))

/-- SMP_CTL_WRITE (R409, R420). -/
def execSmpCtlWrite (by_ : RegBy) (v : Word64) (s : State) : Host.Outcome State Fault Refusal :=
  .next (writeBy s by_ R_SMP_CTL v)

/-- SMP_CLEAR (R411). -/
def execSmpClear (by_ : RegBy) (v : Word64) (s : State) : Host.Outcome State Fault Refusal :=
  .next (writeBy s by_ R_SMP_CTL (withAction v SMP_CTL_CLEAR))

/-- SMP_IDX_WRITE (R412). -/
def execSmpIdxWrite (by_ : RegBy) (v : Word64) (s : State) : Host.Outcome State Fault Refusal :=
  .next (writeBy s by_ R_SMP_IDX v)

/-- TR_IDX_WRITE (R412). -/
def execTrIdxWrite (by_ : RegBy) (v : Word64) (s : State) : Host.Outcome State Fault Refusal :=
  .next (writeBy s by_ R_TR_IDX v)

/-- TR_CLEAR (R415). -/
def execTrClear (by_ : RegBy) (v : Word64) (s : State) : Host.Outcome State Fault Refusal :=
  .next (writeBy s by_ R_TR_CTL (withAction v TR_CTL_CLEAR))

/-- CEL_CTL_WRITE (R418). -/
def execCelCtlWrite (by_ : RegBy) (v : Word64) (s : State) : Host.Outcome State Fault Refusal :=
  .next (writeBy s by_ R_CEL_CTL v)

end Sys2Proof.Machine
end

