-- ==== Sys2Proof/Machine/ScAccess.lean ====
section
/-! DEFINITION. Accesses of the SC to any address (R38, R52, R334, R393, R394): decode, admission and destination as for every requester. The SC
has at most one access under way that somebody waits for; its answer is `none` until it is complete. -/

namespace Sys2Proof.Machine

/-- An 8-byte access of the SC at an address. -/
def scAt (op : Op) (addr : Nat) (v : Word64) : Req := { scReq op 0 v with addr := addr }

/-- Forget the SC's access. -/
def scClear (s : State) : State := { s with mgmt := { s.mgmt with scAcc := none } }

/-- Whether an access is complete (R66, R334). -/
def scDone (a : EngAcc) : Bool := a.left = 0 && a.waits = 0

/-- The answer of a complete access is given; one of status POISON is counted (R225). -/
def scAnswer (s : State) (a : EngAcc) : (Status × Nat) × State :=
  let s := if a.status = .poison then countSat s 0x11 R_INT_POISON INT_POISON_ANSWERS 1 else s
  ((a.status, if a.status = .ok && a.req.op = .read then leNat (a.data0 ++ a.data1) else 0), scClear s)

/-- Whether an access of the SC to the array or a store answers RETRY: before step S11, after a fatal error, and as HOLD says (R358, R361,
R416). -/
def scRetry (s : State) (r : Req) : Bool := !rdB s R_PWR_DEVSTAT PWR_DEVSTAT_READY || fatalState s || holdRetry s r

/-- The SC makes an access: it goes to its destination as every requester's does. -/
def scIssue (s : State) (r : Req) : State :=
  let (uid, s) := takeUid s
  let s := { s with mgmt := { s.mgmt with scAcc := some { newAcc uid 0 r .statusWord with left := if isSplit r then 2 else 1 } } }
  if spaceOf r.addr = .reg then submitReg s r uid else submitAccess s r uid (scRetry s r)

/-- The answer of the SC's access when it is complete. -/
def scTake (s : State) : Option (Status × Nat) × State :=
  match s.mgmt.scAcc with
  | some a => if scDone a then (let x := scAnswer s a; (some x.1, x.2)) else (none, s)
  | none => (none, s)

/-- Whether the SC's access under way is an operation at an address. -/
def scIsAt (a : EngAcc) (op : Op) (addr : Nat) : Bool := a.req.op = op && a.req.addr = addr

/-- An access of the SC: the one under way when it is this one, otherwise a new one, when none is under way. A complete one that nobody has
taken is forgotten. -/
def scRequest (s : State) (r : Req) : Option (Status × Nat) × State :=
  match s.mgmt.scAcc with
  | some a =>
    if scIsAt a r.op r.addr then scTake s
    else if scDone a then scTake (scIssue (scClear s) r)
    else (none, s)
  | none => scTake (scIssue s r)

/-- An access of 8 bytes. -/
def scAccess (s : State) (op : Op) (addr : Nat) (v : Word64) : Option (Status × Nat) × State := scRequest s (scAt op addr v)

/-- A read of a line. -/
def scLine (s : State) (addr : Nat) : Option (Status × Nat) × State := scRequest s { scAt .read addr 0 with len := 64 }

/-- A register read of the SC. -/
def scRead (s : State) (key : Nat) : Option (Status × Nat) × State := scAccess s .read (0xFF800000 + key) 0

/-- A register write of the SC. -/
def scWrite (s : State) (key : Nat) (v : Word64) : Option (Status × Nat) × State := scAccess s .write (0xFF800000 + key) v

/-- A read of a register and a write of what `f` makes of it. While the write is under way the register is not read again; a read that is
not answered OK ends it. -/
def scUpdate (s : State) (key : Nat) (f : Word64 → Word64) : Option (Status × Nat) × State :=
  let addr := 0xFF800000 + key
  if s.mgmt.scAcc.any (fun a => scIsAt a .write addr) then scTake s
  else
    let x := scRead s key
    match x.1 with
    | none => x
    | some (st, v) => if st = .ok then scWrite x.2 key (f (w64 v)) else x

end Sys2Proof.Machine
end

