-- ==== Sys2Proof/Machine/Fatal.lean ====
section
/-! DEFINITION. Fatal errors and the cellar record (R416–R419). The SC reads the descriptors and writes the record's lines through the banks,
one access at a time; each waits for its slot like every access (R14, R52). -/

namespace Sys2Proof.Machine

/-! ### Contents of the record (R419) -/

/-- Every register key of the defined blocks, ascending. -/
def allRegKeys : List Nat := (List.range 0x31).flatMap (fun b => (List.range 8192).map (fun i => b * 0x10000 + 8 * i))

/-- Registers that the record omits. -/
def cellarOmits (key : Nat) : Bool :=
  isClaimKey key || (R_SMP_REC 0 ≤ key && key ≤ R_SMP_REC 7) || (R_TR_ENT 0 ≤ key && key ≤ R_TR_ENT 3)

/-- Section 1: address, status and value of every present register, as a read of it answers. -/
def cellarRegs (s : State) : List (List Byte) :=
  (allRegKeys.filter (fun k => regPresent s.variant k && !cellarOmits k)).map (fun k =>
    let x := readStep s .sc k
    leBytes 4 (0xFF800000 + k) ++ leBytes 1 (statusCode x.1) ++ leBytes 3 0 ++ leBytes 8 (if x.1 = .ok then x.2.1.toNat else 0))

/-- Descriptors that a queue holds from HEAD, up to 8. -/
def heldDescs (s : State) (e q : Nat) : Nat := min 8 (sub32 (qTail s e q) (qHead s e q))

/-- The address of descriptor `k` from HEAD. -/
def cellarDescAddr (s : State) (e q k : Nat) : Nat := ringBase s e q + 64 * ((qHead s e q + k) % ringSize s e q)

/-- A descriptor as the SC has read it, `none` when it was unreadable. -/
def cellarGot (s : State) (addr : Nat) : Option (List Byte) := (s.mgmt.cellar.got.find? (fun g => g.1 = addr)).map (fun g => g.2)

/-- Section 2: one entry of 544 bytes. -/
def cellarQueue (s : State) (e q : Nat) : List Byte :=
  let held := heldDescs s e q
  let lines := (List.range 8).map (fun k => if k < held then cellarGot s (cellarDescAddr s e q k) else some [])
  let bad := (List.range 8).foldl (fun n k => n + (if (lines.getD k (some [])).isNone then 2 ^ k else 0)) 0
  [e * 4 + q, qState s e q, held, bad].map (BitVec.ofNat 8) ++ leBytes 4 (qHead s e q) ++ leBytes 4 (qTail s e q) ++
    leBytes 4 (ringBase s e q) ++ leBytes 16 0 ++ lines.flatMap (fun l => sliceBytes (l.getD []) 0 64)

/-- The present queues with ENABLE = 1. -/
def cellarPairs (s : State) : List (Nat × Nat) :=
  (List.range (numEngines s.variant)).flatMap (fun e => ((List.range 4).filter (fun q => rdB s (R_Q_CFG e q) Q_CFG_ENABLE)).map (fun q => (e, q)))

/-- Section 2: each present queue with ENABLE = 1. -/
def cellarQueues (s : State) : List (List Byte) := (cellarPairs s).map (fun x => cellarQueue s x.1 x.2)

/-- The addresses of the descriptors that section 2 holds. -/
def cellarReads (s : State) : List Nat :=
  (cellarPairs s).flatMap (fun x => (List.range (heldDescs s x.1 x.2)).map (cellarDescAddr s x.1 x.2))

/-- Section 3: lees entries from HEAD, then UE entries from HEAD. -/
def cellarLogs (s : State) : List (List Byte) :=
  let entry (r : Nat → Nat → Nat) (i : Nat) : List Byte := (List.range 4).flatMap (fun k => leBytes 8 (rd s (r i k)).toNat)
  ((List.range (rdF s R_INT_LEES_CTL INT_LEES_CTL_COUNT)).map (fun i => entry R_INT_LEES ((rdF s R_INT_LEES_CTL INT_LEES_CTL_HEAD + i) % 32))) ++
  ((List.range (rdF s R_INT_UE_CTL INT_UE_CTL_COUNT)).map (fun i => entry R_INT_UELOG ((rdF s R_INT_UE_CTL INT_UE_CTL_HEAD + i) % 16)))

/-- The indices of a ring's entries, oldest first: `next` is the place of the next entry. -/
def ringOrder (size next count : Nat) : List Nat := (List.range count).map (fun i => (next + size - count + i) % size)

/-- Section 4: trace entries, oldest first. -/
def cellarTrace (s : State) : List (List Byte) :=
  (ringOrder 16384 (rdF s R_TR_STAT TR_STAT_NEXT) (rdF s R_TR_STAT TR_STAT_COUNT)).map (fun i => leBytes 32 (sget 0 s.obs.trRing i).toNat)

/-- Section 5: sampler records, oldest first. -/
def cellarSampler (s : State) : List (List Byte) :=
  (ringOrder 1024 (rdF s R_SMP_STAT SMP_STAT_NEXT) (rdF s R_SMP_STAT SMP_STAT_COUNT)).map (fun i => leBytes 64 (sget 0 s.obs.smpRing i).toNat)

/-- The sections, by TYPE less 1. -/
def cellarSections (s : State) : List (List (List Byte)) :=
  [cellarRegs s, cellarQueues s, cellarLogs s, cellarTrace s, cellarSampler s]

/-- Round up to a 64-byte boundary. -/
def upTo64 (n : Nat) : Nat := (n + 63) / 64 * 64

/-- Directory entries and section bytes from an offset, for the sections from TYPE `t` on; with the end of the last section. -/
def cellarLayout : Nat → Nat → List (List (List Byte)) → List Byte × List Byte × Nat
  | _, off, [] => ([], [], off)
  | t, off, sec :: rest =>
    let body := sec.flatten
    let len := body.length
    let tail := cellarLayout (t + 1) (upTo64 (off + len)) rest
    (leBytes 2 t ++ leBytes 2 0 ++ leBytes 4 off ++ leBytes 4 len ++ leBytes 4 sec.length ++ tail.1,
     sliceBytes body 0 (if rest.isEmpty then len else upTo64 len) ++ tail.2.1,
     if rest.isEmpty then off + len else tail.2.2)

/-- The header but for its CRC. -/
def cellarHeader (s : State) (length crc : Nat) : List Byte :=
  leBytes 4 0x524C4543 ++ leBytes 2 1 ++ leBytes 2 64 ++ leBytes 4 length ++ leBytes 4 crc ++
    leBytes 1 (rdF s R_CEL_STAT CEL_STAT_CAUSE) ++ leBytes 1 5 ++ leBytes 6 0 ++ leBytes 8 (rd s R_ID_SERIAL).toNat ++
    leBytes 8 (rd s R_CEL_TIME).toNat ++ leBytes 4 (rd s R_PWR_STEPREC).toNat ++ leBytes 4 (rdF s R_CEL_STAT CEL_STAT_DETAIL) ++
    leBytes 8 (rd s R_ID_DEVICE).toNat ++ leBytes 8 (rd s R_ID_FIRMWARE).toNat

/-- The record, bytes 0 to LENGTH − 1 (R419). -/
def cellarRecord (s : State) : List Byte :=
  let l := cellarLayout 1 0x100 (cellarSections s)
  let rest := sliceBytes l.1 0 (0x100 - 64) ++ l.2.1
  cellarHeader s l.2.2 (crc32c 0 (cellarHeader s l.2.2 0 ++ rest)) ++ rest

/-! ### Writing it -/

/-- The lines of the record in the order in which they are written: the sections first, the header's line last. -/
def cellarLines (v : Variant) (bs : List Byte) : List (Nat × List Byte) :=
  let n := (bs.length + 63) / 64
  (List.range n).map (fun i => (cellarBase v + 64 * (n - 1 - i), sliceBytes bs (64 * (n - 1 - i)) 64))

/-- The SC's work on the record with `f` applied. -/
def setCellar (s : State) (f : Cellar → Cellar) : State := { s with mgmt := { s.mgmt with cellar := f s.mgmt.cellar } }

/-- A line access of the SC for the record. Only a line that is absent, or whose region refuses accesses, is not reached: the fatal state's
RETRY and the pair's DENIED are for other requests (R416, R418). -/
def cellarIssue (s : State) (op : Op) (addr : Nat) (bs : List Byte) : State :=
  let r : Req := { scReq op 0 0 with addr := lineBase addr, len := 64, data := bs }
  let (uid, s) := takeUid s
  let s := setCellar s (fun c => { c with acc := some (newAcc uid 0 r .statusWord) })
  if !arrayPresent s.variant addr then refuse s r uid 1 .absent
  else if regionRefuses s (regionOf addr) then refuse s r uid 1 .retry
  else toBanks s r uid none

/-- The next access for the record: the descriptors are read, then the record is made of what stands in the device, then its lines are
written. -/
def cellarNext (s : State) : State :=
  match s.mgmt.cellar.phase with
  | .reading =>
    match s.mgmt.cellar.reads with
    | a :: _ => cellarIssue s .read a []
    | [] => setCellar s (fun c => { c with phase := .writing, writes := cellarLines s.variant (cellarRecord s) })
  | .writing =>
    match s.mgmt.cellar.writes with
    | x :: _ => cellarIssue s .write x.1 x.2
    | [] => setCellar s (fun c => { c with phase := .written })
  | _ => s

/-- A complete access of the record: a descriptor not answered OK is unreadable, a line not written is written again; an answer POISON is
counted (R225). -/
def cellarTook (s : State) (a : EngAcc) : State :=
  let s := if a.status = .poison then countSat s 0x11 R_INT_POISON INT_POISON_ANSWERS 1 else s
  if a.req.op = .read then
    setCellar s (fun c => { c with acc := none, reads := c.reads.drop 1,
                                   got := if a.status = .ok then c.got ++ [((c.reads.head?).getD 0, a.data0)] else c.got })
  else setCellar s (fun c => { c with acc := none, writes := if a.status = .ok then c.writes.drop 1 else c.writes })

/-- What the SC does for the record in a core cycle. -/
def cellarCycle (s : State) : State :=
  if coreOn s && scRuns s then
    match s.mgmt.cellar.acc with
    | some a => if scDone a then cellarNext (cellarTook s a) else s
    | none => cellarNext s
  else s

/-! ### Fatal errors -/

/-- Whether the SC can do its part of R416: it runs, and its own memory is not what failed. -/
def scHandlesFatal (s : State) : Bool := scRuns s && rdF s R_CEL_STAT CEL_STAT_CAUSE != 3

/-- The end of the handling: RESULT, the event on S4096, and FATAL_DONE; the SC notes the error in the keep store (R416, R417). -/
def fatalResult (s : State) (result : Nat) : State :=
  let s := wrF s R_CEL_STAT CEL_STAT_RESULT result
  let s := if scHandlesFatal s then
      wrF (wrF (wrF s R_CEL_LAST CEL_LAST_RESULT result) R_CEL_LAST CEL_LAST_CAUSE (rdF s R_CEL_STAT CEL_STAT_CAUSE)) R_CEL_LAST
        CEL_LAST_STARTS (startsOf s)
    else s
  raiseSource { s with power := { s.power with fatalDone := true } } 4096

/-- The cycle of detection (R416): admission stops, the counters are captured, trace and sampler stop, and cause and time are noted. -/
def fatalDetected (s : State) (cause detail : Nat) : State :=
  let s := { s with power := { s.power with fatalAt := some s.time, fatalDone := false } }
  let s := freezeCounters s
  let s := if rdB s R_TR_CTL TR_CTL_STOP_ON_FATAL then wrB s R_TR_CTL TR_CTL_RUN false else s
  let s := wrB s R_SMP_CTL SMP_CTL_ENABLE false
  let s := wrF (wrF s R_CEL_STAT CEL_STAT_CAUSE cause) R_CEL_STAT CEL_STAT_DETAIL detail
  wr s R_CEL_TIME (w64 s.time)

/-- What the SC does at once: it freezes every engine (R172); it begins the record, or without a cellar area sets RESULT to 2. -/
def scOnFatal (s : State) : State :=
  if scHandlesFatal s then
    let s := (List.range (numEngines s.variant)).foldl (fun s e => setEngState s e 3) s
    if rdB s R_CEL_CTL CEL_CTL_ENABLE then setCellar s (fun c => { c with phase := .reading, reads := cellarReads s }) else fatalResult s 2
  else s

/-- FATAL_ERROR (R416, R417): the causes are those of the table "Fatal causes". A further one only raises CEL_LAST.COUNT. -/
def execFatalError (cause : BitVec 8) (detail : BitVec 32) (s : State) : Host.Outcome State Fault Refusal :=
  if coreOn s && 1 ≤ cause.toNat && cause.toNat ≤ 4 then
    let s := addSat s R_CEL_LAST CEL_LAST_COUNT 1
    if fatalState s then .next s else .next (scOnFatal (fatalDetected s cause.toNat detail.toNat))
  else .next s

/-- CELLAR_RECORD_DONE (R416–R419): the SC has written the record, and says so; while lines of it are still on their way to their banks the
record is not done (DESIGN CHOICE, log entry 74). -/
def execCellarRecordDone (s : State) : Host.Outcome State Fault Refusal :=
  if fatalState s && !s.power.fatalDone && scHandlesFatal s && rdB s R_CEL_CTL CEL_CTL_ENABLE then
    .next (if s.mgmt.cellar.phase = .written then fatalResult s 1 else s)
  else .next s

/-- FATAL_WATCHDOG (R417): 10 ms after detection S4096 has not been raised. -/
def execFatalWatchdog (s : State) : Host.Outcome State Fault Refusal :=
  match s.power.fatalAt with
  | some t => if coreOn s && !s.power.fatalDone && t + 16000000 ≤ s.time then .next (fatalResult s 3) else .next s
  | none => .next s

end Sys2Proof.Machine
end

