-- ==== Sys2Proof/Machine/Mgmt.lean ====
section
/-! DEFINITION. The management chain (R371–R382): frames as they pass, replies, the status snapshot, PEEK, and enumeration. -/

namespace Sys2Proof.Machine

/-! ### Frames (R374–R376) -/

/-- A frame's bytes before its CRC. -/
def frameBody (f : ChainFrame) (typ : Byte) : List Byte := [f.addr, typ, f.len] ++ sliceBytes f.payload 0 f.len.toNat

/-- The two bytes of a CRC, high byte first. -/
def crcBytes (c : Nat) : List Byte := [BitVec.ofNat 8 (c / 256), BitVec.ofNat 8 c]

/-- A whole frame as received. -/
def frameBytes (f : ChainFrame) (typ : Byte) : List Byte := frameBody f typ ++ crcBytes f.crc.toNat

/-- Whether a frame's CRC is good: over the whole frame the result is zero. -/
def crcGood (f : ChainFrame) (typ : Byte) : Bool := crc16 (frameBytes f typ) = 0

/-- Chain address. -/
def chainAddr (s : State) : Nat := rdF s R_MG_CHAINADDR MG_CHAINADDR_ADDRESS

/-- Whether a frame is addressed to this device: to its address, or, once it has one, to all; ENUM reaches every device (R376, R382). -/
def addressedHere (s : State) (f : ChainFrame) (enum : Bool) : Bool :=
  f.addr.toNat = chainAddr s || (f.addr = 63 && (enum || chainAddr s != 0))

/-- What leaves on MDO while MSEL_N is low: one byte time after the bytes received (R373). Then MDO drives 1 (R372). -/
def passBytes (s : State) (f : ChainFrame) (bytes : List Byte) : State := emit (emit s (.frame (bytes.take (f.received - 1)))) (.mdo true)

/-- A frame, and what follows it, is passed on. -/
def passFrame (s : State) (f : ChainFrame) (bytes : List Byte) : State := passBytes s f (bytes ++ f.rest)

/-- A frame is passed on with a reply in place of as many of the bytes that follow it (R378). -/
def passReply (s : State) (f : ChainFrame) (bytes reply : List Byte) : State :=
  passBytes s f (bytes ++ reply ++ f.rest.drop reply.length)

/-- The fate of a frame (R376): not for this device or over 250 bytes long, too short, of bad CRC, or good. -/
inductive FrameFate where
  | ignored | runt | badCrc | good
  deriving DecidableEq, Repr

/-- The fate of a frame. -/
def frameFate (s : State) (f : ChainFrame) (typ : Byte) (enum : Bool) : FrameFate :=
  if !addressedHere s f enum || 250 < f.len.toNat then .ignored
  else if f.received < f.len.toNat + 5 then .runt
  else if crcGood f typ then .good
  else .badCrc

/-- Count a frame that is not good. -/
def countFate (s : State) (x : FrameFate) : State :=
  match x with
  | .runt => countSat s 0x2A R_MG_CHAINCNT MG_CHAINCNT_RUNT 1
  | .badCrc => countSat s 0x2A R_MG_CHAINCNT MG_CHAINCNT_CRC_ERR 1
  | _ => s

/-- A frame of defined TYPE is acted on. -/
def countActed (s : State) : State := countWrap s 0x2A R_MG_CHAINCNT MG_CHAINCNT_FRAMES 1

/-- A frame of undefined TYPE, or of a type that its address forbids (R376, R377). -/
def badType (s : State) (f : ChainFrame) (typ : Byte) : State :=
  let x := frameFate s f typ false
  let s := passFrame s f (frameBytes f typ)
  if x = .good then countSat s 0x2A R_MG_CHAINERR MG_CHAINERR_BADTYPE 1 else countFate s x

/-- A reply frame (R377). -/
def replyFrame (s : State) (typ : Byte) (payload : List Byte) : List Byte :=
  let body := [BitVec.ofNat 8 (chainAddr s), typ, BitVec.ofNat 8 payload.length] ++ payload
  body ++ crcBytes (crc16 body)

/-! ### The status snapshot (R379) -/

/-- CORE_CLOCK: the core PLL is locked and the core is clocked. -/
def coreClock (s : State) : Bool := s.power.clock = .pll

/-- VDD_ABOVE_RESET: while no command tells how high VDD is, a free value (log entry 47). -/
def vddAbove (s : State) : Bool :=
  match s.power.vdd with
  | .unknown => Config.vddAboveReset s.time
  | _ => true

/-- VDD_GOOD: in HOLD VDD may be back for less than 20 µs, so the flag is a free value there and while nothing is known of VDD; at or above
0.70 V is above 0.65 V too. -/
def vddGood (s : State) : Bool :=
  match s.power.vdd with
  | .good => true
  | _ => vddAbove s && Config.vddGood s.time

/-- The snapshot's 32 bytes, sampled at the first edge of the frame. The core-side fields are the last copy while the core is not clocked. -/
def snapBytes (s : State) : List Byte :=
  let core := if s.power.clock = .stopped || s.power.clock = .none then sliceBytes s.mgmt.coreCopy 0 14 else snapCore s
  let flags := leNat (core.take 2) + b01 (vddGood s) + b01 (coreClock s) <<< 1 +
    b01 (s.power.resetLow || s.power.step.isSome) <<< 2 + b01 (vddAbove s) <<< 11
  leBytes 2 (rdF s R_ID_DEVICE ID_DEVICE_PART) ++ leBytes 2 flags ++ core.drop 2 ++ leBytes 4 s.mgmt.peekAddr ++ leBytes 1 s.mgmt.peekState ++
    leBytes 1 s.mgmt.peekRsp ++ leBytes 1 (chainAddr s) ++ leBytes 1 (rdF s R_MG_KEEPLOCK MG_KEEPLOCK_LOCK_S) ++
    leBytes 8 (if s.mgmt.peekState = 1 && s.mgmt.peekRsp = 0 then s.mgmt.peekData.toNat else 0)

/-! ### The frame types -/

/-- ENUM (R381): the token is rewritten as it passes; the new address applies from the end of the frame when the CRC is good. An ENUM to
one address counts as of undefined TYPE. -/
def execEnumFrame (f : ChainFrame) (s : State) : Host.Outcome State Fault Refusal :=
  if !s.power.vioOn then .next s
  else if f.addr != 63 then .next (badType s f 1)
  else
    let t := (f.payload.getD 0 0).toNat
    let given := if 1 ≤ t && t ≤ 62 then t else 0
    let token : Byte := BitVec.ofNat 8 (if 1 ≤ t && t ≤ 62 then t + 1 else 63)
    let g := { f with payload := if f.len = 0 then f.payload else setAt (sliceBytes f.payload 0 f.len.toNat) 0 token }
    let body := frameBody g 1
    let crc := if crcGood f 1 then crc16 body else crc16 body ^^^ 0xFFFF
    let x := frameFate s f 1 true
    let s := passFrame s f (body ++ crcBytes crc)
    if x = .good then .next (wr (countActed s) R_MG_CHAINADDR (w64 given)) else .next (countFate s x)

/-- Whether MSEL_N stays low until a reply of `n` bytes has been sent whole (R378). -/
def replyWhole (f : ChainFrame) (n : Nat) : Bool := f.len.toNat + 6 + n ≤ f.received

/-- POLL (R377, R378, R392): waiting text, up to 250 bytes, leaves the buffer when it has been sent whole; otherwise EMPTY. -/
def execPollFrame (f : ChainFrame) (s : State) : Host.Outcome State Fault Refusal :=
  if !s.power.vioOn then .next s
  else if f.addr = 63 then .next (badType s f 3)
  else
    let x := frameFate s f 3 false
    if x = .good then
      let alive := coreOn s && !s.power.scHalted
      if alive && !s.mgmt.reply.isEmpty then
        let text := s.mgmt.reply.take 250
        let r := replyFrame s 0x83 text
        let s := countActed (passReply s f (frameBytes f 3) r)
        if replyWhole f r.length then .next { s with mgmt := { s.mgmt with reply := s.mgmt.reply.drop 250 } }
        else .next (countSat s 0x2A R_MG_CHAINERR MG_CHAINERR_TRUNCATED 1)
      else
        let code := if !alive then 2 else if s.mgmt.lines.any (fun l => l.1 = .chain) then 1 else 0
        .next (countActed (passReply s f (frameBytes f 3) (replyFrame s 0x84 [code])))
    else .next (countFate (passFrame s f (frameBytes f 3)) x)

/-- STATUS (R379): a SNAP of the sample taken at the start of the frame. -/
def execStatusFrame (f : ChainFrame) (s : State) : Host.Outcome State Fault Refusal :=
  if !s.power.vioOn then .next s
  else if f.addr = 63 then .next (badType s f 4)
  else
    let x := frameFate s f 4 false
    if x = .good then .next (countActed (passReply s f (frameBytes f 4) (replyFrame s 0x85 (snapBytes s))))
    else .next (countFate (passFrame s f (frameBytes f 4)) x)

/-! ### PEEK (R380) -/

/-- Whether a PEEK of an address is refused. No register has an RC field; an absent TGT_CLAIM is no register (log entry 47). -/
def peekRefused (v : Variant) (a : Nat) : Bool := a % 8 != 0 || a < 0xFF800000 || (isClaimKey (keyOf a) && regPresent v (keyOf a))

/-- The read of a PEEK goes through the SC's crossbar port to its register, as a request of its own. -/
def peekIssue (s : State) : State :=
  let r := scReq .read (keyOf s.mgmt.peekAddr) 0
  let (uid, s) := takeUid s
  submitReg { s with mgmt := { s.mgmt with peekAcc := some (newAcc uid 0 r .statusWord) } } r uid

/-- What a PEEK leaves: its read is refused, pending (not yet made while RESET_N is low), or not issued without a core clock. -/
def peekBegin (s : State) (a : Nat) : State :=
  let st := if peekRefused s.variant a then 4 else if coreClock s then 2 else 3
  let s := { s with mgmt := { s.mgmt with peekAddr := a, peekState := st, peekRsp := 0, peekData := 0, peekAcc := none } }
  if st = 2 && coreOn s then peekIssue s else s

/-- The answer of a PEEK's read is held for a later SNAP. -/
def peekTake (s : State) : State :=
  match s.mgmt.peekAcc with
  | some a =>
    if scDone a then
      { s with mgmt := { s.mgmt with peekState := 1, peekRsp := statusCode a.status, peekAcc := none,
                                     peekData := if a.status = .ok then w64 (leNat a.data0) else 0 } }
    else s
  | none => s

/-- PEEK (R380): the reply shows the sample taken at the start of the frame; the read is issued. -/
def execPeekFrame (f : ChainFrame) (s : State) : Host.Outcome State Fault Refusal :=
  if !s.power.vioOn then .next s
  else if f.addr = 63 then .next (badType s f 5)
  else
    let x := frameFate s f 5 false
    if x = .good then
      .next (peekBegin (countActed (passReply s f (frameBytes f 5) (replyFrame s 0x85 (snapBytes s)))) (leNat (sliceBytes f.payload 0 4)))
    else .next (countFate (passFrame s f (frameBytes f 5)) x)

/-- PEEK_DONE (R380): the pending read, made through the privileged view whether the SC runs or not, is complete; a read that a reset
has taken is made again. -/
def execPeekDone (s : State) : Host.Outcome State Fault Refusal :=
  if s.mgmt.peekState = 2 && coreOn s then .next (peekTake (if s.mgmt.peekAcc.isNone then peekIssue s else s)) else .next s

/-- Whether a TYPE is undefined for a frame: not in the table "Frame types", or forbidden at its address (R377). -/
def typeUndefined (f : ChainFrame) (typ : Nat) : Bool :=
  match typ with
  | 1 => f.addr != 63
  | 2 => false
  | 3 => f.addr = 63
  | 4 => f.addr = 63
  | 5 => f.addr = 63
  | _ => true

/-- UNDEFINED_TYPE_FRAME (R376). A frame whose TYPE is defined at its address is another row's. -/
def execUndefinedTypeFrame (f : ChainFrame) (typ : Byte) (s : State) : Host.Outcome State Fault Refusal :=
  if s.power.vioOn && typeUndefined f typ.toNat then .next (badType s f typ) else .next s

end Sys2Proof.Machine
end

