-- ==== Sys2Proof/Machine/ShexaText.lean ====
section
/-! DEFINITION. Shexa lines (R385–R391): words and their prefixes, argument forms, checksums, the rows that lines name, and replies. -/

namespace Sys2Proof.Machine

/-! ### Words (R385, R386) -/

/-- A letter in lower case. -/
def lowerByte (b : Byte) : Byte := if 65 ≤ b.toNat && b.toNat ≤ 90 then b + 32 else b

/-- A word in lower case. -/
def lowerWord (w : List Byte) : List Byte := w.map lowerByte

/-- A space or tab. -/
def isBlank (b : Byte) : Bool := b = 0x20 || b = 0x09

/-- Split at blanks; `cur` is the word so far, reversed. -/
def splitBlanks : List Byte → List Byte → List (List Byte)
  | cur, [] => if cur.isEmpty then [] else [cur.reverse]
  | cur, b :: bs =>
    if isBlank b then (if cur.isEmpty then splitBlanks [] bs else cur.reverse :: splitBlanks [] bs)
    else splitBlanks (b :: cur) bs

/-- The words of a line. -/
def lineWords (l : List Byte) : List (List Byte) := splitBlanks [] l

/-- The word of a list that a token names: in full, or as a prefix of exactly one (R386); or the error code. -/
def resolveWord (ws : List String) (tok : List Byte) : Except Nat Nat :=
  let t := lowerWord tok
  let ns := ws.map asciiBytes
  if ns.contains t then .ok (ns.idxOf t)
  else
    match (List.range ns.length).filter (fun i => t.isPrefixOf (ns.getD i [])) with
    | [i] => .ok i
    | [] => .error 1
    | _ => .error 3

/-! ### Argument forms (R387) -/

/-- The value of a digit in a base. -/
def digitOf (base : Nat) (b : Byte) : Option Nat :=
  let n := b.toNat
  let v := if 48 ≤ n && n ≤ 57 then n - 48 else if 97 ≤ n && n ≤ 102 then n - 87 else if 65 ≤ n && n ≤ 70 then n - 55 else 99
  if v < base then some v else none

/-- Digits in a base, after a value so far. -/
def digitsVal (base : Nat) : Nat → List Byte → Option Nat
  | acc, [] => some acc
  | acc, b :: bs =>
    match digitOf base b with
    | some d => digitsVal base (acc * base + d) bs
    | none => none

/-- A decimal number. -/
def parseDec (w : List Byte) : Option Nat := if w.isEmpty then none else digitsVal 10 0 w

/-- A number in one of its forms: underscores may stand after a prefix. -/
def parseNum (w : List Byte) : Option Nat :=
  let l := lowerWord w
  let prefixed (base : Nat) : Option Nat :=
    let ds := (w.drop 2).filter (fun b => b != 0x5F)
    if ds.isEmpty then none else digitsVal base 0 ds
  if l.take 2 = asciiBytes "0x" then prefixed 16
  else if l.take 2 = asciiBytes "0b" then prefixed 2
  else parseDec w

/-- A unit with a letter and a number below `count`, or a bare number. -/
def parseUnit (letter : Byte) (count : Nat) (w : List Byte) : Option Nat :=
  match w with
  | b :: rest => if lowerByte b = letter then (parseDec rest).filter (fun n => n < count) else parseNum w
  | [] => none

/-- A physical unit: a bank, a spare bank or a bare number. -/
def parseBank (w : List Byte) : Option Nat :=
  let l := lowerWord w
  if l = asciiBytes "bs0" then some 64 else if l = asciiBytes "bs1" then some 65 else parseUnit 0x62 64 w

/-- Whether a word is a keeper phrase: exactly 8 characters from 0x21 to 0x7E. -/
def isPhrase (w : List Byte) : Bool := w.length = 8 && w.all (fun b => 0x21 ≤ b.toNat && b.toNat ≤ 0x7E)

/-- Split at a separator; `cur` is the part so far, reversed. -/
def splitAtByte (sep : Byte) : List Byte → List Byte → List (List Byte)
  | cur, [] => [cur.reverse]
  | cur, b :: bs => if b = sep then cur.reverse :: splitAtByte sep [] bs else splitAtByte sep (b :: cur) bs

/-- A bracketed index, its opening bracket gone. -/
def parseIndex (w : List Byte) : Option Nat := if w.getLast? = some 0x5D then parseNum w.dropLast else none

/-- Every register of the manual, by block. -/
def allRows : List RegRow := (List.range 0x31).flatMap regRows

/-- The register that a name with indices stands for: its key and table row, or the error code. Of several registers of one name, it is
the one that takes so many indices (TGT_STACK and TGT_STACKi). -/
def findReg (w : List Byte) : Except Nat (Nat × RegRow) :=
  match splitAtByte 0x5B [] w with
  | [] => .error 4
  | name :: idx =>
    let rows := allRows.filter (fun r => asciiBytes r.name = lowerWord name)
    let is := idx.map parseIndex
    if rows.isEmpty then .error 6
    else match rows.find? (fun r => r.idx = is.length) with
    | none => .error 4
    | some r =>
      if is.any Option.isNone then .error 4
      else
        let i := (is.getD 0 (some 0)).getD 0
        let j := (is.getD 1 (some 0)).getD 0
        if r.n1 ≤ i || r.n2 ≤ j then .error 6 else .ok (r.base + i * r.s1 + j * r.s2, r)

/-- A register or field: key, row and, for a field, its row. -/
def findTarget (w : List Byte) : Except Nat (Nat × RegRow × Option FieldRow) :=
  match splitAtByte 0x2E [] w with
  | [r] => match findReg r with
    | .ok x => .ok (x.1, x.2, none)
    | .error e => .error e
  | [r, f] => match findReg r with
    | .error e => .error e
    | .ok x => match x.2.fields.find? (fun y => asciiBytes y.name = lowerWord f) with
      | some y => .ok (x.1, x.2, some y)
      | none => .error 6
  | _ => .error 4

/-! ### The rows that lines name (table "Shexa commands") -/

/-- The command rows. -/
inductive ShexaRow where
  | help | show | get | set | modeHuman | modeMachine | unlock | lock | phrase | grantPriv | grantUnpriv | portEnable | portDisable
  | portReset | portRetrain | portSpare | portUnspare | portRates | bankRetire | bankRemap | engineOffline | engineOnline | engineReset
  | engineTest | test | scrubOn | scrubOff | scrubPeriod | pairRole | pairPorts | pairMirror | pairJoin | pairPromote | pairLeave
  | recordStart | recordCellar | resetWarm | resetPort | consoleBaud
  deriving DecidableEq, Repr

/-- The command words. -/
def commandWords : List String :=
  ["help", "show", "get", "set", "mode", "unlock", "lock", "phrase", "grant", "port", "bank", "engine", "test", "scrub", "pair", "record",
   "reset", "console"]

/-- The row that a keyword in place `k` of a line names. -/
def keywordRow (ws : List (List Byte)) (k : Nat) (rows : List (String × ShexaRow)) : Except Nat ShexaRow :=
  match ws[k]? with
  | none => .error 4
  | some w =>
    match resolveWord (rows.map (fun r => r.1)) w with
    | .ok i => match rows[i]? with
      | some r => .ok r.2
      | none => .error 1
    | .error e => .error e

/-- The row of a command word, by its number in `commandWords`. -/
def wordRow (ws : List (List Byte)) (i : Nat) : Except Nat ShexaRow :=
  match i with
  | 0 => .ok .help
  | 1 => .ok .show
  | 2 => .ok .get
  | 3 => .ok .set
  | 4 => keywordRow ws 1 [("human", .modeHuman), ("machine", .modeMachine)]
  | 5 => .ok .unlock
  | 6 => .ok .lock
  | 7 => .ok .phrase
  | 8 => keywordRow ws 2 [("priv", .grantPriv), ("unpriv", .grantUnpriv)]
  | 9 => keywordRow ws 2 [("enable", .portEnable), ("disable", .portDisable), ("reset", .portReset), ("retrain", .portRetrain),
      ("spare", .portSpare), ("unspare", .portUnspare), ("rates", .portRates)]
  | 10 => keywordRow ws 2 [("retire", .bankRetire), ("remap", .bankRemap)]
  | 11 => keywordRow ws 2 [("offline", .engineOffline), ("online", .engineOnline), ("reset", .engineReset), ("test", .engineTest)]
  | 12 => .ok .test
  | 13 => keywordRow ws 1 [("on", .scrubOn), ("off", .scrubOff), ("period", .scrubPeriod)]
  | 14 => keywordRow ws 1 [("role", .pairRole), ("ports", .pairPorts), ("mirror", .pairMirror), ("join", .pairJoin),
      ("promote", .pairPromote), ("leave", .pairLeave)]
  | 15 => keywordRow ws 1 [("start", .recordStart), ("cellar", .recordCellar)]
  | 16 => keywordRow ws 1 [("warm", .resetWarm), ("port", .resetPort)]
  | _ => keywordRow ws 1 [("baud", .consoleBaud)]

/-- The row that a line's words name, or the error code. -/
def rowOf (ws : List (List Byte)) : Except Nat ShexaRow :=
  match ws with
  | [] => .error 4
  | w :: _ =>
    match resolveWord commandWords w with
    | .ok i => wordRow ws i
    | .error e => .error e

/-- XOR of all the characters of a line (R390). -/
def lineSum (l : List Byte) : Byte := l.foldl (fun x b => x ^^^ b) 0

/-- The suffix "*" and two upper-case hex digits of a line (R390). -/
def suffixOf (l : List Byte) : List Byte := 0x2A :: hexPair (lineSum l).toNat

/-- An upper-case hex digit. -/
def isHexUpper (b : Byte) : Bool := (48 ≤ b.toNat && b.toNat ≤ 57) || (65 ≤ b.toNat && b.toNat ≤ 70)

/-- Whether three bytes have the form of a suffix. -/
def suffixForm (l : List Byte) : Bool :=
  match l with
  | [a, b, c] => a = 0x2A && isHexUpper b && isHexUpper c
  | _ => false

/-- The characters of a line without its suffix, or the error code (R385, R390): over 250 characters, or a suffix missing or wrong. -/
def lineBody (machine : Bool) (l : List Byte) : Except Nat (List Byte) :=
  let body := l.take (l.length - 3)
  let suffix := l.drop (l.length - 3)
  if machine then
    if suffixForm suffix then
      if 250 < body.length then .error 11 else if suffix = suffixOf body then .ok body else .error 2
    else if 250 < l.length then .error 11 else .error 2
  else if 250 < l.length then .error 11
  else .ok l

/-- The row and the words of a line, or the error code. -/
def lineRow (machine : Bool) (l : List Byte) : Except Nat (ShexaRow × List (List Byte)) :=
  match lineBody machine l with
  | .error e => .error e
  | .ok b =>
    match rowOf (lineWords b) with
    | .ok r => .ok (r, lineWords b)
    | .error e => .error e

/-- Whether a line is empty: it does nothing (R385). -/
def lineEmpty (machine : Bool) (l : List Byte) : Bool :=
  l.isEmpty || (match lineBody machine l with
    | .ok b => (lineWords b).isEmpty
    | .error _ => false)

/-- LINE (R385, R392): a line for the chain session, discarded while a command of it runs or reply text waits; an empty line, but
for its suffix, does nothing. -/
def execLineFrame (f : ChainFrame) (s : State) : Host.Outcome State Fault Refusal :=
  if !s.power.vioOn then .next s
  else
    let x := frameFate s f 2 false
    let s := passFrame s f (frameBytes f 2)
    if x = .good then
      let s := countActed s
      if s.mgmt.lines.any (fun l => l.1 = .chain) || !s.mgmt.reply.isEmpty then .next (countSat s 0x2A R_MG_CHAINERR MG_CHAINERR_DROPPED 1)
      else if lineEmpty true (sliceBytes f.payload 0 f.len.toNat) then .next s
      else .next { s with mgmt := { s.mgmt with lines := s.mgmt.lines ++ [(.chain, s.time, sliceBytes f.payload 0 f.len.toNat)] } }
    else .next (countFate s x)

/-! ### Replies (R388, R390, R391) -/

/-- A reply: "ok" with at most one value, data lines, or an error. -/
inductive Reply where
  | ok (value : List Byte) | data (lines : List (List Byte)) | err (code : Nat)
  deriving DecidableEq, Repr

/-- The texts of the table "Shexa error codes". -/
def errText (n : Nat) : String :=
  match n with
  | 1 => "unknown"
  | 2 => "checksum"
  | 3 => "ambiguous"
  | 4 => "syntax"
  | 5 => "keeper level needed"
  | 6 => "absent"
  | 7 => "refused"
  | 8 => "denied"
  | 9 => "locked out"
  | 10 => "wrong phrase"
  | 11 => "too long"
  | 12 => "busy"
  | 13 => "retry"
  | 14 => "data error"
  | _ => "confirm"

/-- Decimal digits of a number below ten to the `n`. -/
def decDigits : Nat → Nat → List Byte
  | 0, _ => []
  | n + 1, v => (if v < 10 then [] else decDigits n (v / 10)) ++ [BitVec.ofNat 8 (48 + v % 10)]

/-- A number in decimal. -/
def decText (v : Nat) : List Byte := decDigits 21 v

/-- Two decimal digits. -/
def twoDigits (v : Nat) : List Byte := [BitVec.ofNat 8 (48 + v / 10 % 10), BitVec.ofNat 8 (48 + v % 10)]

/-- 0x and 16 hex digits, grouped in fours (R388). -/
def hexText (v : Nat) : List Byte :=
  asciiBytes "0x" ++ [12, 8, 4, 0].flatMap (fun i => [3, 2, 1, 0].map (fun j => hexChar (v >>> (4 * (i + j)))) ++
    (if i = 0 then [] else [0x5F]))

/-- The lines of a reply. -/
def replyLines : Reply → List (List Byte)
  | .ok v => [asciiBytes "ok" ++ (if v.isEmpty then [] else 0x20 :: v)]
  | .data ls => (asciiBytes "ok lines=" ++ decText ls.length) :: ls
  | .err n => [asciiBytes "err " ++ twoDigits n ++ [0x20] ++ asciiBytes (errText n)]

/-- A session's state. -/
def sessOf (s : State) : Session → SessState
  | .console => s.mgmt.console
  | .chain => s.mgmt.chain

/-- Replace a session's state. -/
def setSess (s : State) (x : Session) (v : SessState) : State :=
  match x with
  | .console => { s with mgmt := { s.mgmt with console := v } }
  | .chain => { s with mgmt := { s.mgmt with chain := v } }

/-- Send a reply to a session: on the console its first line, after which the data lines follow one by one (R389); on the chain into the reply
buffer, which holds 4,096 bytes. Replies beginning "err" are counted. -/
def sendReply (s : State) (x : Session) (r : Reply) : State :=
  let s := match r with
    | .err _ => countSat s 0x2A R_MG_SHEXA MG_SHEXA_ERRORS 1
    | _ => s
  match x with
  | .console =>
    match replyLines r with
    | [] => s
    | l :: ls => consoleWrite { s with mgmt := { s.mgmt with conReply := ls } } l
  | .chain =>
    let text := (replyLines r).flatMap (fun l => l ++ suffixOf l ++ [0x0A])
    { s with mgmt := { s.mgmt with reply := (s.mgmt.reply ++ text).take 4096 } }

/-- A console reply is over: the SC's own lines that waited for its end are written, then the prompt (R384, R388). -/
def replyOver (s : State) : State :=
  ownPrompt (s.mgmt.conOwn.foldl consoleLine { s with mgmt := { s.mgmt with conReply := [], conOwn := [] } })

/-- What follows the reply of a session: on the console, when no data line is to come, its end. -/
def afterReply (s : State) (x : Session) : State :=
  match x with
  | .console => if s.mgmt.conReply.isEmpty then replyOver s else s
  | .chain => s

/-- The next data line of a console reply is written once the line before it has ended (R383, R389). -/
def consoleTurn (s : State) : State :=
  match s.mgmt.conReply with
  | [] => s
  | l :: ls =>
    if scRuns s && s.mgmt.conAt ≤ s.time then afterReply (consoleWrite { s with mgmt := { s.mgmt with conReply := ls } } l) .console else s

/-! ### Running a line (R392) -/

/-- The front line is over: it leaves the queue and its reply is sent. -/
def endLine (s : State) (x : Session) (r : Reply) : State :=
  sendReply { s with mgmt := { s.mgmt with lines := s.mgmt.lines.tail } } x r

/-- What a command makes of its words: its reply, `none` while an access of it waits; the state; and what follows the reply. -/
def CmdResult : Type := Option Reply × State × (State → State)

/-- A reply with nothing after it. -/
def replied (r : Reply) (s : State) : CmdResult := (some r, s, id)

/-- A reply, or none while an access of the command waits. -/
def perhaps (r : Option Reply) (s : State) : CmdResult := (r, s, id)

/-- A reply and what follows it. -/
def repliedThen (r : Reply) (s : State) (f : State → State) : CmdResult := (some r, s, f)

/-- The end of a command: while an access of it waits the line stays; otherwise it is counted, its reply is sent, what follows the
reply is done, and the prompt comes last, in the mode that holds then (R388, R390). -/
def finishLine (x : Session) (res : CmdResult) : State :=
  match res.1 with
  | none => res.2.1
  | some rep =>
    let s := countWrap res.2.1 0x2A R_MG_SHEXA MG_SHEXA_COMMANDS 1
    afterReply (res.2.2 (endLine (setSess s x { sessOf s x with lastCmd := s.time }) x rep)) x

/-- Whether the SC takes up a line: it runs, and is not writing a reply (R392). -/
def shexaMay (s : State) : Bool := scRuns s && s.mgmt.conReply.isEmpty

/-- Run the front line of a session when it names this row (R392): the level is checked (R393), then the command runs. -/
def runLine (s : State) (x : Session) (row : ShexaRow) (keeper : Bool) (body : State → List (List Byte) → CmdResult) : State :=
  match s.mgmt.lines with
  | [] => s
  | (y, _, l) :: _ =>
    if y = x && shexaMay s then
      match lineRow (sessOf s x).machine l with
      | .error _ => s
      | .ok (r, ws) =>
        if r = row then finishLine x (if keeper && !(sessOf s x).keeper then replied (.err 5) s else body s ws) else s
    else s

end Sys2Proof.Machine
end

