-- ==== Sys2Proof/Machine/Shexa.lean ====
section
/-! DEFINITION. The console (R383, R384, R389), the Shexa commands (R393, R394), levels, the keeper phrase and lockout (R395–R398). -/

namespace Sys2Proof.Machine

/-! ### The console (R383, R384, R389) -/

/-- Whether a character would be part of a keeper phrase: it is one that a phrase may hold (R387), and the line's command word is unlock or
phrase, and is complete. -/
def inPhrase (rx : List Byte) (c : Byte) : Bool :=
  0x21 ≤ c.toNat && c.toNat ≤ 0x7E && rx.any isBlank &&
  (match lineWords rx with
   | w :: rest => (!rest.isEmpty || (rx.getLast?.map isBlank).getD false) &&
      (match resolveWord commandWords w with | .ok i => i = 5 || i = 7 | .error _ => false)
   | [] => false)

/-- A line of the console is complete: one completed in the same cycle as a chain line goes before it (R392). An empty line does nothing. -/
def consoleEnd (s : State) : State :=
  let l := s.mgmt.rx
  let m := { s.mgmt with rx := [] }
  let m := if lineEmpty m.console.machine l then m
    else { m with lines := m.lines.filter (fun e => !(e.1 = .chain && e.2.1 = s.time)) ++ [(.console, s.time, l)] ++
                            m.lines.filter (fun e => e.1 = .chain && e.2.1 = s.time) }
  { s with mgmt := m }

/-- Received characters that the console holds: the line so far, and the completed lines that have not been run. -/
def consoleHeld (s : State) : Nat :=
  (s.mgmt.lines.filter (fun l => l.1 = .console)).foldl (fun n l => n + l.2.2.length) s.mgmt.rx.length

/-- A character joins the line; one that finds 256 held is discarded (R383). -/
def consoleKeep (s : State) (c : Byte) : State :=
  if consoleHeld s < 256 then { s with mgmt := { s.mgmt with rx := s.mgmt.rx ++ [c] } } else s

/-- Ctrl-C abandons the line, and stops a reply after the line that is being written (R389). -/
def consoleBreakOff (s : State) : State :=
  let t := { s with mgmt := { s.mgmt with rx := [] } }
  if s.mgmt.conReply.isEmpty then t else replyOver t

/-- What a character does to the line in human mode (R389). -/
def consoleEdit (s : State) (c : Byte) : State :=
  match c.toNat with
  | 0x08 => { s with mgmt := { s.mgmt with rx := s.mgmt.rx.dropLast } }
  | 0x7F => { s with mgmt := { s.mgmt with rx := s.mgmt.rx.dropLast } }
  | 0x15 => { s with mgmt := { s.mgmt with rx := [] } }
  | 0x03 => consoleBreakOff s
  | _ => consoleKeep s c

/-- CONSOLE_CHARACTER (R383, R385, R389, R390): echoed and edited in human mode; a line ends at CR, LF or CR LF. -/
def execConsoleCharacter (c : Byte) (s : State) : Host.Outcome State Fault Refusal :=
  if s.power.vioOn && scRuns s then
    let human := !s.mgmt.console.machine
    let s := if human then emit s (.console [if c != 0x0D && c != 0x0A && inPhrase s.mgmt.rx c then 0x2A else c]) else s
    let afterCr := s.mgmt.sawCr
    let s := { s with mgmt := { s.mgmt with sawCr := c = 0x0D } }
    if c = 0x0D then .next (consoleEnd s)
    else if c = 0x0A then .next (if afterCr then s else consoleEnd s)
    else .next (if human then consoleEdit s c else consoleKeep s c)
  else .next s

/-- BREAK (R384): 115,200 baud, human mode, watch level, and no partial line. -/
def execConsoleBreak (s : State) : Host.Outcome State Fault Refusal :=
  if s.power.vioOn && coreOn s then
    let s := wrF s R_MG_CONSOLE MG_CONSOLE_BAUD 0
    .next { s with mgmt := { s.mgmt with rx := [], sawCr := false, console := { s.mgmt.console with machine := false, keeper := false } } }
  else .next s

/-! ### Accesses of commands (R393, R394) -/

/-- The error code of a refused access (R391). -/
def statusErr (st : Status) : Nat :=
  match st with
  | .absent => 6
  | .novat => 6
  | .range => 7
  | .denied => 8
  | .busy => 12
  | .retry => 13
  | .ue => 14
  | .poison => 14
  | _ => 4

/-- The reply to a write. -/
def statusReply (st : Status) : Reply := if st = .ok then .ok [] else .err (statusErr st)

/-- The reply to a write, or none while it waits. -/
def writeReply (x : Option (Status × Nat) × State) : CmdResult := perhaps (x.1.map (fun a => statusReply a.1)) x.2

/-- A register write of a command. -/
def cmdWrite (s : State) (key : Nat) (v : Word64) : CmdResult := writeReply (scWrite s key v)

/-- A write of a command whose reply is sent before it takes effect. -/
def writeAfter (s : State) (f : State → Option (Status × Nat) × State) : CmdResult :=
  let x := f s
  match x.1 with
  | none => perhaps none x.2
  | some (st, _) => if st = .ok then repliedThen (.ok []) s (fun s => (f s).2) else replied (.err (statusErr st)) x.2

/-- A register write of a command whose reply is sent before it takes effect. -/
def cmdWriteAfter (s : State) (key : Nat) (v : Word64) : CmdResult := writeAfter s (fun s => scWrite s key v)

/-- The write of a set: a rate written to MG_CONSOLE takes effect after the reply (R383). -/
def setReply (s : State) (key : Nat) (f : State → Option (Status × Nat) × State) : CmdResult :=
  if key = R_MG_CONSOLE then writeAfter s f else writeReply (f s)

/-- The word that setting a field writes back (R394): the others as read, except W1C, W1S and WO fields, which are zero. -/
def writeBack (old : Word64) (fs : List FieldRow) (f : Fld) (v : Nat) : Word64 :=
  setF (fs.foldl (fun w x => match x.access with
    | .w1c => setF w x.fld 0
    | .w1s => setF w x.fld 0
    | .wo => setF w x.fld 0
    | _ => w) old) f v

/-- Several fields of a register set by one read and one write. -/
def cmdSetFields (s : State) (key : Nat) (l : List (Fld × Nat)) : CmdResult :=
  match findRow key with
  | none => replied (.err 6) s
  | some r => writeReply (scUpdate s key (fun old => l.foldl (fun w p => setF w p.1 p.2) (writeBack old r.fields ⟨0, 0⟩ 0)))

/-- The error of a refused test, remap or retirement that finds one running (R391, code 12). -/
def busyReply (res : CmdResult) (busy : State → Bool) : CmdResult :=
  match res.1 with
  | some (.err 7) => if busy res.2.1 then (some (.err 12), res.2.1, res.2.2) else res
  | _ => res

/-- An exact number of words, or err 04. -/
def withWords (s : State) (ws : List (List Byte)) (n : Nat) (k : CmdResult) : CmdResult := if ws.length = n then k else replied (.err 4) s

/-- An argument's value, or err 04. -/
def withArg (s : State) (a : Option Nat) (k : Nat → CmdResult) : CmdResult :=
  match a with
  | some n => k n
  | none => replied (.err 4) s

/-- Word `i` of a line. -/
def word (ws : List (List Byte)) (i : Nat) : List Byte := ws.getD i []

/-- A present port, or err 04 or 06. -/
def withPort (s : State) (w : List Byte) (k : Nat → CmdResult) : CmdResult :=
  withArg s (parseUnit 0x70 8 w) (fun p => if p < numPorts s.variant then k p else replied (.err 6) s)

/-- A present engine, or err 04 or 06. -/
def withEngine (s : State) (w : List Byte) (k : Nat → CmdResult) : CmdResult :=
  withArg s (parseUnit 0x65 16 w) (fun e => if e < numEngines s.variant then k e else replied (.err 6) s)

/-- A keyword, or err 01 or 03. -/
def withKeyword (s : State) (words : List String) (w : List Byte) (k : Nat → CmdResult) : CmdResult :=
  match resolveWord words w with
  | .ok i => k i
  | .error e => replied (.err e) s

/-- A number that fits a field, or err 04. -/
def withField (s : State) (w : List Byte) (width : Nat) (k : Nat → CmdResult) : CmdResult :=
  withArg s (parseNum w) (fun v => if v < 2 ^ width then k v else replied (.err 4) s)

/-! ### help, show, get, set -/

/-- Data lines whose text the spec does not give. -/
def freeLines (s : State) (kind : Nat) : CmdResult := replied (.data (Config.replyText kind s.free)) { s with free := s.free + 1 }

/-- HELP (R393). -/
def execHelpCmd (sess : Session) (s : State) : Host.Outcome State Fault Refusal :=
  .next (runLine s sess .help false (fun s ws =>
    if ws.length = 1 then freeLines s 0
    else withWords s ws 2 (withKeyword s commandWords (word ws 1) (fun i => freeLines s (i + 1)))))

/-- The subjects of show. -/
def showSubjects : List String :=
  ["id", "cap", "grants", "chain", "ports", "port", "banks", "engines", "pair", "power", "start", "lees", "ue"]

/-- SHOW (R393): a summary whose format the spec leaves free. -/
def execShowCmd (sess : Session) (s : State) : Host.Outcome State Fault Refusal :=
  .next (runLine s sess .show false (fun s ws =>
    if ws.length < 2 then replied (.err 4) s
    else withKeyword s showSubjects (word ws 1) (fun i =>
      if i = 5 then withWords s ws 3 (withPort s (word ws 2) (fun p => freeLines s (100 + p)))
      else if i = 8 && !bigVariant s.variant then replied (.err 6) s
      else withWords s ws 2 (freeLines s (32 + i)))))

/-- Whether a read of an address has an effect (R394): TGT_CLAIM, TRY, TICKET, a mailbox claim. A target or mailbox that the variant lacks
has none. -/
def readHasEffect (v : Variant) (a : Nat) : Bool :=
  match spaceOf a with
  | .reg => isClaimKey (keyOf a) && regPresent v (keyOf a)
  | .sem => a % 64 = 0 || a % 64 = 0x10
  | .mbx => a % 256 = 0xC8 && (a - 0xFE400000) / 256 < numMailboxes v
  | _ => false

/-- Whether a word begins with a digit: a number, not a name. -/
def startsDigit (w : List Byte) : Bool := match w with | b :: _ => (digitOf 10 b).isSome | [] => false

/-- The address of a get or set by address, or the error code. -/
def cmdAddress (w : List Byte) : Except Nat Nat :=
  match parseNum w with
  | none => .error 4
  | some a => if a % 8 != 0 then .error 4 else if spaceOf a = .nothing then .error 6 else .ok a

/-- One read of a get; `shown` makes its value's text. -/
def cmdRead (s : State) (keeper : Bool) (a : Nat) (shown : Nat → List Byte) : CmdResult :=
  if readHasEffect s.variant a && !keeper then replied (.err 5) s
  else
    let x := scAccess s .read a 0
    perhaps (x.1.map (fun r => if r.1 = .ok then .ok (shown r.2) else .err (statusErr r.1))) x.2

/-- GET (R394). -/
def execGetCmd (sess : Session) (s : State) : Host.Outcome State Fault Refusal :=
  .next (runLine s sess .get false (fun s ws =>
    let keeper := (sessOf s sess).keeper
    withWords s ws 2 (
      if startsDigit (word ws 1) then
        match cmdAddress (word ws 1) with
        | .ok a => cmdRead s keeper a hexText
        | .error e => replied (.err e) s
      else
        match findTarget (word ws 1) with
        | .error e => replied (.err e) s
        | .ok (key, _, none) => cmdRead s keeper (0xFF800000 + key) hexText
        | .ok (key, _, some f) =>
          if !regPresent s.variant key then replied (.err 6) s
          else if f.access = .wo then replied (.err 8) s
          else cmdRead s keeper (0xFF800000 + key) (fun v => decText (getF (w64 v) f.fld)))))

/-- SET (R394): a whole register, an address, or a field by a read and a write. -/
def execSetCmd (sess : Session) (s : State) : Host.Outcome State Fault Refusal :=
  .next (runLine s sess .set true (fun s ws =>
    withWords s ws 3 (
      if startsDigit (word ws 1) then
        match cmdAddress (word ws 1) with
        | .ok a => withField s (word ws 2) 64 (fun v =>
            setReply s (if spaceOf a = .reg then keyOf a else 0) (fun s => scAccess s .write a (w64 v)))
        | .error e => replied (.err e) s
      else
        match findTarget (word ws 1) with
        | .error e => replied (.err e) s
        | .ok (key, _, none) => withField s (word ws 2) 64 (fun v => setReply s key (fun s => scWrite s key (w64 v)))
        | .ok (key, r, some f) =>
          if !regPresent s.variant key then replied (.err 6) s
          else if f.access = .ro then replied (.err 8) s
          else withField s (word ws 2) f.fld.width (fun v =>
            setReply s key (fun s => scUpdate s key (fun old => writeBack old r.fields f.fld v))))))

/-! ### Sessions (R390, R395–R397) -/

/-- Put a session in a mode, after the reply and before the prompt; the chain session is always in machine mode. -/
def modeAfter (sess : Session) (machine : Bool) (s : State) : State :=
  match sess with
  | .console => setSess s .console { s.mgmt.console with machine := machine }
  | .chain => s

/-- MODE_HUMAN (R390). -/
def execModeHuman (sess : Session) (s : State) : Host.Outcome State Fault Refusal :=
  .next (runLine s sess .modeHuman false (fun s ws => withWords s ws 2 (repliedThen (.ok []) s (modeAfter sess false))))

/-- MODE_MACHINE (R390). -/
def execModeMachine (sess : Session) (s : State) : Host.Outcome State Fault Refusal :=
  .next (runLine s sess .modeMachine false (fun s ws => withWords s ws 2 (repliedThen (.ok []) s (modeAfter sess true))))

/-- Set a session's level. -/
def setLevel (s : State) (sess : Session) (keeper : Bool) : State := setSess s sess { sessOf s sess with keeper := keeper }

/-- Cycles in a second. -/
def secondCycles : Nat := 1600000000

/-- A failed unlock is counted; the fifth locks (R396). While LOCKED = 1 nothing is counted. -/
def failedUnlock (s : State) : State :=
  if rdB s R_MG_KEEPLOCK MG_KEEPLOCK_LOCKED then s
  else
    let s := addSat (addSat s R_MG_KEEPLOCK MG_KEEPLOCK_TOTAL 1) R_MG_KEEPLOCK MG_KEEPLOCK_FAILS 1
    if rdF s R_MG_KEEPLOCK MG_KEEPLOCK_FAILS = 5 then
      let s := wrF (wrB s R_MG_KEEPLOCK MG_KEEPLOCK_LOCKED true) R_MG_KEEPLOCK MG_KEEPLOCK_LOCK_S 60
      { s with mgmt := { s.mgmt with nextTick := s.time + secondCycles } }
    else s

/-- UNLOCK (R396). -/
def execUnlockCmd (sess : Session) (s : State) : Host.Outcome State Fault Refusal :=
  .next (runLine s sess .unlock false (fun s ws =>
    if rdB s R_MG_KEEPLOCK MG_KEEPLOCK_LOCKED then replied (.err 9) s
    else withWords s ws 2 (
      if !isPhrase (word ws 1) then replied (.err 4) s
      else if word ws 1 = s.mgmt.phrase then
        replied (.ok (asciiBytes "keeper")) (wrF (setLevel s sess true) R_MG_KEEPLOCK MG_KEEPLOCK_FAILS 0)
      else replied (.err 10) (failedUnlock s))))

/-- LOCK (R395). -/
def execLockCmd (sess : Session) (s : State) : Host.Outcome State Fault Refusal :=
  .next (runLine s sess .lock false (fun s ws => withWords s ws 1 (replied (.ok (asciiBytes "watch")) (setLevel s sess false))))

/-- PHRASE (R397): a wrong old phrase counts as a failed unlock. -/
def execPhraseCmd (sess : Session) (s : State) : Host.Outcome State Fault Refusal :=
  .next (runLine s sess .phrase true (fun s ws => withWords s ws 3 (
    if !isPhrase (word ws 1) || !isPhrase (word ws 2) then replied (.err 4) s
    else if word ws 1 = s.mgmt.phrase then replied (.ok []) { s with mgmt := { s.mgmt with phrase := word ws 2 } }
    else replied (.err 10) (failedUnlock s))))

/-- KEEPER_TIMEOUT (R395): 15 minutes with no command in a keeper session. -/
def execKeeperTimeout (sess : Session) (s : State) : Host.Outcome State Fault Refusal :=
  if scRuns s && (sessOf s sess).keeper && (sessOf s sess).lastCmd + 900 * secondCycles ≤ s.time then .next (setLevel s sess false)
  else .next s

/-- LOCKOUT_TICK (R396). -/
def execLockoutTick (s : State) : Host.Outcome State Fault Refusal :=
  if coreOn s && rdB s R_MG_KEEPLOCK MG_KEEPLOCK_LOCKED && s.mgmt.nextTick ≤ s.time then
    let left := rdF s R_MG_KEEPLOCK MG_KEEPLOCK_LOCK_S - 1
    let s := { s with mgmt := { s.mgmt with nextTick := s.mgmt.nextTick + secondCycles } }
    let s := wrF s R_MG_KEEPLOCK MG_KEEPLOCK_LOCK_S left
    .next (if left = 0 then wrF (wrB s R_MG_KEEPLOCK MG_KEEPLOCK_LOCKED false) R_MG_KEEPLOCK MG_KEEPLOCK_FAILS 0 else s)
  else .next s

/-! ### grant, port (R393, R398) -/

/-- Set or clear the bit of a port in a register. -/
def cmdPortBit (s : State) (key p : Nat) (on : Bool) : CmdResult :=
  writeReply (scUpdate s key (fun old => if on then old ||| w64 (2 ^ p) else old &&& ~~~(w64 (2 ^ p))))

/-- GRANT_PRIV (R398). -/
def execGrantPriv (sess : Session) (s : State) : Host.Outcome State Fault Refusal :=
  .next (runLine s sess .grantPriv true (fun s ws => withWords s ws 3 (withPort s (word ws 1) (fun p => cmdPortBit s R_MG_GRANT p true))))

/-- GRANT_UNPRIV (R398). -/
def execGrantUnpriv (sess : Session) (s : State) : Host.Outcome State Fault Refusal :=
  .next (runLine s sess .grantUnpriv true (fun s ws => withWords s ws 3 (withPort s (word ws 1) (fun p => cmdPortBit s R_MG_GRANT p false))))

/-- PORT_ENABLE (R398). -/
def execPortEnable (sess : Session) (s : State) : Host.Outcome State Fault Refusal :=
  .next (runLine s sess .portEnable true (fun s ws => withWords s ws 3 (withPort s (word ws 1) (fun p => cmdPortBit s R_MG_PORTEN p true))))

/-- PORT_DISABLE (R398). -/
def execPortDisable (sess : Session) (s : State) : Host.Outcome State Fault Refusal :=
  .next (runLine s sess .portDisable true (fun s ws => withWords s ws 3 (withPort s (word ws 1) (fun p => cmdPortBit s R_MG_PORTEN p false))))

/-- PORT_RESET_COMMAND (R356). -/
def execPortResetCommand (sess : Session) (s : State) : Host.Outcome State Fault Refusal :=
  .next (runLine s sess .portReset true (fun s ws => withWords s ws 3 (withPort s (word ws 1) (fun p =>
    cmdWrite s R_PWR_RESET (setF 0 PWR_RESET_PORT (2 ^ p))))))

/-- PORT_RETRAIN (R283). -/
def execPortRetrain (sess : Session) (s : State) : Host.Outcome State Fault Refusal :=
  .next (runLine s sess .portRetrain true (fun s ws => withWords s ws 3 (withPort s (word ws 1) (fun p =>
    cmdSetFields s (R_LPH_CTL p) [(LPH_CTL_RETRAIN, 1)]))))

/-- PORT_SPARE (R286): SPARE_NOW with SPARE_LANE. -/
def execPortSpare (sess : Session) (s : State) : Host.Outcome State Fault Refusal :=
  .next (runLine s sess .portSpare true (fun s ws => withWords s ws 4 (withPort s (word ws 1) (fun p =>
    withField s (word ws 3) 3 (fun j => cmdSetFields s (R_LPH_CTL p) [(LPH_CTL_SPARE_NOW, 1), (LPH_CTL_SPARE_LANE, j)])))))

/-- PORT_UNSPARE (R287). -/
def execPortUnspare (sess : Session) (s : State) : Host.Outcome State Fault Refusal :=
  .next (runLine s sess .portUnspare true (fun s ws => withWords s ws 3 (withPort s (word ws 1) (fun p =>
    cmdSetFields s (R_LPH_CTL p) [(LPH_CTL_UNSPARE, 1)]))))

/-- PORT_RATES (R289). -/
def execPortRates (sess : Session) (s : State) : Host.Outcome State Fault Refusal :=
  .next (runLine s sess .portRates true (fun s ws => withWords s ws 4 (withPort s (word ws 1) (fun p =>
    withField s (word ws 3) 3 (fun m => cmdSetFields s (R_LPH_CTL p) [(LPH_CTL_RATES, m)])))))

/-! ### bank, engine, test, scrub (R252–R261) -/

/-- A START write of RET_CMD. -/
def retWord (b : Nat) (e : Option Nat) : Word64 :=
  let w := setF (setF 0 RET_CMD_BANK b) RET_CMD_START 1
  match e with
  | some e => setF (setF w RET_CMD_ENG_SEL 1) RET_CMD_ENGINE e
  | none => w

/-- BANK_RETIRE (R255). -/
def execBankRetire (sess : Session) (s : State) : Host.Outcome State Fault Refusal :=
  .next (runLine s sess .bankRetire true (fun s ws =>
    let go (e : Option Nat) : CmdResult := withArg s (parseBank (word ws 1)) (fun b =>
      if 64 ≤ b then replied (.err 4) s
      else busyReply (cmdWrite s R_RET_CMD (retWord b e)) (fun s => rdF s R_RET_STAT RET_STAT_CODE = 4))
    if ws.length = 3 then go none
    else withWords s ws 5 (withKeyword s ["engine"] (word ws 3) (fun _ => withEngine s (word ws 4) (fun e => go (some e))))))

/-- BANK_REMAP (R254). -/
def execBankRemap (sess : Session) (s : State) : Host.Outcome State Fault Refusal :=
  .next (runLine s sess .bankRemap true (fun s ws => withWords s ws 4 (withArg s (parseBank (word ws 1)) (fun u =>
    if 128 ≤ u then replied (.err 4) s
    else withField s (word ws 3) 16 (fun line =>
      busyReply (cmdWrite s R_RMP_CMD (setF (setF (setF 0 RMP_CMD_UNIT u) RMP_CMD_LINE line) RMP_CMD_GO 1))
        (fun s => rdF s R_RMP_STAT RMP_STAT_CODE = 2))))))

/-- ENGINE_OFFLINE (R170). -/
def execEngineOffline (sess : Session) (s : State) : Host.Outcome State Fault Refusal :=
  .next (runLine s sess .engineOffline true (fun s ws => withWords s ws 3 (withEngine s (word ws 1) (fun e =>
    cmdSetFields s (R_ENG_CTL e) [(ENG_CTL_OFFLINE, 1)]))))

/-- ENGINE_ONLINE (R170). -/
def execEngineOnline (sess : Session) (s : State) : Host.Outcome State Fault Refusal :=
  .next (runLine s sess .engineOnline true (fun s ws => withWords s ws 3 (withEngine s (word ws 1) (fun e =>
    cmdSetFields s (R_ENG_CTL e) [(ENG_CTL_OFFLINE, 0)]))))

/-- ENGINE_RESET_COMMAND (R171). -/
def execEngineResetCommand (sess : Session) (s : State) : Host.Outcome State Fault Refusal :=
  .next (runLine s sess .engineReset true (fun s ws => withWords s ws 3 (withEngine s (word ws 1) (fun e =>
    cmdSetFields s (R_ENG_CTL e) [(ENG_CTL_RESET, 1)]))))

/-- ENGINE_TEST (R260). -/
def execEngineTest (sess : Session) (s : State) : Host.Outcome State Fault Refusal :=
  .next (runLine s sess .engineTest true (fun s ws => withWords s ws 3 (withEngine s (word ws 1) (fun e =>
    cmdWrite s R_TST_ENG (setF (setF 0 TST_ENG_ENGINE e) TST_ENG_GO 1)))))

/-- The options of a test command: ALGO, EMPTY and confirm; or the error code. -/
def testOptions : List (List Byte) → Nat × Bool × Bool → Except Nat (Nat × Bool × Bool)
  | [], o => .ok o
  | w :: ws, o =>
    match resolveWord ["algo", "empty", "confirm"] w with
    | .error e => .error e
    | .ok 0 =>
      match ws with
      | [] => .error 4
      | n :: rest => match parseNum n with
        | some v => if v < 2 then testOptions rest (v, o.2) else .error 4
        | none => .error 4
    | .ok 1 => testOptions ws (o.1, true, o.2.2)
    | .ok _ => testOptions ws (o.1, o.2.1, true)

/-- A START write of TST_CMD, once a destructive test is confirmed. -/
def cmdTest (s : State) (u mode g : Nat) (opts : List (List Byte)) : CmdResult :=
  match testOptions opts (0, false, false) with
  | .error e => replied (.err e) s
  | .ok (algo, empty, confirm) =>
    if mode = 2 && !confirm then replied (.err 15) s
    else
      let w := setF (setF (setF (setF (setF (setF 0 TST_CMD_UNIT u) TST_CMD_MODE mode) TST_CMD_ALGO algo) TST_CMD_EMPTY (b01 empty))
        TST_CMD_GROUP g) TST_CMD_START 1
      busyReply (cmdWrite s R_TST_CMD w) (fun s => rdF s R_TST_STAT TST_STAT_CODE = 1)

/-- TEST (R252). -/
def execTestCmd (sess : Session) (s : State) : Host.Outcome State Fault Refusal :=
  .next (runLine s sess .test true (fun s ws =>
    if ws.length < 3 then replied (.err 4) s
    else withArg s (parseBank (word ws 1)) (fun u =>
      if 128 ≤ u then replied (.err 4) s
      else withKeyword s ["preserving", "group", "destructive"] (word ws 2) (fun m =>
        if m = 1 then
          if ws.length < 4 then replied (.err 4) s else withField s (word ws 3) 11 (fun g => cmdTest s u 1 g (ws.drop 4))
        else cmdTest s u m 0 (ws.drop 3)))))

/-- SCRUB_ON (R231). -/
def execScrubOn (sess : Session) (s : State) : Host.Outcome State Fault Refusal :=
  .next (runLine s sess .scrubOn true (fun s ws => withWords s ws 2 (cmdSetFields s R_INT_CTL [(INT_CTL_SCRUB_EN, 1)])))

/-- SCRUB_OFF (R231). -/
def execScrubOff (sess : Session) (s : State) : Host.Outcome State Fault Refusal :=
  .next (runLine s sess .scrubOff true (fun s ws => withWords s ws 2 (cmdSetFields s R_INT_CTL [(INT_CTL_SCRUB_EN, 0)])))

/-- SCRUB_PERIOD (R231). -/
def execScrubPeriod (sess : Session) (s : State) : Host.Outcome State Fault Refusal :=
  .next (runLine s sess .scrubPeriod true (fun s ws => withWords s ws 3 (withField s (word ws 2) INT_SCRUB_CFG_PERIOD_MIN.width (fun n =>
    cmdSetFields s R_INT_SCRUB_CFG [(INT_SCRUB_CFG_PERIOD_MIN, n)]))))

/-! ### pair (R347) -/

/-- PAIR_ROLE. -/
def execPairRole (sess : Session) (s : State) : Host.Outcome State Fault Refusal :=
  .next (runLine s sess .pairRole true (fun s ws => withWords s ws 3 (withKeyword s ["none", "primary", "secondary"] (word ws 2) (fun r =>
    cmdSetFields s R_PR_ROLE [(PR_ROLE_ROLE, r)]))))

/-- PAIR_PORTS. -/
def execPairPorts (sess : Session) (s : State) : Host.Outcome State Fault Refusal :=
  .next (runLine s sess .pairPorts true (fun s ws => withWords s ws 3 (withArg s (parseDec (word ws 2)) (fun n =>
    if n = 7 then cmdSetFields s R_PR_ROLE [(PR_ROLE_PORTS, 0)]
    else if n = 67 then cmdSetFields s R_PR_ROLE [(PR_ROLE_PORTS, 1)]
    else replied (.err 4) s))))

/-- PAIR_MIRROR. -/
def execPairMirror (sess : Session) (s : State) : Host.Outcome State Fault Refusal :=
  .next (runLine s sess .pairMirror true (fun s ws => withWords s ws 3 (withField s (word ws 2) 8 (fun m =>
    cmdSetFields s R_PR_MIRROR [(PR_MIRROR_REGIONS, m)]))))

/-- PAIR_JOIN: SOURCE 1 keeps this side, 0 yields; without the word SOURCE stays as read. -/
def execPairJoin (sess : Session) (s : State) : Host.Outcome State Fault Refusal :=
  .next (runLine s sess .pairJoin true (fun s ws =>
    if ws.length = 2 then cmdSetFields s R_PR_CMD [(PR_CMD_JOIN, 1)]
    else withWords s ws 3 (withKeyword s ["yield", "keep"] (word ws 2) (fun k =>
      cmdSetFields s R_PR_CMD [(PR_CMD_JOIN, 1), (PR_CMD_SOURCE, k)]))))

/-- PAIR_PROMOTE. -/
def execPairPromote (sess : Session) (s : State) : Host.Outcome State Fault Refusal :=
  .next (runLine s sess .pairPromote true (fun s ws => withWords s ws 2 (cmdSetFields s R_PR_CMD [(PR_CMD_PROMOTE, 1)])))

/-- PAIR_LEAVE. -/
def execPairLeave (sess : Session) (s : State) : Host.Outcome State Fault Refusal :=
  .next (runLine s sess .pairLeave true (fun s ws => withWords s ws 2 (cmdSetFields s R_PR_CMD [(PR_CMD_LEAVE, 1)])))

/-! ### record, reset, console -/

/-- RECORD_START (R367). -/
def execRecordStart (sess : Session) (s : State) : Host.Outcome State Fault Refusal :=
  .next (runLine s sess .recordStart false (fun s ws => withWords s ws 2 (freeLines s 64)))

/-- LENGTH of the record whose first bytes these are, `none` when they are no header of one (R419). -/
def cellarLength (bs : List Byte) : Option Nat :=
  let n := leNat (sliceBytes bs 8 4)
  if leNat (bs.take 4) = 0x524C4543 && 64 ≤ n && n ≤ 0x100000 then some n else none

/-- Whether the area holds a record: MAGIC and CRC hold (R419). -/
def cellarHolds (bs : List Byte) : Bool :=
  match cellarLength bs with
  | none => false
  | some n => crc32c 0 ((overlay bs 12 (leBytes 4 0)).take n) = leNat (sliceBytes bs 12 4)

/-- The bytes of the area that a check reads, after the bytes read so far: its header's line, then the record. -/
def cellarNeeds (bs : List Byte) : Nat := if bs.length < 64 then 64 else (cellarLength bs).getD 0

/-- The area has been read: "ok none", or one line for the header and one for each section. -/
def cellarReply (s : State) : CmdResult :=
  let t := { s with mgmt := { s.mgmt with area := [] } }
  if cellarHolds s.mgmt.area then
    replied (.data ((List.range 6).map (fun i => (Config.replyText (65 + i) s.free).headD []))) { t with free := t.free + 1 }
  else replied (.ok (asciiBytes "none")) t

/-- The lines of the area are read one after another, until what is needed has been read. -/
def cellarCheck (s : State) : CmdResult :=
  if s.mgmt.area.length < cellarNeeds s.mgmt.area then
    let x := scLine s (cellarBase s.variant + s.mgmt.area.length)
    match x.1 with
    | none => perhaps none x.2
    | some (st, v) =>
      if st = .ok then
        let t := { x.2 with mgmt := { x.2.mgmt with area := x.2.mgmt.area ++ leBytes 64 v } }
        if t.mgmt.area.length < cellarNeeds t.mgmt.area then perhaps none t else cellarReply t
      else replied (.err (statusErr st)) { x.2 with mgmt := { x.2.mgmt with area := [] } }
  else cellarReply s

/-- RECORD_CELLAR: the area's header and CRC are read and checked. -/
def execRecordCellar (sess : Session) (s : State) : Host.Outcome State Fault Refusal :=
  .next (runLine s sess .recordCellar false (fun s ws => withWords s ws 2 (cellarCheck s)))

/-- RESET_WARM (R355): the reply is sent before the reset begins. -/
def execResetWarm (sess : Session) (s : State) : Host.Outcome State Fault Refusal :=
  .next (runLine s sess .resetWarm true (fun s ws =>
    if ws.length = 2 then replied (.err 15) s
    else withWords s ws 3 (withKeyword s ["confirm"] (word ws 2) (fun _ =>
      cmdWriteAfter s R_PWR_RESET (setF (setF 0 PWR_RESET_WARM 1) PWR_RESET_KEY 0x5741)))))

/-- RESET_PORT (R356): the reply is sent before the reset. -/
def execResetPort (sess : Session) (s : State) : Host.Outcome State Fault Refusal :=
  .next (runLine s sess .resetPort true (fun s ws => withWords s ws 3 (withPort s (word ws 2) (fun p =>
    cmdWriteAfter s R_PWR_RESET (setF 0 PWR_RESET_PORT (2 ^ p))))))

/-- CONSOLE_BAUD (R383): the rate takes effect after the reply. -/
def execConsoleBaud (sess : Session) (s : State) : Host.Outcome State Fault Refusal :=
  .next (runLine s sess .consoleBaud true (fun s ws => withWords s ws 3 (withArg s (parseNum (word ws 2)) (fun n =>
    if baudRates.contains n then cmdWriteAfter s R_MG_CONSOLE (setF (rd s R_MG_CONSOLE) MG_CONSOLE_BAUD (baudRates.idxOf n))
    else replied (.err 4) s))))

/-- UNKNOWN_COMMAND (R385, R386, R390, R391): a line that names no command is answered with its error and not run. -/
def execUnknownCommand (sess : Session) (s : State) : Host.Outcome State Fault Refusal :=
  match s.mgmt.lines with
  | [] => .next s
  | (y, _, l) :: _ =>
    if y = sess && shexaMay s then
      match lineRow (sessOf s sess).machine l with
      | .error e => .next (afterReply (endLine s sess (.err e)) sess)
      | .ok _ => .next s
    else .next s

end Sys2Proof.Machine
end

