-- ==== Sys2Proof/Machine/Dispatch.lean ====
section
/-! DEFINITION. The dispatch: one arm for each command, each a direct call of its meaning. -/

namespace Sys2Proof.Machine

/-- The command's effect on everything but the queue. -/
def exec (i : Instr) (s : State) : Host.Outcome State Fault Refusal :=
  match i with
  | .readReq h addr len => Sys2Proof.Machine.execReadReq h addr len s
  | .writeReq h addr len mask data => Sys2Proof.Machine.execWriteReq h addr len mask data s
  | .readRun h addr len run => Sys2Proof.Machine.execReadRun h addr len run s
  | .writeRun h addr len run data => Sys2Proof.Machine.execWriteRun h addr len run data s
  | .faddReq h addr len data => Sys2Proof.Machine.execFaddReq h addr len data s
  | .fandReq h addr len data => Sys2Proof.Machine.execFandReq h addr len data s
  | .forReq h addr len data => Sys2Proof.Machine.execForReq h addr len data s
  | .fxorReq h addr len data => Sys2Proof.Machine.execFxorReq h addr len data s
  | .swapReq h addr len data => Sys2Proof.Machine.execSwapReq h addr len data s
  | .casReq h addr len data => Sys2Proof.Machine.execCasReq h addr len data s
  | .fminsReq h addr len data => Sys2Proof.Machine.execFminsReq h addr len data s
  | .fminuReq h addr len data => Sys2Proof.Machine.execFminuReq h addr len data s
  | .fmaxsReq h addr len data => Sys2Proof.Machine.execFmaxsReq h addr len data s
  | .fmaxuReq h addr len data => Sys2Proof.Machine.execFmaxuReq h addr len data s
  | .accReq h addr len opfmt tally data => Sys2Proof.Machine.execAccReq h addr len opfmt tally data s
  | .rdcvReq h addr len => Sys2Proof.Machine.execRdcvReq h addr len s
  | .fenceReq h => Sys2Proof.Machine.execFenceReq h s
  | .malformedUnit port => Sys2Proof.Machine.execMalformedUnit port s
  | .orderedRelease port slot => Sys2Proof.Machine.execOrderedRelease port slot s
  | .bankSlot bank => Sys2Proof.Machine.execBankSlot bank s
  | .arbitrationSettingApply => Sys2Proof.Machine.execArbitrationSettingApply s
  | .tallyStep => Sys2Proof.Machine.execTallyStep s
  | .semTry => Sys2Proof.Machine.execSemTry s
  | .semRelease => Sys2Proof.Machine.execSemRelease s
  | .semTicket => Sys2Proof.Machine.execSemTicket s
  | .semServe => Sys2Proof.Machine.execSemServe s
  | .semPeek => Sys2Proof.Machine.execSemPeek s
  | .stateWrite => Sys2Proof.Machine.execStateWrite s
  | .notifyRead => Sys2Proof.Machine.execNotifyRead s
  | .notifyWrite => Sys2Proof.Machine.execNotifyWrite s
  | .semClear by_ v => Sys2Proof.Machine.execSemClear by_ v s
  | .semClearStep => Sys2Proof.Machine.execSemClearStep s
  | .semStatClear by_ v => Sys2Proof.Machine.execSemStatClear by_ v s
  | .payloadWrite => Sys2Proof.Machine.execPayloadWrite s
  | .mailboxRead => Sys2Proof.Machine.execMailboxRead s
  | .doorbell => Sys2Proof.Machine.execDoorbell s
  | .mailboxClaim => Sys2Proof.Machine.execMailboxClaim s
  | .bindingWrite => Sys2Proof.Machine.execBindingWrite s
  | .mailboxCommit => Sys2Proof.Machine.execMailboxCommit s
  | .mbxClear by_ v => Sys2Proof.Machine.execMbxClear by_ v s
  | .mbxClearStep => Sys2Proof.Machine.execMbxClearStep s
  | .mbxStatClear by_ v => Sys2Proof.Machine.execMbxStatClear by_ v s
  | .arbStatClear by_ v => Sys2Proof.Machine.execArbStatClear by_ v s
  | .vatCtlWrite by_ vat v => Sys2Proof.Machine.execVatCtlWrite by_ vat v s
  | .vatRearm by_ vat v => Sys2Proof.Machine.execVatRearm by_ vat v s
  | .vatStatClear by_ vat v => Sys2Proof.Machine.execVatStatClear by_ vat v s
  | .registerWrite by_ key v => Sys2Proof.Machine.execRegisterWrite by_ key v s
  | .responseSend port mgmt => Sys2Proof.Machine.execResponseSend port mgmt s
  | .engineIssue e => Sys2Proof.Machine.execEngineIssue e s
  | .nopDesc e q => Sys2Proof.Machine.execNopDesc e q s
  | .copyDesc e q => Sys2Proof.Machine.execCopyDesc e q s
  | .fillDesc e q => Sys2Proof.Machine.execFillDesc e q s
  | .gatherDesc e q => Sys2Proof.Machine.execGatherDesc e q s
  | .scatterDesc e q => Sys2Proof.Machine.execScatterDesc e q s
  | .accumDesc e q => Sys2Proof.Machine.execAccumDesc e q s
  | .crcDesc e q => Sys2Proof.Machine.execCrcDesc e q s
  | .compareDesc e q => Sys2Proof.Machine.execCompareDesc e q s
  | .semaTry e q => Sys2Proof.Machine.execSemaTry e q s
  | .semaRelease e q => Sys2Proof.Machine.execSemaRelease e q s
  | .semaTicket e q => Sys2Proof.Machine.execSemaTicket e q s
  | .semaServe e q => Sys2Proof.Machine.execSemaServe e q s
  | .semaPeek e q => Sys2Proof.Machine.execSemaPeek e q s
  | .semaNotify e q => Sys2Proof.Machine.execSemaNotify e q s
  | .postDesc e q => Sys2Proof.Machine.execPostDesc e q s
  | .waitTally e q => Sys2Proof.Machine.execWaitTally e q s
  | .waitCompletions e q => Sys2Proof.Machine.execWaitCompletions e q s
  | .waitFree e q => Sys2Proof.Machine.execWaitFree e q s
  | .waitTake e q => Sys2Proof.Machine.execWaitTake e q s
  | .waitReevaluate e q => Sys2Proof.Machine.execWaitReevaluate e q s
  | .waitTimeout e q => Sys2Proof.Machine.execWaitTimeout e q s
  | .pushDesc e q => Sys2Proof.Machine.execPushDesc e q s
  | .descriptorFence e q => Sys2Proof.Machine.execDescriptorFence e q s
  | .matchArrive e q => Sys2Proof.Machine.execMatchArrive e q s
  | .matchPost e q => Sys2Proof.Machine.execMatchPost e q s
  | .matchProbe e q => Sys2Proof.Machine.execMatchProbe e q s
  | .matchCancel e q => Sys2Proof.Machine.execMatchCancel e q s
  | .accessReissue e q => Sys2Proof.Machine.execAccessReissue e q s
  | .descriptorRetire e q => Sys2Proof.Machine.execDescriptorRetire e q s
  | .qTailWrite by_ e q v => Sys2Proof.Machine.execQTailWrite by_ e q v s
  | .qCfgWrite by_ e q v => Sys2Proof.Machine.execQCfgWrite by_ e q v s
  | .stopQueue by_ e q v => Sys2Proof.Machine.execStopQueue by_ e q v s
  | .goQueue by_ e q v => Sys2Proof.Machine.execGoQueue by_ e q v s
  | .resumeRetry by_ e q v => Sys2Proof.Machine.execResumeRetry by_ e q v s
  | .resumeSkip by_ e q v => Sys2Proof.Machine.execResumeSkip by_ e q v s
  | .offlineWrite by_ e v => Sys2Proof.Machine.execOfflineWrite by_ e v s
  | .engineOfflineDone e => Sys2Proof.Machine.execEngineOfflineDone e s
  | .engineReset by_ e v => Sys2Proof.Machine.execEngineReset by_ e v s
  | .rackCopyLine e => Sys2Proof.Machine.execRackCopyLine e s
  | .mcCtlWrite by_ ctx v => Sys2Proof.Machine.execMcCtlWrite by_ ctx v s
  | .mcStatClear by_ v => Sys2Proof.Machine.execMcStatClear by_ v s
  | .intcCycle => Sys2Proof.Machine.execIntcCycle s
  | .setPend by_ src v => Sys2Proof.Machine.execSetPend by_ src v s
  | .pendingClear by_ src v => Sys2Proof.Machine.execPendingClear by_ src v s
  | .targetWrite by_ src v => Sys2Proof.Machine.execTargetWrite by_ src v s
  | .tgtClaim by_ t => Sys2Proof.Machine.execTgtClaim by_ t s
  | .tgtEoi by_ t v => Sys2Proof.Machine.execTgtEoi by_ t v s
  | .asleepWrite by_ t v => Sys2Proof.Machine.execAsleepWrite by_ t v s
  | .messageSend port => Sys2Proof.Machine.execMessageSend port s
  | .scrubVisit => Sys2Proof.Machine.execScrubVisit s
  | .logWrite => Sys2Proof.Machine.execLogWrite s
  | .remapCopy => Sys2Proof.Machine.execRemapCopy s
  | .logClear by_ v => Sys2Proof.Machine.execLogClear by_ v s
  | .intStatClear by_ v => Sys2Proof.Machine.execIntStatClear by_ v s
  | .intInjectWrite by_ v => Sys2Proof.Machine.execIntInjectWrite by_ v s
  | .bgGroupBegin bank => Sys2Proof.Machine.execBgGroupBegin bank s
  | .holdTimeout bank => Sys2Proof.Machine.execHoldTimeout bank s
  | .tstCmdStart by_ v => Sys2Proof.Machine.execTstCmdStart by_ v s
  | .foregroundTestEnd => Sys2Proof.Machine.execForegroundTestEnd s
  | .abortTest by_ v => Sys2Proof.Machine.execAbortTest by_ v s
  | .tstStatClear by_ v => Sys2Proof.Machine.execTstStatClear by_ v s
  | .rmpCmdGo by_ v => Sys2Proof.Machine.execRmpCmdGo by_ v s
  | .retCmdStart by_ v => Sys2Proof.Machine.execRetCmdStart by_ v s
  | .tstEngGo by_ v => Sys2Proof.Machine.execTstEngGo by_ v s
  | .engineSelftestEnd e passed => Sys2Proof.Machine.execEngineSelftestEnd e passed s
  | .flitReceive port symbols => Sys2Proof.Machine.execFlitReceive port symbols s
  | .nakTimeout port => Sys2Proof.Machine.execNakTimeout port s
  | .ackTimeout port => Sys2Proof.Machine.execAckTimeout port s
  | .flitSend port => Sys2Proof.Machine.execFlitSend port s
  | .replayFlits port => Sys2Proof.Machine.execReplayFlits port s
  | .ptStatClear by_ p v => Sys2Proof.Machine.execPtStatClear by_ p v s
  | .emfUpdate port lane rx => Sys2Proof.Machine.execEmfUpdate port lane rx s
  | .readaptTimeout port lane => Sys2Proof.Machine.execReadaptTimeout port lane s
  | .markerMissing port lane => Sys2Proof.Machine.execMarkerMissing port lane s
  | .eiIdleTimeout port => Sys2Proof.Machine.execEiIdleTimeout port s
  | .eiReq marker => Sys2Proof.Machine.execEiReq marker s
  | .eiAck marker => Sys2Proof.Machine.execEiAck marker s
  | .eiNak marker => Sys2Proof.Machine.execEiNak marker s
  | .eiExit port => Sys2Proof.Machine.execEiExit port s
  | .wakeBurst port => Sys2Proof.Machine.execWakeBurst port s
  | .eiExitTimeout port => Sys2Proof.Machine.execEiExitTimeout port s
  | .retrainReq marker => Sys2Proof.Machine.execRetrainReq marker s
  | .retrainTimeout port => Sys2Proof.Machine.execRetrainTimeout port s
  | .trainingBlock port lane rx block => Sys2Proof.Machine.execTrainingBlock port lane rx block s
  | .trainingTimeout port => Sys2Proof.Machine.execTrainingTimeout port s
  | .signalLoss port => Sys2Proof.Machine.execSignalLoss port s
  | .downBackoffEnd port => Sys2Proof.Machine.execDownBackoffEnd port s
  | .unansweredBackoffEnd port => Sys2Proof.Machine.execUnansweredBackoffEnd port s
  | .lphRetrain by_ p v => Sys2Proof.Machine.execLphRetrain by_ p v s
  | .spareNowWrite by_ p v => Sys2Proof.Machine.execSpareNowWrite by_ p v s
  | .unspareWrite by_ p v => Sys2Proof.Machine.execUnspareWrite by_ p v s
  | .loopWrite by_ p v => Sys2Proof.Machine.execLoopWrite by_ p v s
  | .minClear by_ p lane v => Sys2Proof.Machine.execMinClear by_ p lane v s
  | .lnStatClear by_ v => Sys2Proof.Machine.execLnStatClear by_ v s
  | .linesUnit port utag base lmask data => Sys2Proof.Machine.execLinesUnit port utag base lmask data s
  | .semUnit port utag n state binding => Sys2Proof.Machine.execSemUnit port utag n state binding s
  | .mbxUnit port utag n parts isOpen data => Sys2Proof.Machine.execMbxUnit port utag n parts isOpen data s
  | .vatUnit port utag n data => Sys2Proof.Machine.execVatUnit port utag n data s
  | .acceptUnit port utags => Sys2Proof.Machine.execAcceptUnit port utags s
  | .helloUnit port f => Sys2Proof.Machine.execHelloUnit port f s
  | .helloSend => Sys2Proof.Machine.execHelloSend s
  | .pairPortLoss port => Sys2Proof.Machine.execPairPortLoss port s
  | .promoteWrite by_ v => Sys2Proof.Machine.execPromoteWrite by_ v s
  | .autoPromote => Sys2Proof.Machine.execAutoPromote s
  | .joinWrite by_ v => Sys2Proof.Machine.execJoinWrite by_ v s
  | .leaveWrite by_ v => Sys2Proof.Machine.execLeaveWrite by_ v s
  | .syncCopy => Sys2Proof.Machine.execSyncCopy s
  | .healReq port utag addr => Sys2Proof.Machine.execHealReq port utag addr s
  | .healData port utag addr good data => Sys2Proof.Machine.execHealData port utag addr good data s
  | .pwrRegionWrite by_ v => Sys2Proof.Machine.execPwrRegionWrite by_ v s
  | .retainWakeDone region => Sys2Proof.Machine.execRetainWakeDone region s
  | .retainIdleTimeout region => Sys2Proof.Machine.execRetainIdleTimeout region s
  | .offWakeDone region => Sys2Proof.Machine.execOffWakeDone region s
  | .devStateWrite by_ v => Sys2Proof.Machine.execDevStateWrite by_ v s
  | .holdEntry mv => Sys2Proof.Machine.execHoldEntry mv s
  | .holdEnd minMv => Sys2Proof.Machine.execHoldEnd minMv s
  | .brownoutReset => Sys2Proof.Machine.execBrownoutReset s
  | .powerOn => Sys2Proof.Machine.execPowerOn s
  | .railFail vio => Sys2Proof.Machine.execRailFail vio s
  | .pinReset => Sys2Proof.Machine.execPinReset s
  | .warmReset by_ v => Sys2Proof.Machine.execWarmReset by_ v s
  | .portReset by_ v => Sys2Proof.Machine.execPortReset by_ v s
  | .startStep rep => Sys2Proof.Machine.execStartStep rep s
  | .s8Timeout => Sys2Proof.Machine.execS8Timeout s
  | .s9Timeout => Sys2Proof.Machine.execS9Timeout s
  | .refclkLoss => Sys2Proof.Machine.execRefclkLoss s
  | .refclkReturn => Sys2Proof.Machine.execRefclkReturn s
  | .scHalt => Sys2Proof.Machine.execScHalt s
  | .fatalError cause detail => Sys2Proof.Machine.execFatalError cause detail s
  | .cellarRecordDone => Sys2Proof.Machine.execCellarRecordDone s
  | .fatalWatchdog => Sys2Proof.Machine.execFatalWatchdog s
  | .enumFrame f => Sys2Proof.Machine.execEnumFrame f s
  | .lineFrame f => Sys2Proof.Machine.execLineFrame f s
  | .pollFrame f => Sys2Proof.Machine.execPollFrame f s
  | .statusFrame f => Sys2Proof.Machine.execStatusFrame f s
  | .peekFrame f => Sys2Proof.Machine.execPeekFrame f s
  | .peekDone => Sys2Proof.Machine.execPeekDone s
  | .consoleCharacter c => Sys2Proof.Machine.execConsoleCharacter c s
  | .consoleBreak => Sys2Proof.Machine.execConsoleBreak s
  | .helpCmd sess => Sys2Proof.Machine.execHelpCmd sess s
  | .showCmd sess => Sys2Proof.Machine.execShowCmd sess s
  | .getCmd sess => Sys2Proof.Machine.execGetCmd sess s
  | .setCmd sess => Sys2Proof.Machine.execSetCmd sess s
  | .modeHuman sess => Sys2Proof.Machine.execModeHuman sess s
  | .modeMachine sess => Sys2Proof.Machine.execModeMachine sess s
  | .unlockCmd sess => Sys2Proof.Machine.execUnlockCmd sess s
  | .lockCmd sess => Sys2Proof.Machine.execLockCmd sess s
  | .phraseCmd sess => Sys2Proof.Machine.execPhraseCmd sess s
  | .grantPriv sess => Sys2Proof.Machine.execGrantPriv sess s
  | .grantUnpriv sess => Sys2Proof.Machine.execGrantUnpriv sess s
  | .portEnable sess => Sys2Proof.Machine.execPortEnable sess s
  | .portDisable sess => Sys2Proof.Machine.execPortDisable sess s
  | .portResetCommand sess => Sys2Proof.Machine.execPortResetCommand sess s
  | .portRetrain sess => Sys2Proof.Machine.execPortRetrain sess s
  | .portSpare sess => Sys2Proof.Machine.execPortSpare sess s
  | .portUnspare sess => Sys2Proof.Machine.execPortUnspare sess s
  | .portRates sess => Sys2Proof.Machine.execPortRates sess s
  | .bankRetire sess => Sys2Proof.Machine.execBankRetire sess s
  | .bankRemap sess => Sys2Proof.Machine.execBankRemap sess s
  | .engineOffline sess => Sys2Proof.Machine.execEngineOffline sess s
  | .engineOnline sess => Sys2Proof.Machine.execEngineOnline sess s
  | .engineResetCommand sess => Sys2Proof.Machine.execEngineResetCommand sess s
  | .engineTest sess => Sys2Proof.Machine.execEngineTest sess s
  | .testCmd sess => Sys2Proof.Machine.execTestCmd sess s
  | .scrubOn sess => Sys2Proof.Machine.execScrubOn sess s
  | .scrubOff sess => Sys2Proof.Machine.execScrubOff sess s
  | .scrubPeriod sess => Sys2Proof.Machine.execScrubPeriod sess s
  | .pairRole sess => Sys2Proof.Machine.execPairRole sess s
  | .pairPorts sess => Sys2Proof.Machine.execPairPorts sess s
  | .pairMirror sess => Sys2Proof.Machine.execPairMirror sess s
  | .pairJoin sess => Sys2Proof.Machine.execPairJoin sess s
  | .pairPromote sess => Sys2Proof.Machine.execPairPromote sess s
  | .pairLeave sess => Sys2Proof.Machine.execPairLeave sess s
  | .recordStart sess => Sys2Proof.Machine.execRecordStart sess s
  | .recordCellar sess => Sys2Proof.Machine.execRecordCellar sess s
  | .resetWarm sess => Sys2Proof.Machine.execResetWarm sess s
  | .resetPort sess => Sys2Proof.Machine.execResetPort sess s
  | .consoleBaud sess => Sys2Proof.Machine.execConsoleBaud sess s
  | .keeperTimeout sess => Sys2Proof.Machine.execKeeperTimeout sess s
  | .lockoutTick => Sys2Proof.Machine.execLockoutTick s
  | .mgStatClear by_ v => Sys2Proof.Machine.execMgStatClear by_ v s
  | .pcCfgWrite by_ n v => Sys2Proof.Machine.execPcCfgWrite by_ n v s
  | .freezeCounters by_ v => Sys2Proof.Machine.execFreezeCounters by_ v s
  | .clearAll by_ v => Sys2Proof.Machine.execClearAll by_ v s
  | .smpCtlWrite by_ v => Sys2Proof.Machine.execSmpCtlWrite by_ v s
  | .smpClear by_ v => Sys2Proof.Machine.execSmpClear by_ v s
  | .smpIdxWrite by_ v => Sys2Proof.Machine.execSmpIdxWrite by_ v s
  | .trIdxWrite by_ v => Sys2Proof.Machine.execTrIdxWrite by_ v s
  | .trClear by_ v => Sys2Proof.Machine.execTrClear by_ v s
  | .celCtlWrite by_ v => Sys2Proof.Machine.execCelCtlWrite by_ v s
  | .resetNRise => Sys2Proof.Machine.execResetNRise s
  | .undefinedTypeFrame f typ => Sys2Proof.Machine.execUndefinedTypeFrame f typ s
  | .unknownCommand sess => Sys2Proof.Machine.execUnknownCommand sess s
  | .lossOfLock port lane => Sys2Proof.Machine.execLossOfLock port lane s
  | .retainEntryDone region => Sys2Proof.Machine.execRetainEntryDone region s
  | .s4Timeout => Sys2Proof.Machine.execS4Timeout s
  | .spareTestPassBegin spare => Sys2Proof.Machine.execSpareTestPassBegin spare s
  | .scRepairPolicy bank => Sys2Proof.Machine.execScRepairPolicy bank s

end Sys2Proof.Machine
end

