-- ==== Sys2Proof/Machine/Tick.lean ====
section
/-! DEFINITION. A core cycle: what the block does when no command waits (R22, R403, R404, R431). -/

namespace Sys2Proof.Machine

/-- Whether a response of port `p` is due and has no credit (R404, group 5 item 7). -/
def waitsCredit (s : State) (p : Nat) : Bool :=
  [false, true].any (fun m => match nextDue s p m with
    | some t => !responseCredit s p m t
    | none => false)

/-- Whether an access of engine `e` is stalled because a bank's queue for it is full: one of its queues has it ready (R142), or it waits before
that queue (R54, R404). -/
def engineStalled (s : State) (e : Nat) : Bool :=
  s.banks.any (fun b => b.2.staging.any (fun r => match r.who with | .engine x _ => x = e | _ => false)) ||
  (engMayIssue s e && (List.range 4).any (fun q => (readyAcc s e q).any (fun x => bankFull s (readyReq x))))

/-- Whether a bank whose cycle no command has asked for has a request presented and not served (R404, group 2). -/
def bankLeft (s : State) (b : Nat) : Bool := (bankOf s b).lastSlot != some s.time && anyPresents s b

/-- An occurrence of an event in a cycle in which its condition holds. -/
def occurIf (s : State) (c : Bool) (ev : Nat) : State := if c then occur s ev else s

/-- The "cycle" events of R404. Of a bank whose slot was commanded, group 2 has been counted with it. -/
def cycleEvents (s : State) : State :=
  let s := occur s 1
  let s := occurIf s (inHold s) 20
  let s := (s.banks.map (fun k => k.1)).foldl (fun s b => occurIf s (bankLeft s b) (evWaiting b)) s
  let s := occurIf s ((presentRegions s.variant).any (fun h => regionState s h = RS_WAKING)) 25
  let s := (List.range (numPorts s.variant)).foldl (fun s p => occurIf s (waitsCredit s p) (evPort p 7)) s
  (List.range (numEngines s.variant)).foldl (fun s e =>
    occurIf (occurIf s (engineStalled s e) (evEngine e 2)) ((List.range 4).any (fun q => qState s e q = QS_WAITING)) (evEngine e 3)) s

/-- What the block's own units do in a core cycle for which the table has no row (log entry 75): received and copied units take their turns at the
stores (R88, R128, R333), tests without an arbiter go on (R251), the SC works on the cellar record (R418) and writes
the lines of its reply (R383), ports that train send their frames (R279), idle
time is counted (R275), and a warm reset that has waited is done (R355). -/
def ownWork (s : State) : State :=
  let s := consoleTurn (cellarCycle (agentsCycle (mbxUnitTurn (semUnitTurn s))))
  warmStep ((List.range (numPorts s.variant)).foldl (fun s p => idleCycle (trainingCycle s p) p) s)

/-- The end of a core cycle: device time goes on by `n`, after the rings and the counters have taken the cycle's
entries and occurrences (R403, R415, R431). -/
def endCycle (s : State) (n : Nat) : State :=
  let s := countCycle (cycleEvents (ringCycle (ownWork s)))
  { s with time := s.time + n }

/-- A core cycle from the PLL or the oscillator; a core without a clock stands still (R430, R431). -/
def tick (s : State) : State :=
  match s.power.clock with
  | .pll => endCycle s 1
  | .oscillator => oscillatorStop (endCycle s 4)
  | .stopped => s
  | .none => s

end Sys2Proof.Machine
end

