-- ==== Sys2Proof/Safety.lean ====
section
/-! DEFINITION. What counts as a safe run of the block, in the terms the statements use: the memory's canonical form, the invariant that
every step keeps, what a command leaves alone whatever it does, and the conditions on the state and the operands under which a
command has its effect. -/

namespace Sys2Proof.Machine

/-- The canonical form of the cells of array and stores: keys strictly rising, and no byte listed that is zero, which is what an
unlisted byte reads as. Equal memories are then equal data. -/
def Memory.wf (m : List Host.Cell) : Bool := scanon (fun _ => (0 : Byte)) m

/-- The invariant of every step: the memory is in canonical form. -/
def Inv (s : State) : Prop := Memory.wf s.cells = true

/-! ### When a request unit is accepted (R309–R312, R318, R319, R326) -/

/-- A unit of an open session, well formed by its header, with free tags and with the credits its slots need. -/
def UnitAccepted (s : State) (h : ReqHdr) (code len opfmt run : Nat) : Prop :=
  coreOn s = true ∧ h.port.toNat < numPorts s.variant ∧ rdB s (R_PT_STAT h.port.toNat) PT_STAT_SESSION = true ∧
  isPairPort s h.port.toNat = false ∧ headerMalformed code len run = false ∧
  (∀ k < memberCount code run, (tagsOf s h.port.toNat).contains ((h.tag.toNat + k) % 4096) = false) ∧
  1 + (payloadLen code len opfmt run + 15) / 16 ≤ rxCredits s h.port.toNat (if h.mgmt then 3 else 0)

/-- The request that a unit of one member stands for (R309, R310). -/
def unitReq (h : ReqHdr) (op : Op) (code addr len : Nat) (mask : BitVec 64) (opfmt : Nat) (tally : Bool) (data : List Byte) : Req :=
  { who := .port h.port.toNat h.slot.toNat, tag := h.tag.toNat, mgmt := h.mgmt, ord := h.ord, op := op, code := code, addr := addr,
    len := len, mask := mask, opfmt := opfmt, tally := tally, data := data }

/-- Slots of a request unit: its header's and its payload's (R310). -/
def slotsNeeded (bytes : Nat) : Nat := 1 + (bytes + 15) / 16

/-- The channel of a request unit: 3 for management, 0 for the others (R304). -/
def unitVc (h : ReqHdr) : Nat := if h.mgmt then 3 else 0

/-- The state after a unit of one member is accepted: its slots are counted as received (R307), and its request is accepted. -/
def acceptUnit (s : State) (h : ReqHdr) (r : Req) (slots : Nat) : State :=
  acceptMember (countSlots s h.port.toNat (unitVc h) slots) h.port.toNat r slots

/-! ### When the SC's register write is served (R38, R206, R332, R358, R399) -/

/-- The interrupt controller takes an access of target `k` in this cycle: nothing waits for it, it has taken no write and closed no cycle, and
no target from `k` on (R206). -/
def IntcFree (s : State) (k : Nat) : Prop :=
  s.intcWait = [] ∧ (intcTurnNow s).wasRead = false ∧ (intcTurnNow s).wrote = false ∧ (intcTurnNow s).next ≤ k

/-- The SC runs, the register is present and open to it, no pair unit number is wanted in vain, HOLD does not stop the write, and the
interrupt controller, when it is one of its registers, takes it now. -/
def ScMayWrite (s : State) (key : Nat) (v : Word64) : Prop :=
  scRuns s = true ∧ decodeReg s (scReq .write key v) = none ∧ regRetry s (scReq .write key v) = false ∧
  scBlocked s (scReq .write key v) = false ∧ (isIntcReq (scReq .write key v) = true → s.intcWait = [] ∧ intcMay s (scReq .write key v) = true)

/-- The state in which an SC register write is served: it has its number, and the interrupt controller notes what it takes. -/
def scPrepared (s : State) (key : Nat) (v : Word64) : State :=
  let s := { s with nextUid := s.nextUid + 1 }
  if isIntcReq (scReq .write key v) then
    (match intcTarget (scReq .write key v) with
    | some k => takeTarget s k
    | none => takeWrite s)
  else s

/-- The state after an SC register write of number `uid` whose effect is `w`: it is traced and answered, and what it changed of mirrored state
is sent on. -/
def scSettled (uid key : Nat) (v : Word64) (w : Written) : State :=
  let r := scReq .write key v
  settlePost (answerPart (traceReg w.state r w.status r.data) .sc uid 0 w.status false false [] (b01 (w.post != .none))) w.post [.release .sc uid]

/-! ### When a descriptor begins (R142–R147) -/

/-- The next fetched descriptor of a queue, free to begin and to run whatever came before it; `ce`: its fetch corrected an error. -/
def DescBegins (s : State) (e q i : Nat) (ce : Bool) (d : List Byte) : Prop := mayBegin (prepareQueue s e q) e q = some (i, ce, d)

/-- A descriptor as it begins. -/
def firstRun (s : State) (i : Nat) (ce : Bool) (d : List Byte) : Run := { blankRun i d s.time with ce := ce }

/-- The state after it has begun as `run`: off the fetched list, at the end of the queue's descriptors in progress. -/
def descBegun (s : State) (e q : Nat) (run : Run) : State :=
  let s := prepareQueue s e q
  let k := queueOf s e q
  refreshState (setQueue s e q { k with fetched := k.fetched.drop 1, runs := k.runs ++ [run] }) e q

/-- What COND and the checks of the row make of a descriptor that begins (R147, R150). -/
def begunRun (s : State) (e q i : Nat) (ce : Bool) (d : List Byte) (start : State → Run → Run) : Run :=
  let p := prepareQueue s e q
  let r := firstRun p i ce d
  if dCond d = 3 then endRun r DS_BADDESC 0
  else if condRuns p e q d then start p r else { r with ended := true, skipped := true }

/-! ### When a Shexa command runs (R385–R393) -/

/-- The line at the front of the SC's queue is of this session, names this row with these words, the session has the level, and the console is
not in the middle of a reply (R383). -/
def LineNames (s : State) (x : Session) (row : ShexaRow) (keeper : Bool) (ws : List (List Byte)) : Prop :=
  (∃ at_ l rest, s.mgmt.lines = (x, at_, l) :: rest ∧ lineRow (sessOf s x).machine l = .ok (row, ws)) ∧ shexaMay s = true ∧
  (keeper = true → (sessOf s x).keeper = true)

/-- A word of a line names address `a`: as a number, or as a whole register. -/
def LineTarget (w : List Byte) (a : Nat) : Prop :=
  (startsDigit w = true ∧ cmdAddress w = .ok a) ∨ (startsDigit w = false ∧ ∃ key r, findTarget w = .ok (key, r, none) ∧ a = 0xFF800000 + key)

/-- A register access of a command is under way: it has its number. -/
def scOwn (s : State) (r : Req) : State :=
  { s with nextUid := s.nextUid + 1, mgmt := { s.mgmt with scAcc := some (newAcc s.nextUid 0 r .statusWord) } }

/-- Nothing of the SC's is under way, and the register is present, open to its reads, and read at once. -/
def ScMayRead (s : State) (key : Nat) : Prop :=
  s.mgmt.scAcc = none ∧ decodeReg s (scReq .read key 0) = none ∧ regRetry s (scReq .read key 0) = false ∧ isIntcReq (scReq .read key 0) = false

/-- The value that a command reads from a register, its status, and the state after the read: it is traced, and the access is over. -/
def scReadNow (s : State) (key : Nat) : Status × Word64 × State :=
  let r := scReq .read key 0
  let x := readStep (scOwn s r) .sc key
  let data := if x.1 = .ok then leBytes 8 x.2.1.toNat else []
  (x.1, x.2.1, scClear (answerPart (traceReg x.2.2 r x.1 data) .sc s.nextUid 0 x.1 false false data 0))

/-- What a command's register write makes of the register. -/
def scWriteNow (s : State) (key : Nat) (v : Word64) : Written := regWrite (scOwn s (scReq .write key v)) key v

/-- The state after a command's register write: it is traced, and the access is over. -/
def scWritten (s : State) (key : Nat) (v : Word64) : State :=
  let r := scReq .write key v
  let w := scWriteNow s key v
  scClear (answerPart (traceReg w.state r w.status r.data) .sc s.nextUid 0 w.status false false [] 0)

/-- A command that has written a register is answered with the write's status and is over. -/
def scWroteLine (s : State) (x : Session) (key : Nat) (v : Word64) : State :=
  finishLine x (replied (statusReply (scWriteNow s key v).status) (scWritten s key v))

/-! ### Bytes stored (R17, R217) -/

/-- The stored bytes of two states agree but for the keys from `lo` up to `hi`. -/
def SameCellsOutside (s t : State) (lo hi : Nat) : Prop := ∀ k, ¬(lo ≤ k ∧ k < hi) → cellByte t k = cellByte s k

/-- The registers of two states agree outside the blocks named. -/
def SameRegsOutside (s t : State) (blocks : List Nat) : Prop := ∀ key, key / 0x10000 ∉ blocks → rd t key = rd s key

/-- The commands that may store into array or stores. Every other command leaves each of their bytes as it is. -/
def mayStore : Instr → Bool
  | .bankSlot _ => true | .rackCopyLine _ => true | .scrubVisit => true | .remapCopy => true | .syncCopy => true
  | .semTry => true | .semRelease => true | .semTicket => true | .semServe => true | .semPeek => true | .stateWrite => true
  | .notifyRead => true | .notifyWrite => true | .semClearStep => true | .payloadWrite => true | .mailboxRead => true
  | .doorbell => true | .mailboxClaim => true | .bindingWrite => true | .mbxClearStep => true
  | .foregroundTestEnd => true | .flitReceive _ _ => true | .semUnit _ _ _ _ _ => true | .mbxUnit _ _ _ _ _ _ => true
  | .offWakeDone _ => true | .brownoutReset => true | .powerOn => true | .railFail _ => true | .pinReset => true
  | .refclkReturn => true | .startStep _ => true
  | _ => false

/-! ### The banks (R53–R58) -/

/-- A line of which no codeword has been decoded: a group of full-line writes needs none (R44). -/
def blankView : LineView := { bytes := List.replicate 64 0, unc0 := false, unc1 := false, poison := false, ce0 := false, ce1 := false }

/-- Bank `b` has its bank cycle free, with no borrowed group, no foreground test and no reserved write-back; the slot goes to request
`w`, and `ptr` is the service pointer after it. -/
def BankServes (s : State) (b ptr : Nat) (w : BReq) : Prop :=
  bankCycleFree s b = true ∧ (bankOf s b).borrow = none ∧ s.test.fgUnit = none ∧ (bankOf s b).wbCycle ≠ some s.time ∧
  ∃ id, id ≠ 28 ∧ slotWinner s b = (some id, ptr) ∧ servable s b id = some w

/-- The state after the slot of bank `b` has gone to request `w`: its group is served, the pointer stands at `ptr`, the bank cycle is used. -/
def bankServed (s : State) (b ptr : Nat) (w : BReq) : State :=
  let u := setBank s b { bankOf s b with ptr := ptr }
  closeSlot (serveWinner u b w) b (anyPresents s b) (leftWaiting u b w)

/-- An own access of a requester waits at bank `b` and has its slot (R53, R56). -/
def CopyServes (s : State) (b ptr : Nat) (who : Who) (code : Nat) (r : BReq) : Prop :=
  waitingCopy s b who code = some r ∧ BankServes s b ptr r

/-! ### The stores: the rows by the kind of operation they serve (R80, R121) -/

/-- The rows of the semaphore store. -/
def semRows : List (Instr × StoreKind) :=
  [(.semTry, .semTry), (.semRelease, .semRelease), (.semTicket, .semTicket), (.semServe, .semServe), (.semPeek, .semPeek),
   (.stateWrite, .semState), (.notifyRead, .semNotifyRead), (.notifyWrite, .semNotifyWrite)]

/-- The rows of the mailbox store. -/
def mbxRows : List (Instr × StoreKind) :=
  [(.payloadWrite, .mbxPayloadWrite), (.mailboxRead, .mbxRead), (.doorbell, .mbxDoorbell), (.mailboxClaim, .mbxClaim),
   (.bindingWrite, .mbxBinding)]

/-! ### Register rows (R31) -/

/-- The rows that write a register: by whom, which register, and the value with the row's action bit set. -/
def regRow : Instr → Option (RegBy × Nat × Word64)
  | .semClear b v => some (b, R_SEM_CLEAR, withAction v SEM_CLEAR_START)
  | .semStatClear b v => some (b, R_SEM_CTL, withAction v SEM_CTL_STAT_CLEAR)
  | .mbxClear b v => some (b, R_MBX_CLEAR, withAction v MBX_CLEAR_START)
  | .mbxStatClear b v => some (b, R_MBX_GCTL, withAction v MBX_GCTL_STAT_CLEAR)
  | .arbStatClear b v => some (b, R_ARB_CTL, withAction v ARB_CTL_STAT_CLEAR)
  | .vatCtlWrite b n v => some (b, R_VAT_CTL n.toNat, v)
  | .vatRearm b n v => some (b, R_VAT_CTL n.toNat, withAction v VAT_CTL_REARM)
  | .vatStatClear b n v => some (b, R_VAT_CTL n.toNat, withAction v VAT_CTL_STAT_CLEAR)
  | .registerWrite b key v => some (b, key.toNat, v)
  | .qTailWrite b e q v => some (b, R_Q_TAIL e.toNat q.toNat, v)
  | .qCfgWrite b e q v => some (b, R_Q_CFG e.toNat q.toNat, v)
  | .stopQueue b e q v => some (b, R_Q_CTL e.toNat q.toNat, withAction v Q_CTL_STOP)
  | .goQueue b e q v => some (b, R_Q_CTL e.toNat q.toNat, withAction v Q_CTL_GO)
  | .resumeRetry b e q v => some (b, R_Q_CTL e.toNat q.toNat, withAction v Q_CTL_RESUME_RETRY)
  | .resumeSkip b e q v => some (b, R_Q_CTL e.toNat q.toNat, withAction v Q_CTL_RESUME_SKIP)
  | .offlineWrite b e v => some (b, R_ENG_CTL e.toNat, v)
  | .engineReset b e v => some (b, R_ENG_CTL e.toNat, withAction v ENG_CTL_RESET)
  | .mcCtlWrite b c v => some (b, R_MC_CTL c.toNat, v)
  | .mcStatClear b v => some (b, R_MC_GCTL, withAction v MC_GCTL_STAT_CLEAR)
  | .setPend b n v => some (b, R_SRC_ENTRY n.toNat, withAction v SRC_ENTRY_SET_PEND)
  | .pendingClear b n v => some (b, R_SRC_ENTRY n.toNat, withAction v SRC_ENTRY_PENDING)
  | .targetWrite b n v => some (b, R_SRC_ENTRY n.toNat, v)
  | .tgtEoi b t v => some (b, R_TGT_EOI t.toNat, v)
  | .asleepWrite b t v => some (b, R_TGT_CTL t.toNat, v)
  | .logClear b v => some (b, R_INT_CTL, withAction v INT_CTL_LOG_CLEAR)
  | .intStatClear b v => some (b, R_INT_CTL, withAction v INT_CTL_STAT_CLEAR)
  | .intInjectWrite b v => some (b, R_INT_INJECT, v)
  | .tstCmdStart b v => some (b, R_TST_CMD, withAction v TST_CMD_START)
  | .abortTest b v => some (b, R_TST_CTL, withAction v TST_CTL_ABORT)
  | .tstStatClear b v => some (b, R_TST_CTL, withAction v TST_CTL_STAT_CLEAR)
  | .rmpCmdGo b v => some (b, R_RMP_CMD, withAction v RMP_CMD_GO)
  | .retCmdStart b v => some (b, R_RET_CMD, withAction v RET_CMD_START)
  | .tstEngGo b v => some (b, R_TST_ENG, withAction v TST_ENG_GO)
  | .ptStatClear b p v => some (b, R_PT_CTL p.toNat, withAction v PT_CTL_STAT_CLEAR)
  | .lphRetrain b p v => some (b, R_LPH_CTL p.toNat, withAction v LPH_CTL_RETRAIN)
  | .spareNowWrite b p v => some (b, R_LPH_CTL p.toNat, withAction v LPH_CTL_SPARE_NOW)
  | .unspareWrite b p v => some (b, R_LPH_CTL p.toNat, withAction v LPH_CTL_UNSPARE)
  | .loopWrite b p v => some (b, R_LPH_CTL p.toNat, v)
  | .minClear b p j v => some (b, R_LRX_STAT p.toNat j.toNat, withAction v LRX_STAT_MIN_CLEAR)
  | .lnStatClear b v => some (b, R_LN_GCTL, withAction v LN_GCTL_STAT_CLEAR)
  | .promoteWrite b v => some (b, R_PR_CMD, withAction v PR_CMD_PROMOTE)
  | .joinWrite b v => some (b, R_PR_CMD, withAction v PR_CMD_JOIN)
  | .leaveWrite b v => some (b, R_PR_CMD, withAction v PR_CMD_LEAVE)
  | .pwrRegionWrite b v => some (b, R_PWR_REGION, v)
  | .devStateWrite b v => some (b, R_PWR_CTL, v)
  | .warmReset b v => some (b, R_PWR_RESET, withAction v PWR_RESET_WARM)
  | .portReset b v => some (b, R_PWR_RESET, v)
  | .mgStatClear b v => some (b, R_MG_CTL, withAction v MG_CTL_STAT_CLEAR)
  | .pcCfgWrite b i v => some (b, R_PC_CFG i.toNat, v)
  | .freezeCounters b v => some (b, R_PC_GCTL, withAction v PC_GCTL_FREEZE)
  | .clearAll b v => some (b, R_PC_GCTL, withAction v PC_GCTL_CLEAR_ALL)
  | .smpCtlWrite b v => some (b, R_SMP_CTL, v)
  | .smpClear b v => some (b, R_SMP_CTL, withAction v SMP_CTL_CLEAR)
  | .smpIdxWrite b v => some (b, R_SMP_IDX, v)
  | .trIdxWrite b v => some (b, R_TR_IDX, v)
  | .trClear b v => some (b, R_TR_CTL, withAction v TR_CTL_CLEAR)
  | .celCtlWrite b v => some (b, R_CEL_CTL, v)
  | _ => none

/-- The rows that clear a block's counters, by the SC with no other bit set: the registers each leaves at 0 on a variant. -/
def statClearRows (v : Variant) : List (Instr × List Nat) :=
  [(.semStatClear .sc 0, [R_SEM_FORCED, R_SEM_DENIED, R_SEM_TRYSTAT, R_SEM_NOTIFIED]),
   (.mbxStatClear .sc 0, [R_MBX_DOORBELLS, R_MBX_OVERRUNS, R_MBX_DENIED]),
   (.arbStatClear .sc 0, R_ARB_SPLITS :: (List.range 64).map R_ARB_BANKSTAT),
   (.mcStatClear .sc 0, (List.range 256).flatMap (fun n => [R_MC_STAT n, R_MC_WALK n, R_MC_ERR n])),
   (.intStatClear .sc 0, [R_INT_TOTALS, R_INT_POISON, R_INT_SCRUB_STAT, R_INT_HFCOUNT]),
   (.tstStatClear .sc 0, [R_TST_HOLDS]),
   (.lnStatClear .sc 0, (List.range (numPorts v)).flatMap (fun p => [R_LPH_CNT_A p, R_LPH_CNT_B p] ++ (List.range 9).map (R_LRX_ERR p))),
   (.mgStatClear .sc 0, [R_MG_CHAINCNT, R_MG_CHAINERR, R_MG_SHEXA])]

/-! ### Rack engines (R142–R147) -/

/-- The rows that begin a descriptor: the descriptors that each takes, and what becomes of the descriptor as it begins. -/
def descRows (e : BitVec 4) (q : BitVec 2) : List (Instr × (List Byte → Bool) × (State → Run → Run)) :=
  [(.nopDesc e q, fun d => dOp d = 0x00 || !opDefined (dOp d), startNop), (.copyDesc e q, opIs 0x01, startCopy),
   (.fillDesc e q, opIs 0x02, startRange), (.gatherDesc e q, opIs 0x03, startElements), (.scatterDesc e q, opIs 0x04, startElements),
   (.accumDesc e q, opIs 0x05, startAccum), (.crcDesc e q, opIs 0x06, startCrc), (.compareDesc e q, opIs 0x07, startRange),
   (.semaTry e q, fun d => opIs 0x09 d && (dSub d = 0 || 5 < dSub d), startSema), (.semaRelease e q, fun d => opIs 0x09 d && dSub d = 1, startSema),
   (.semaTicket e q, fun d => opIs 0x09 d && dSub d = 2, startSema), (.semaServe e q, fun d => opIs 0x09 d && dSub d = 3, startSema),
   (.semaPeek e q, fun d => opIs 0x09 d && dSub d = 4, startSema), (.semaNotify e q, fun d => opIs 0x09 d && dSub d = 5, startSema),
   (.postDesc e q, opIs 0x0A, startPost), (.waitTally e q, fun d => opIs 0x0B d && (dSub d = 0 || 3 < dSub d), startWait),
   (.waitCompletions e q, fun d => opIs 0x0B d && dSub d = 1, startWait), (.waitFree e q, fun d => opIs 0x0B d && dSub d = 2, startWait),
   (.waitTake e q, fun d => opIs 0x0B d && dSub d = 3, startWait), (.pushDesc e q, opIs 0x0C, startPush e.toNat q.toNat),
   (.descriptorFence e q, opIs 0x0D, startFence)]

/-- The MATCH rows: the SUBOPs that each takes. -/
def matchRows (e : BitVec 4) (q : BitVec 2) : List (Instr × (Nat → Bool)) :=
  [(.matchArrive e q, fun n => n = 0 || 3 < n), (.matchPost e q, fun n => n = 1), (.matchProbe e q, fun n => n = 2), (.matchCancel e q, fun n => n = 3)]

/-- A MATCH passes its checks (R166, R186): a device with the matching assist, an enabled context open to the queue's owner, a SUBOP, LEN and
addresses within their limits. -/
def MatchGood (s : State) (e q : Nat) (d : List Byte) : Prop :=
  bigVariant s.variant = true ∧ dA d ≤ 255 ∧ hasF (rdBefore s (R_MC_CTL (dA d))) MC_CTL_ENABLE = true ∧ dSub d ≤ 3 ∧
  (dSub d ≤ 1 → dLen d ≤ 16777216) ∧ (2 ≤ dSub d → dLen d = 0) ∧
  bitOf (rdF s (R_MC_CTL (dA d)) MC_CTL_PORTS) (rdF s (R_Q_CFG e q) Q_CFG_PORT) = true ∧ dD d % 64 = 0 ∧ (dSub d = 3 → dB d % 64 = 0)

/-- Queue `q` of engine `e` once every answer that has come is taken up, with what the completion action needs no access for. -/
def queueReady (s : State) (e q : Nat) : State := actionSkip (prepareQueue s e q) e q

/-- The descriptor at HEAD is complete, its completion action carried out, and the engine may retire it. -/
def MayRetire (s : State) (e q : Nat) (r : Run) : Prop :=
  coreOn s = true ∧ e < numEngines s.variant ∧
  (∃ rest, (queueOf (queueReady s e q) e q).runs = r :: rest) ∧ r.ended = true ∧ actionDone r = true ∧
  (if faulted r then (queueOf (queueReady s e q) e q).accs else accsOf (queueOf (queueReady s e q) e q) r.index) = [] ∧
  engState (queueReady s e q) e ≤ 1 ∧ (engineOf (queueReady s e q) e).resetting = false

/-! ### The link (R291–R304) -/

/-- A port takes and sends flits: present, UP, out of electrical idle and with its session. -/
def FlitArrives (s : State) (p : Nat) : Prop :=
  coreOn s = true ∧ portUp s p = true ∧ inEi s p = false ∧ rdB s (R_PT_STAT p) PT_STAT_SESSION = true

/-- A flit was not taken: nothing of it was delivered, the number expected stays, and the receiver waits for a replay. -/
def FlitNotTaken (s t : State) (p : Nat) : Prop :=
  rdF t (R_PT_RXSEQ p) PT_RXSEQ_EXPECTED = rdF s (R_PT_RXSEQ p) PT_RXSEQ_EXPECTED ∧ rdB t (R_PT_STAT p) PT_STAT_RX_WAIT = true ∧
  (rdB s (R_PT_STAT p) PT_STAT_RX_WAIT = false → (linkOf t p).nakDue = true) ∧
  t.txns = s.txns ∧ t.heldOrd = s.heldOrd ∧ t.cells = s.cells ∧ t.banks = s.banks ∧ t.semq = s.semq ∧ t.mbxq = s.mbxq

/-! ### Ports (R278–R284) -/

/-- Port `p` retrains: in EQUALIZE, out of electrical idle, its session kept, its partner told by a control marker, its event set. -/
def Retrains (s t : State) (p : Nat) : Prop :=
  linkState t p = LS_EQUALIZE ∧ retraining t p = true ∧ inEi t p = false ∧ rdB t (R_PT_STAT p) PT_STAT_EV_RETRAIN = true ∧
  rdB t (R_PT_STAT p) PT_STAT_SESSION = rdB s (R_PT_STAT p) PT_STAT_SESSION ∧ t.out.head? = some (.marker p 0x10) ∧ t.cells = s.cells

/-- Port `p` is DOWN with a cause: no session, no retrain, its event set. -/
def IsDown (s t : State) (p cause : Nat) : Prop :=
  linkState t p = LS_DOWN ∧ rdF t (R_LPH_STAT p) LPH_STAT_FAIL_CAUSE = cause ∧ retraining t p = false ∧
  rdB t (R_PT_STAT p) PT_STAT_SESSION = false ∧ rdB t (R_PT_STAT p) PT_STAT_EV_DOWN = true ∧ t.cells = s.cells

/-! ### The mirrored pair (R325–R347) -/

/-- An ACCEPT of `utag` is the last unit that waits to leave port `p`, and the only one that has joined. -/
def AcceptSent (s t : State) (p utag : Nat) : Prop :=
  (linkOf t p).tx = (linkOf s p).tx ++ [(1, leBytes 1 0xA5 ++ leBytes 2 utag ++ leBytes 13 0)]

/-- From `s` to `t` the copy of SYNCING forwards one item: it goes on to the next, and the item's unit, with these bytes for its UTAG, waits for
its acceptance. -/
def SyncForwarded (s t : State) (bytes : Nat → List Byte) (segment : Option Nat) : Prop :=
  t.pair.syncPos = s.pair.syncPos + 1 ∧ t.pair.syncFault = none ∧
    ∃ u, t.pair.units = s.pair.units ++ [u] ∧ u.bytes = bytes u.utag ∧ u.segment = segment ∧ t.cells = s.cells

/-! ### Resets (R354–R357) -/

/-- `t` is `s` after a reset of a kind: step S0 is due, READY is 0, nothing is in flight or queued, no session and no event is left,
and the retire map stands. -/
def IsReset (s t : State) (kind : Nat) : Prop :=
  startKind t = kind ∧ t.power.step = some 0 ∧ rdB t R_PWR_DEVSTAT PWR_DEVSTAT_READY = false ∧
  t.txns = [] ∧ t.heldOrd = [] ∧ t.banks = [] ∧ t.semq = [] ∧ t.semStage = [] ∧ t.mbxq = [] ∧ t.mbxStage = [] ∧ t.commits = [] ∧ t.tallies = [] ∧
  t.links = [] ∧ t.phys = [] ∧ t.lanes = [] ∧ t.queues = [] ∧ t.engines = [] ∧ t.pushes = [] ∧ t.intcEvents = [] ∧ t.intcWait = [] ∧ t.before = [] ∧ t.msgs = [] ∧ t.pins = [] ∧
  rd t R_RET_MAP = rd s R_RET_MAP

/-! ### Management (R371–R398) -/

/-- The chain logic has power and a frame of type `typ` reaches this device whole, with a good CRC. -/
def FrameGood (s : State) (f : ChainFrame) (typ : Byte) (enum : Bool) : Prop := s.power.vioOn = true ∧ frameFate s f typ enum = .good

/-- The frame rows of the chain with their types: ENUM goes to all, and POLL, STATUS and PEEK to one address (R376, R377). -/
def FrameRow (f : ChainFrame) (c : Instr) (typ : Byte) (enum : Bool) : Prop :=
  (c = .enumFrame f ∧ typ = 1 ∧ enum = true ∧ f.addr = 63) ∨ (c = .lineFrame f ∧ typ = 2 ∧ enum = false) ∨
  (f.addr ≠ 63 ∧ enum = false ∧ ((c = .pollFrame f ∧ typ = 3) ∨ (c = .statusFrame f ∧ typ = 4) ∨ (c = .peekFrame f ∧ typ = 5))) ∨
  (c = .undefinedTypeFrame f typ ∧ enum = false ∧ typeUndefined f typ.toNat = true)

/-- A frame only passed this device, with what follows it: an ENUM with its token rewritten and its CRC made anew, any other unchanged. -/
def FrameDropped (s t : State) (f : ChainFrame) (typ : Byte) : Prop :=
  t.mgmt = s.mgmt ∧ t.tk = s.tk ∧ t.cells = s.cells ∧
  ∃ bs, t.out = .mdo true :: .frame ((bs ++ f.rest).take (f.received - 1)) :: s.out ∧ bs.length = (frameBytes f typ).length ∧
    (typ ≠ 1 → bs = frameBytes f typ)

/-- A frame was acted on: counted in FRAMES, what left on MDO is `bs` as far as MSEL_N was low, then MDO drives 1, and no stored byte changed. -/
def FrameActed (s t : State) (f : ChainFrame) (bs : List Byte) : Prop :=
  t.out = .mdo true :: .frame (bs.take (f.received - 1)) :: s.out ∧ t.cells = s.cells ∧
  (counting s 0x2A = true → rdF t R_MG_CHAINCNT MG_CHAINCNT_FRAMES = (rdF s R_MG_CHAINCNT MG_CHAINCNT_FRAMES + 1) % 2 ^ MG_CHAINCNT_FRAMES.width)

/-- A present port that a word names. -/
def portArg (s : State) (w : List Byte) : Option Nat := (parseUnit 0x70 8 w).filter (fun p => decide (p < numPorts s.variant))

/-- A present engine that a word names. -/
def engineArg (s : State) (w : List Byte) : Option Nat := (parseUnit 0x65 16 w).filter (fun e => decide (e < numEngines s.variant))

/-- A number that a word spells and that fits a field. -/
def fieldArg (w : List Byte) (width : Nat) : Option Nat := (parseNum w).filter (fun v => decide (v < 2 ^ width))

/-- The Shexa rows that set fields of a register: for a line's words of the row's form, the register and the fields with their values. -/
def fieldRows (x : Session) : List (Instr × ShexaRow × (State → List (List Byte) → Option (Nat × List (Fld × Nat)))) :=
  let port (n : Nat) (f : Nat → List (List Byte) → Option (List (Fld × Nat))) (s : State) (ws : List (List Byte)) : Option (Nat × List (Fld × Nat)) :=
    if ws.length = n then (portArg s (word ws 1)).bind (fun p => (f p ws).map (fun l => (R_LPH_CTL p, l))) else none
  let engine (f : Fld) (v : Nat) (s : State) (ws : List (List Byte)) : Option (Nat × List (Fld × Nat)) :=
    if ws.length = 3 then (engineArg s (word ws 1)).map (fun e => (R_ENG_CTL e, [(f, v)])) else none
  let plain (n key : Nat) (l : List (Fld × Nat)) (_ : State) (ws : List (List Byte)) : Option (Nat × List (Fld × Nat)) :=
    if ws.length = n then some (key, l) else none
  [(.portRetrain x, .portRetrain, port 3 (fun _ _ => some [(LPH_CTL_RETRAIN, 1)])),
   (.portSpare x, .portSpare, port 4 (fun _ ws => (fieldArg (word ws 3) 3).map (fun j => [(LPH_CTL_SPARE_NOW, 1), (LPH_CTL_SPARE_LANE, j)]))),
   (.portUnspare x, .portUnspare, port 3 (fun _ _ => some [(LPH_CTL_UNSPARE, 1)])),
   (.portRates x, .portRates, port 4 (fun _ ws => (fieldArg (word ws 3) 3).map (fun m => [(LPH_CTL_RATES, m)]))),
   (.engineOffline x, .engineOffline, engine ENG_CTL_OFFLINE 1), (.engineOnline x, .engineOnline, engine ENG_CTL_OFFLINE 0),
   (.engineResetCommand x, .engineReset, engine ENG_CTL_RESET 1),
   (.scrubOn x, .scrubOn, plain 2 R_INT_CTL [(INT_CTL_SCRUB_EN, 1)]), (.scrubOff x, .scrubOff, plain 2 R_INT_CTL [(INT_CTL_SCRUB_EN, 0)]),
   (.scrubPeriod x, .scrubPeriod, fun _ ws => if ws.length = 3 then
      (fieldArg (word ws 2) INT_SCRUB_CFG_PERIOD_MIN.width).map (fun n => (R_INT_SCRUB_CFG, [(INT_SCRUB_CFG_PERIOD_MIN, n)])) else none),
   (.pairRole x, .pairRole, fun _ ws => if ws.length = 3 then (match resolveWord ["none", "primary", "secondary"] (word ws 2) with
      | .ok r => some (R_PR_ROLE, [(PR_ROLE_ROLE, r)]) | .error _ => none) else none),
   (.pairPorts x, .pairPorts, fun _ ws => if ws.length = 3 then (if parseDec (word ws 2) = some 7 then some (R_PR_ROLE, [(PR_ROLE_PORTS, 0)])
      else if parseDec (word ws 2) = some 67 then some (R_PR_ROLE, [(PR_ROLE_PORTS, 1)]) else none) else none),
   (.pairMirror x, .pairMirror, fun _ ws => if ws.length = 3 then
      (fieldArg (word ws 2) 8).map (fun m => (R_PR_MIRROR, [(PR_MIRROR_REGIONS, m)])) else none),
   (.pairJoin x, .pairJoin, fun _ ws => if ws.length = 2 then some (R_PR_CMD, [(PR_CMD_JOIN, 1)])
      else if ws.length = 3 then (match resolveWord ["yield", "keep"] (word ws 2) with
      | .ok k => some (R_PR_CMD, [(PR_CMD_JOIN, 1), (PR_CMD_SOURCE, k)]) | .error _ => none) else none), (.pairPromote x, .pairPromote, plain 2 R_PR_CMD [(PR_CMD_PROMOTE, 1)]),
   (.pairLeave x, .pairLeave, plain 2 R_PR_CMD [(PR_CMD_LEAVE, 1)])]

/-- The word of TST_CMD that a test command spells: unit, mode, group and options; none for another form, or without its confirm. -/
def testArg (u : Nat) (ws : List (List Byte)) : Option (Nat × Word64) :=
  if ws.length < 3 then none
  else
    match resolveWord ["preserving", "group", "destructive"] (word ws 2) with
    | .error _ => none
    | .ok m =>
      (if m = 1 then (if ws.length < 4 then none else fieldArg (word ws 3) 11) else some 0).bind (fun g =>
        match testOptions (ws.drop (if m = 1 then 4 else 3)) (0, false, false) with
        | .error _ => none
        | .ok (algo, empty, confirm) =>
          if m = 2 && !confirm then none
          else some (R_TST_CMD, setF (setF (setF (setF (setF (setF 0 TST_CMD_UNIT u) TST_CMD_MODE m) TST_CMD_ALGO algo)
            TST_CMD_EMPTY (b01 empty)) TST_CMD_GROUP g) TST_CMD_START 1))

/-- The Shexa rows that write a whole register: for a line's words of the row's form, the register and its value. -/
def wholeRows (x : Session) : List (Instr × ShexaRow × (State → List (List Byte) → Option (Nat × Word64))) :=
  let port (i : Nat) (s : State) (ws : List (List Byte)) : Option (Nat × Word64) :=
    if ws.length = 3 then (portArg s (word ws i)).map (fun p => (R_PWR_RESET, setF 0 PWR_RESET_PORT (2 ^ p))) else none
  [(.portResetCommand x, .portReset, port 1),
   (.engineTest x, .engineTest, fun s ws => if ws.length = 3 then
      (engineArg s (word ws 1)).map (fun e => (R_TST_ENG, setF (setF 0 TST_ENG_ENGINE e) TST_ENG_GO 1)) else none),
   (.bankRetire x, .bankRetire, fun s ws => ((parseBank (word ws 1)).filter (fun b => decide (b < 64))).bind (fun b =>
      if ws.length = 3 then some (R_RET_CMD, retWord b none)
      else if ws.length = 5 then (match resolveWord ["engine"] (word ws 3) with
        | .ok _ => (engineArg s (word ws 4)).map (fun e => (R_RET_CMD, retWord b (some e)))
        | .error _ => none) else none)),
   (.bankRemap x, .bankRemap, fun _ ws => if ws.length = 4 then
      ((parseBank (word ws 1)).filter (fun u => decide (u < 128))).bind (fun u => (fieldArg (word ws 3) 16).map (fun line =>
        (R_RMP_CMD, setF (setF (setF 0 RMP_CMD_UNIT u) RMP_CMD_LINE line) RMP_CMD_GO 1))) else none),
   (.testCmd x, .test, fun _ ws => ((parseBank (word ws 1)).filter (fun u => decide (u < 128))).bind (fun u => testArg u ws))]

/-- The Shexa rows that set or clear a port's bit of a register. -/
def bitRows (x : Session) : List (Instr × ShexaRow × Nat × Bool) :=
  [(.grantPriv x, .grantPriv, R_MG_GRANT, true), (.grantUnpriv x, .grantUnpriv, R_MG_GRANT, false),
   (.portEnable x, .portEnable, R_MG_PORTEN, true), (.portDisable x, .portDisable, R_MG_PORTEN, false)]

/-! ### What a register write does, block by block (R4, R31) -/

/-- A write is refused with a status and changes nothing. -/
def Refused (w : Written) (s : State) (st : Status) : Prop := w.status = st ∧ w.state = s

/-- SEM_CLEAR, MBX_CLEAR and the arbitration settings: a START begins a clear from FIRST, none while one runs; a setting waits for the next
frame (R55, R93, R132). -/
def StoreWrites (s : State) (v : Word64) : Prop :=
  (let t := (regWrite s R_SEM_CLEAR v).state
   (rdB s R_SEM_CLEAR SEM_CLEAR_BUSY = true → t = s) ∧
   (rdB s R_SEM_CLEAR SEM_CLEAR_BUSY = false → hasF v SEM_CLEAR_START = true → getF v SEM_CLEAR_COUNT ≠ 0 →
     rdB t R_SEM_CLEAR SEM_CLEAR_BUSY = true ∧ t.semClearAt = getF v SEM_CLEAR_FIRST)) ∧
  (let w := regWrite s R_MBX_CLEAR v
   (numMailboxes s.variant ≤ getF v MBX_CLEAR_FIRST → Refused w s .absent) ∧
   (getF v MBX_CLEAR_FIRST < numMailboxes s.variant →
     (rdB s R_MBX_CLEAR MBX_CLEAR_BUSY = true → w.state = s) ∧
     (rdB s R_MBX_CLEAR MBX_CLEAR_BUSY = false → hasF v MBX_CLEAR_START = true → getF v MBX_CLEAR_COUNT ≠ 0 →
       rdB w.state R_MBX_CLEAR MBX_CLEAR_BUSY = true ∧ w.state.mbxClearAt = 4 * getF v MBX_CLEAR_FIRST))) ∧
  (∀ key ∈ [R_ARB_SHARE, R_ARB_WEIGHT],
    let t := (regWrite s key v).state
    t.power.arbPend = s.power.arbPend ++ [(s.time, rd t R_ARB_SHARE, rd t R_ARB_WEIGHT)] ∧ t.power.shareEff = s.power.shareEff ∧
    t.power.weightEff = s.power.weightEff)

/-- VAT_CTL: an absent format, a change of a valid vat and the checks of VALID refuse; VALID is set or cleared; REARM of a DONE vat takes
EARLY into TALLY, and counts when that reaches EXPECTED (R4, R113, R117, R118, R119). -/
def VatWrites (s : State) (v : Word64) : Prop :=
  ∀ n, n < 1024 →
    let key := R_VAT_CTL n
    let w := regWrite s key v
    let t := w.state
    let lacks := getF v VAT_CTL_FMT = 8 ∧ bigVariant s.variant = false
    let fixed := getF (rd s key) VAT_CTL_FMT = getF v VAT_CTL_FMT ∧ getF (rd s key) VAT_CTL_OP = getF v VAT_CTL_OP ∧
      getF (rd s key) VAT_CTL_SCALE = getF v VAT_CTL_SCALE
    let len := rdF s (R_VAT_RANGE n) VAT_RANGE_LEN4K
    let inArray := 1 ≤ len ∧ len ≤ 4096 ∧ rangePresent s.variant (vatBase s n) len = true
    let refused := fun code : Nat => w.status = .range ∧ rd t (R_VAT_REJECT n) = w64 code ∧ rd t key = rd s key
    (lacks → Refused w s .absent) ∧
    (¬lacks → vatValid s n = true → ¬fixed → refused 5) ∧
    (¬lacks → vatValid s n = false → hasF v VAT_CTL_VALID = true →
      (fmtOpAllowed (getF v VAT_CTL_FMT) (getF v VAT_CTL_OP) = false → refused 2) ∧
      (fmtOpAllowed (getF v VAT_CTL_FMT) (getF v VAT_CTL_OP) = true →
        (¬inArray → refused 3) ∧
        (inArray → ∀ m, overlapping s n (vatBase s n) (vatLen s n) = some m → refused (1 + m <<< 16)) ∧
        (inArray → overlapping s n (vatBase s n) (vatLen s n) = none → w.status = .ok ∧ vatValid t n = true ∧ rd t (R_VAT_REJECT n) = 0))) ∧
    (¬lacks → vatValid s n = true → fixed → w.status = .ok ∧ rd t (R_VAT_REJECT n) = 0 ∧ vatValid t n = hasF v VAT_CTL_VALID ∧
      vatGenOf t n = vatGenOf s n + b01 (!hasF v VAT_CTL_VALID)) ∧
    (w.status = .ok → rdB s key VAT_CTL_DONE = true → hasF v VAT_CTL_REARM = true →
      let early := rdF s (R_VAT_FLAGS n) VAT_FLAGS_EARLY
      let expected := rdF s (R_VAT_COUNT n) VAT_COUNT_EXPECTED
      rdF t (R_VAT_FLAGS n) VAT_FLAGS_EARLY = 0 ∧
      (expected = 0 ∨ early < expected → rdB t key VAT_CTL_DONE = false ∧ rdF t (R_VAT_COUNT n) VAT_COUNT_TALLY = early) ∧
      (expected ≠ 0 ∧ expected ≤ early → rdB t key VAT_CTL_DONE = !hasF v VAT_CTL_AUTO_REARM ∧
        rdF t (R_VAT_COUNT n) VAT_COUNT_TALLY = (if hasF v VAT_CTL_AUTO_REARM then 0 else early) ∧
        rdF t (R_VAT_EVENTS n) VAT_EVENTS_COMPLETIONS = (rdF s (R_VAT_EVENTS n) VAT_EVENTS_COMPLETIONS + 1) % 2 ^ VAT_EVENTS_COMPLETIONS.width))

/-- Q_CFG enables a queue with a good ring and disables one that rests; STOP stops a queue once nothing is in progress and ends its WAITs;
OFFLINE stops the engine's queues, its clearing brings the engine back, and RESET waits for what was issued (R141, R147, R169–R171). -/
def EngineWrites (s : State) (v : Word64) : Prop :=
  ∀ e, e < 16 →
    (∀ q, q < 4 →
      let key := R_Q_CFG e q
      let w := regWrite s key v
      let t := w.state
      let st := qState s e q
      let on := rdB s key Q_CFG_ENABLE
      let ring := ringPresent s e q = true ∧ sub32 (qTail s e q) (qHead s e q) ≤ ringSize s e q
      (numPorts s.variant ≤ getF v Q_CFG_PORT → Refused w s .absent) ∧
      (getF v Q_CFG_PORT < numPorts s.variant →
        (on = true → getF v Q_CFG_PORT ≠ rdF s key Q_CFG_PORT → Refused w s .range) ∧
        (on = true → getF v Q_CFG_PORT = rdF s key Q_CFG_PORT → hasF v Q_CFG_ENABLE = false →
          (st = QS_IDLE ∨ st = QS_STOPPED ∨ st = QS_FAULT → w.status = .ok ∧ qState t e q = QS_DISABLED ∧ queueOf t e q = queueReset) ∧
          (st ≠ QS_IDLE ∧ st ≠ QS_STOPPED ∧ st ≠ QS_FAULT → Refused w s .range)) ∧
        (on = false → hasF v Q_CFG_ENABLE = true →
          (¬ring → Refused w s .range) ∧
          (ring → w.status = .ok ∧ rdF t (R_Q_STATE e q) Q_STATE_LAST = 0 ∧
            (engState s e = 0 → queueOf t e q = queueReset ∧
              qState t e q = (if qTail s e q = qHead s e q then QS_IDLE else QS_RUNNING)))))) ∧
    (∀ q, q < 4 → hasF v Q_CTL_STOP = true → hasF v Q_CTL_GO = false → hasF v Q_CTL_RESUME_RETRY = false → hasF v Q_CTL_RESUME_SKIP = false →
      let t := (regWrite s (R_Q_CTL e q) v).state
      let k := queueOf s e q
      let st := qState s e q
      (st ≠ QS_IDLE ∧ st ≠ QS_RUNNING ∧ st ≠ QS_WAITING → t = s) ∧
      (st = QS_IDLE ∨ st = QS_RUNNING ∨ st = QS_WAITING →
        (k.runs = [] → k.accs = [] → qState t e q = QS_STOPPED ∧ (queueOf t e q).fetched = [] ∧ qHead t e q = qHead s e q) ∧
        (∀ r, k.runs = [r] → dOp r.desc ≠ 0x0B → qState t e q = QS_RUNNING ∧ (queueOf t e q).stopping = true ∧ (queueOf t e q).runs = [r]) ∧
        (∀ r, k.runs = [r] → dOp r.desc = 0x0B → r.ended = false → r.seen = none → (queueOf t e q).runs = [endRun r DS_ABORTED 0]))) ∧
    (let t := (regWrite s (R_ENG_CTL e) v).state
     (hasF v ENG_CTL_OFFLINE = true → hasF v ENG_CTL_RESET = false → engState s e = 0 →
       engState t e = b01 (!rdB s (R_ENG_STAT e) ENG_STAT_RACKING) ∧
       (rdB s (R_ENG_STAT e) ENG_STAT_RACKING = false → ∀ q, q < 4 → qState s e q = QS_IDLE ∨ qState s e q = QS_RUNNING →
         (queueOf s e q).runs = [] → (queueOf s e q).accs = [] → (queueOf s e q).stopping = false → qState t e q = QS_STOPPED ∧ (queueOf t e q).offlined = true)) ∧
     (hasF v ENG_CTL_OFFLINE = false → hasF v ENG_CTL_RESET = false → engState s e = 1 ∨ engState s e = 2 →
       s.test.selfEnd.any (fun x => x.1 = e) = false → engState t e = 0) ∧
     (hasF v ENG_CTL_OFFLINE = false → hasF v ENG_CTL_RESET = true → engState s e = 0 → s.test.selfEnd.any (fun x => x.1 = e) = false →
       (engineQuiet s e = false → engState t e = 4 ∧ (engineOf t e).resetting = true ∧ t.queues = s.queues) ∧
       (engineQuiet s e = true → engState t e = 0 ∧ ∀ q, q < 4 → queueOf t e q = queueReset ∧ qState t e q = QS_DISABLED ∧
         rdB t (R_Q_CFG e q) Q_CFG_ENABLE = false ∧ rd t (R_Q_FAULT e q) = 0)))

/-- MC_CTL: a K above 12, a change of an enabled context and bad areas refuse; else the context takes its fields (R194). -/
def MatchWrites (s : State) (v : Word64) : Prop :=
  ∀ c, c < 256 →
    let key := R_MC_CTL c
    let w := regWrite s key v
    let on := rdB s key MC_CTL_ENABLE
    let bad := 12 < getF v MC_CTL_K ∨ (on = true ∧ (getF v MC_CTL_K ≠ rdF s key MC_CTL_K ∨ getF v MC_CTL_LOCKSEM ≠ rdF s key MC_CTL_LOCKSEM)) ∨
      (on = false ∧ hasF v MC_CTL_ENABLE = true ∧ areasGood s c (getF v MC_CTL_K) = false)
    (bad → Refused w s .range) ∧
    (¬bad → w.status = .ok ∧ ∀ f ∈ [MC_CTL_ENABLE, MC_CTL_K, MC_CTL_LOCKSEM, MC_CTL_PORTS], rdF w.state key f = getF v f)

/-- A source's entry takes ENABLE, PRIORITY and, of a shared source, TARGET; writing PENDING clears it with COUNT, SET_PEND is an event. A
target takes THRESHOLD and, below T32, ASLEEP (R199, R200, R203, R204, R212, R216). -/
def InterruptWrites (s : State) (v : Word64) : Prop :=
  (∀ n, n < 4132 →
    let key := R_SRC_ENTRY n
    let w := regWrite s key v
    let t := w.state
    let st := srcTargetStatus s.variant n (getF v SRC_ENTRY_TARGET)
    (st ≠ .ok → Refused w s st) ∧
    (st = .ok → w.status = .ok ∧ srcB t n SRC_ENTRY_ENABLE = hasF v SRC_ENTRY_ENABLE ∧ srcF t n SRC_ENTRY_PRIORITY = getF v SRC_ENTRY_PRIORITY ∧
      srcB t n SRC_ENTRY_ACTIVE = srcB s n SRC_ENTRY_ACTIVE ∧ (4096 < n → srcTarget t n = getF v SRC_ENTRY_TARGET) ∧
      (hasF v SRC_ENTRY_PENDING = true → hasF v SRC_ENTRY_SET_PEND = false → srcB s n SRC_ENTRY_ACTIVE = false →
        srcF t n SRC_ENTRY_COUNT = 0 ∧ (srcB t n SRC_ENTRY_TRIGGER = false → srcB t n SRC_ENTRY_PENDING = false)) ∧
      (hasF v SRC_ENTRY_PENDING = false → hasF v SRC_ENTRY_SET_PEND = true →
        srcF t n SRC_ENTRY_COUNT = min 255 (srcF s n SRC_ENTRY_COUNT + 1) ∧
        (srcF s n SRC_ENTRY_COUNT = 255 → srcB t n SRC_ENTRY_COUNT_OVF = true) ∧
        (srcB s n SRC_ENTRY_ACTIVE = false → srcB t n SRC_ENTRY_PENDING = true)) ∧
      (hasF v SRC_ENTRY_PENDING = false → hasF v SRC_ENTRY_SET_PEND = false → srcF t n SRC_ENTRY_COUNT = srcF s n SRC_ENTRY_COUNT))) ∧
  (∀ x, x < 36 →
    let t := (regWrite s (R_TGT_CTL x) v).state
    rdF t (R_TGT_CTL x) TGT_CTL_THRESHOLD = getF v TGT_CTL_THRESHOLD ∧
    rdB t (R_TGT_CTL x) TGT_CTL_ASLEEP = (decide (x < 32) && hasF v TGT_CTL_ASLEEP))

/-- INT_INJECT is armed at a present address with positions of the codeword; LOG_CLEAR empties both logs; RMP_CMD refuses with its code, or
takes the free entry of lowest number for a copy (R4, R229, R235, R239, R254). -/
def IntegrityWrites (s : State) (v : Word64) : Prop :=
  (let w := regWrite s R_INT_INJECT v
   let absent := arrayPresent s.variant (getF v INT_INJECT_ADDR * 32) = false
   let bad := ∃ f ∈ [INT_INJECT_POS_A, INT_INJECT_POS_B, INT_INJECT_POS_C], 275 ≤ getF v f ∧ getF v f ≠ 0x1FF
   (absent → Refused w s .absent) ∧ (¬absent → bad → Refused w s .range) ∧
   (¬absent → ¬bad → w.status = .ok ∧
     ∀ f ∈ [INT_INJECT_ADDR, INT_INJECT_ARM, INT_INJECT_POS_A, INT_INJECT_POS_B, INT_INJECT_POS_C], rdF w.state R_INT_INJECT f = getF v f)) ∧
  (hasF v INT_CTL_LOG_CLEAR = true → s.integ.logUndo = none →
    let t := (regWrite s R_INT_CTL v).state
    rdF t R_INT_LEES_CTL INT_LEES_CTL_COUNT = 0 ∧ rdF t R_INT_UE_CTL INT_UE_CTL_COUNT = 0) ∧
  (let w := regWrite s R_RMP_CMD v
   let t := w.state
   let u := getF v RMP_CMD_UNIT
   let line := getF v RMP_CMD_LINE
   let refused := fun code : Nat => w.status = .range ∧ rdF t R_RMP_STAT RMP_STAT_CODE = code ∧ t.integ.remaps = s.integ.remaps
   let out := (u < 64 ∧ dataBank s u = none) ∨ (64 ≤ u ∧ spareState s (u - 64) = 0)
   (65 < u ∨ unitPresent s.variant u = false → Refused w s .absent) ∧
   (u ≤ 65 → unitPresent s.variant u = true → hasF v RMP_CMD_GO = true →
     (rdB s R_RMP_STAT RMP_STAT_BUSY = true → refused 2) ∧
     (rdB s R_RMP_STAT RMP_STAT_BUSY = false → out → refused 3) ∧
     (rdB s R_RMP_STAT RMP_STAT_BUSY = false → ¬out → s.integ.remaps.any (fun j => j.unit = u && j.line = line) = false →
       w.status = .ok ∧
       (∀ k, (List.range 8).find? (fun k => rdF s (R_RMP_ENTRY u k) RMP_ENTRY_STATE = 0) = some k →
         t.integ.remaps = s.integ.remaps ++ [⟨u, line, k, true⟩] ∧ rd t (R_RMP_ENTRY u k) = w64 (line + 1 <<< 16) ∧
         rdB t R_RMP_STAT RMP_STAT_BUSY = true) ∧
       ((List.range 8).find? (fun k => rdF s (R_RMP_ENTRY u k) RMP_ENTRY_STATE = 0) = none →
         t.integ.remaps = s.integ.remaps ∧ rdB t R_RMP_STAT RMP_STAT_BUSY = false ∧ rdF t R_RMP_STAT RMP_STAT_CODE = 1 ∧
         rdB t R_INT_HF INT_HF_FULL = true))))

/-- TST_CMD refuses with its code or begins the test; ABORT ends it, a destructive one with its unit undefined; RET_CMD refuses with its code
or asks for the retirement; TST_ENG runs a self-test of an engine that is offline for 50 µs (R4, R252, R253, R255, R260, R262). -/
def TestWrites (s : State) (v : Word64) : Prop :=
  (let w := regWrite s R_TST_CMD v
   let t := w.state
   let u := getF v TST_CMD_UNIT
   let mode := if 66 ≤ u then 2 else getF v TST_CMD_MODE
   (unitPresent s.variant u = false → Refused w s .absent) ∧
   (unitPresent s.variant u = true → hasF v TST_CMD_START = true →
     (rdF s R_TST_STAT TST_STAT_STATE = 1 → tstCmdCode s v = 1) ∧
     (tstCmdCode s v ≠ 0 → w.status = .range ∧ rdF t R_TST_STAT TST_STAT_CODE = tstCmdCode s v ∧ t.test = s.test) ∧
     (tstCmdCode s v = 0 → w.status = .ok ∧ rdF t R_TST_STAT TST_STAT_STATE = 1 ∧ t.test.fgUnit = some u ∧ t.test.fgMode = mode ∧
       t.test.fgAlgo = getF v TST_CMD_ALGO ∧ t.test.fgEmpty = hasF v TST_CMD_EMPTY ∧ t.test.fgFails = 0 ∧
       t.test.fgGroup = (if mode = 1 then getF v TST_CMD_GROUP else 0)))) ∧
  (hasF v TST_CTL_ABORT = true → hasF v TST_CTL_STAT_CLEAR = false →
    let t := (regWrite s R_TST_CTL v).state
    (s.test.fgUnit = none → t = s) ∧
    (∀ u, s.test.fgUnit = some u → s.test.fgMode = 2 → t.test.fgUnit = none ∧ (u, s.time) ∈ t.test.undef ∧
      rdF t R_TST_STAT TST_STAT_STATE = (if s.test.fgFails = 0 then 2 else 3)) ∧
    (∀ u, s.test.fgUnit = some u → s.test.fgMode ≠ 2 → fgBank s u = none → (fgRun s u).isNone = true → t.test.fgUnit = none)) ∧
  (let w := regWrite s R_RET_CMD v
   let t := w.state
   let b := getF v RET_CMD_BANK
   let sel := if hasF v RET_CMD_ENG_SEL then some (getF v RET_CMD_ENGINE) else none
   let absent := bankPresent s.variant b = false ∨ numEngines s.variant ≤ getF v RET_CMD_ENGINE
   (absent → Refused w s .absent) ∧
   (¬absent → hasF v RET_CMD_START = true →
     (retireCode s b sel ≠ 0 → w.status = .range ∧ rdF t R_RET_STAT RET_STAT_CODE = retireCode s b sel ∧ t.test = s.test) ∧
     (retireCode s b sel = 0 → s.power.scHalted = true → w.status = .ok ∧ rdB t R_RET_STAT RET_STAT_PENDING = true ∧
       t.test.retPend = some (b, sel)) ∧
     (∀ i e, retireCode s b sel = 0 → s.power.scHalted = false → bankDestroyed s b = false → (bankOf s b).borrow = none →
       (rackableSpares s).head? = some i → (sel = some e ∨ (sel = none ∧ (onlineEngines s).getLast? = some e)) → engFrozen s e = false →
       w.status = .ok ∧ spareState t i = 1 ∧ spareBank t i = b ∧ spareLine t i = 0 ∧ rdB t (R_ENG_STAT e) ENG_STAT_RACKING = true ∧
       rdB t R_RET_STAT RET_STAT_PENDING = false))) ∧
  (let w := regWrite s R_TST_ENG v
   let t := w.state
   let e := getF v TST_ENG_ENGINE
   (numEngines s.variant ≤ e → Refused w s .absent) ∧
   (e < numEngines s.variant → hasF v TST_ENG_GO = true →
     (engState s e ≠ 2 → w.status = .range ∧ rdF t R_TST_STAT TST_STAT_CODE = 6 ∧ t.test = s.test) ∧
     (engState s e = 2 → w.status = .ok ∧ (e, s.time + 80000) ∈ t.test.selfEnd ∧ bitOf (rdF t R_TST_ENGRES TST_ENGRES_RUNNING) e = true)))

/-- LPH_CTL: RATES and EI_IDLE_US of 0 refuse; on a port UP with LOOP 0, RETRAIN, UNSPARE and a SPARE_NOW with a free spare make it retrain,
with the move that was asked for; LOOP 1 and 2 take it to LOOPBACK, LOOP 0 from there and LOOP 3 from UP to training. MIN_CLEAR sets
EMF_MIN to its top (R283, R286–R290). -/
def LaneWrites (s : State) (v : Word64) : Prop :=
  ∀ p, p < 8 →
    let w := regWrite s (R_LPH_CTL p) v
    let t := w.state
    let old := rdF s (R_LPH_CTL p) LPH_CTL_LOOP
    let new := getF v LPH_CTL_LOOP
    let spare := hasF v LPH_CTL_SPARE_NOW = true ∧ rxSpareFree s p = true
    let bad := getF v LPH_CTL_RATES = 0 ∨ getF v LPH_CTL_EI_IDLE_US = 0
    (bad → Refused w s .range) ∧
    (¬bad → linkState s p = LS_UP → old = 0 → new = 0 →
      (hasF v LPH_CTL_RETRAIN = true ∨ hasF v LPH_CTL_UNSPARE = true ∨ spare → w.status = .ok ∧ Retrains s t p ∧
        (phyOf t p).pendingUnspare = ((phyOf s p).pendingUnspare || hasF v LPH_CTL_UNSPARE)) ∧
      (spare → rdB s (R_LRX_STAT p 8) LRX_STAT_UNUSABLE = false → (phyOf t p).pendingSpare = some (getF v LPH_CTL_SPARE_LANE)) ∧
      (hasF v LPH_CTL_RETRAIN = false → hasF v LPH_CTL_UNSPARE = false → ¬spare → linkState t p = LS_UP)) ∧
    (¬bad → linkState s p ≠ LS_DISABLED → (new = 1 ∨ new = 2) → old ≠ new →
      linkState t p = LS_LOOPBACK ∧ rdB t (R_PT_STAT p) PT_STAT_SESSION = false ∧ rdB t (R_PT_STAT p) PT_STAT_EV_LOOPBACK = true) ∧
    (¬bad → (linkState s p = LS_LOOPBACK ∧ new = 0) ∨ (linkState s p = LS_UP ∧ new = 3) →
      linkState t p = LS_DETECT ∧ rdF t (R_LPH_STAT p) LPH_STAT_ATTEMPT = 1) ∧
    (∀ j, j < 9 → let u := (regWrite s (R_LRX_STAT p j) v).state
      (hasF v LRX_STAT_MIN_CLEAR = true → rdF u (R_LRX_STAT p j) LRX_STAT_EMF_MIN = 0xFF) ∧ (hasF v LRX_STAT_MIN_CLEAR = false → u = s))

/-- PR_CMD with one bit: PROMOTE makes ORPHAN SOLO in a new epoch; JOIN without a role shows code 1, else a join begins with its SOURCE, from
OFF in SEEKING; LEAVE ends in OFF with no partner and no unit (R340, R342, R345). -/
def PairWrites (s : State) (v : Word64) : Prop :=
  let t := (regWrite s R_PR_CMD v).state
  (hasF v PR_CMD_PROMOTE = true → hasF v PR_CMD_JOIN = false → hasF v PR_CMD_LEAVE = false →
    (pairState s = PS_ORPHAN → pairState t = PS_SOLO ∧ pairActive t = true ∧
      rdF t R_PR_EPOCH PR_EPOCH_EPOCH = (rdF s R_PR_EPOCH PR_EPOCH_EPOCH + 1) % 2 ^ PR_EPOCH_EPOCH.width) ∧
    (pairState s ≠ PS_ORPHAN → pairState t = pairState s)) ∧
  (hasF v PR_CMD_JOIN = true → hasF v PR_CMD_PROMOTE = false → hasF v PR_CMD_LEAVE = false →
    (pairRole s = 0 → pairState t = pairState s ∧ rdF t R_PR_STAT PR_STAT_JOIN_CODE = 1) ∧
    (pairRole s ≠ 0 → pairState t = (if pairState s = PS_OFF then PS_SEEKING else pairState s) ∧ t.pair.joining = true ∧ t.pair.helloDue = true ∧
      t.pair.sourceCmd = (if hasF v PR_CMD_SOURCE then 1 else 2))) ∧
  (hasF v PR_CMD_LEAVE = true → hasF v PR_CMD_PROMOTE = false → hasF v PR_CMD_JOIN = false →
    pairState t = PS_OFF ∧ t.pair.partner = none ∧ t.pair.joining = false ∧ t.pair.units = [])

/-- PWR_REGION refuses as a whole, or each region whose target changed moves towards it; PWR_CTL sets DEV_STATE; PWR_RESET with WARM and its
key begins a warm reset, with a port's bit it resets that port (R349, R351, R353, R355, R356, R370). -/
def PowerWrites (s : State) (v : Word64) : Prop :=
  (let w := regWrite s R_PWR_REGION v
   let t := w.state
   let aim := fun h : Nat => getF v (PWR_REGION_TARGET_H h)
   let bad := ∃ h ∈ presentRegions s.variant, aim h = 3 ∨ (aim h = 2 ∧ regionTarget s h ≠ 2 ∧ offRefused s h = true)
   (bad → Refused w s .range) ∧
   (¬bad → w.status = .ok ∧ ∀ h ∈ presentRegions s.variant, regionTarget t h = aim h ∧
     (aim h = regionTarget s h → regionState t h = regionState s h) ∧
     (aim h ≠ regionTarget s h → devSleep s = false →
       (regionState s h = RS_OFF → aim h ≠ 2 → regionState t h = RS_WAKING ∧ (h, s.time) ∈ t.power.offWake) ∧
       (regionState s h = RS_RETAIN → aim h = 0 → wakingFromOff s h = false → enteringOff s h = false → regionState t h = RS_WAKING) ∧
       (regionState s h = RS_ACTIVE → aim h = 1 → regionHeldByTest s h = false → wakingFromOff s h = false → enteringOff s h = false →
         regionState t h = (if regionWaiting s h then RS_ACTIVE else RS_ENTERING)) ∧
       (regionState s h = RS_ACTIVE → aim h = 2 → regionHeldByTest s h = false → wakingFromOff s h = false → enteringOff s h = false →
         regionState t h = (if regionWaiting s h then RS_ENTERING else RS_OFF)) ∧
       (regionState s h = RS_ACTIVE → aim h ≠ 0 → regionHeldByTest s h = true → wakingFromOff s h = false → enteringOff s h = false →
         regionState t h = RS_DEFERRED)))) ∧
  (let w := regWrite s R_PWR_CTL v
   let st := getF v PWR_CTL_DEV_STATE
   let bad := st = 3 ∨ getF v PWR_CTL_RETAIN_IDLE_US = 0 ∨ (st = 2 ∧ sleepRefused s = true)
   (bad → Refused w s .range) ∧
   (¬bad → w.status = .ok ∧ rdF w.state R_PWR_DEVSTAT PWR_DEVSTAT_STATE = st)) ∧
  (let w := regWrite s R_PWR_RESET v
   let t := w.state
   (hasF v PWR_RESET_WARM = true → getF v PWR_RESET_KEY ≠ 0x5741 → Refused w s .range) ∧
   (hasF v PWR_RESET_WARM = true → getF v PWR_RESET_KEY = 0x5741 → w.status = .ok ∧ t.power.warmPending = true ∧ t.power.step = some 0 ∧
     rdB t R_PWR_DEVSTAT PWR_DEVSTAT_READY = false ∧ t.heldOrd = []) ∧
   (∀ p, p < numPorts s.variant → hasF v PWR_RESET_WARM = false → getF v PWR_RESET_PORT = 2 ^ p →
     w.status = .ok ∧ linkOf t p = linkReset ∧ rdB t (R_PT_STAT p) PT_STAT_SESSION = false ∧
     linkState t p = (if portsTrain s && bitOf (rd s R_MG_PORTEN).toNat p then LS_DETECT else LS_DISABLED) ∧
     ∀ x, x ≠ p → linkOf t x = linkOf s x))

/-- PC_CFG and CLEAR_ALL leave their counters 0 at the cycle's end, FREEZE a snapshot of all; SMP_CTL takes its fields and a new seed, its
CLEAR and that of TR_CTL empty their rings; SMP_IDX and TR_IDX copy a slot as it stands at the cycle's end; CEL_CTL enables an area
that is on (R404–R408, R409, R411, R412, R415, R418, R420). -/
def ObservationWrites (s : State) (v : Word64) : Prop :=
  (∀ i, i < 64 →
    let w := regWrite s (R_PC_CFG i) v
    (eventPresent s.variant (getF v PC_CFG_EVENT) = none → Refused w s .range) ∧
    (eventPresent s.variant (getF v PC_CFG_EVENT) = some false → Refused w s .absent) ∧
    (eventPresent s.variant (getF v PC_CFG_EVENT) = some true → w.status = .ok ∧
      rdF w.state (R_PC_CFG i) PC_CFG_EVENT = getF v PC_CFG_EVENT ∧ rd (countCycle w.state) (R_PC_CNT i) = 0) ∧
    (hasF v PC_GCTL_CLEAR_ALL = true → rd (countCycle (regWrite s R_PC_GCTL v).state) (R_PC_CNT i) = 0) ∧
    (hasF v PC_GCTL_FREEZE = true → hasF v PC_GCTL_CLEAR_ALL = false → s.obs.reprog = [] →
      let t := countCycle (regWrite s R_PC_GCTL v).state
      rd t R_PC_SNAPTIME = w64 s.time ∧
      rd t (R_PC_SNAP i) = w64 (rdF t (R_PC_CNT i) PC_CNT_COUNT + (b01 (rdB t (R_PC_CNT i) PC_CNT_OVF)) <<< 63))) ∧
  (let w := regWrite s R_SMP_CTL v
   let t := w.state
   let bad := 20 < getF v SMP_CTL_K ∨ getF v SMP_CTL_SEED = 0
   (bad → Refused w s .range) ∧
   (¬bad → w.status = .ok ∧ (∀ f ∈ [SMP_CTL_ENABLE, SMP_CTL_K, SMP_CTL_SEED], rdF t R_SMP_CTL f = getF v f) ∧
     t.obs.smpS = (if getF v SMP_CTL_K = rdF s R_SMP_CTL SMP_CTL_K ∧ getF v SMP_CTL_SEED = rdF s R_SMP_CTL SMP_CTL_SEED then s.obs.smpS
       else getF v SMP_CTL_SEED) ∧
     (hasF v SMP_CTL_CLEAR = true → t.obs.smpRing = [] ∧ rdF t R_SMP_STAT SMP_STAT_NEXT = 0 ∧ rdF t R_SMP_STAT SMP_STAT_COUNT = 0))) ∧
  (s.obs.smpOut = [] → s.obs.trPend = [] →
    (let t := ringCycle (regWrite s R_SMP_IDX v).state
     ∀ k, k < 8 → rd t (R_SMP_REC k) = w64 ((sget 0 s.obs.smpRing (getF v SMP_IDX_INDEX)).toNat >>> (64 * k))) ∧
    (let t := ringCycle (regWrite s R_TR_IDX v).state
     ∀ k, k < 4 → rd t (R_TR_ENT k) = w64 ((sget 0 s.obs.trRing (getF v TR_IDX_INDEX)).toNat >>> (64 * k)))) ∧
  (hasF v TR_CTL_CLEAR = true →
    let t := (regWrite s R_TR_CTL v).state
    t.obs.trRing = [] ∧ rdF t R_TR_STAT TR_STAT_NEXT = 0 ∧ rdF t R_TR_STAT TR_STAT_COUNT = 0) ∧
  (let w := regWrite s R_CEL_CTL v
   let h := regionOf (cellarBase s.variant)
   let off := regionState s h = RS_OFF ∨ wakingFromOff s h = true
   (hasF v CEL_CTL_ENABLE = true → off → Refused w s .range) ∧
   (hasF v CEL_CTL_ENABLE = false ∨ ¬off → w.status = .ok ∧ rdB w.state R_CEL_CTL CEL_CTL_ENABLE = hasF v CEL_CTL_ENABLE))

end Sys2Proof.Machine
end

