-- ==== Sys2Proof/Certificates/Slice0/Obligations.lean ====
section
/-! DEFINITION. The statements for the provers, each over every state and command that its hypotheses admit. -/

open Sys2Proof Sys2Proof.Machine

/-- For every command c and state s, step of s with c at the front of its queue is exec of c on s with the queue's rest. The queue of
waiting commands is the model's choice, no rule's (log entries 5 and 58). (R1, R22) -/
def Obligations.StepRunsTheFrontCommand : Prop :=
  ∀ (c : Instr) (rest : List Instr) (s : State), step { s with pending := c :: rest } = exec c { s with pending := rest }

/-- On an empty queue a step answers a next state; the time goes on by 1 on the PLL and by 4 on the oscillator, and stands still with no
clock; with no store operation waiting, no test without an arbiter and no warm reset pending no stored byte changes. That a core
cycle is what an empty queue runs is the model's choice (log entry 6). (R22, R431) -/
def Obligations.EmptyQueueRunsOneCoreCycle : Prop :=
  ∀ s : State, s.pending = [] →
    ∃ t, step s = .next t ∧ t.pending = [] ∧
      t.time = (match s.power.clock with | .pll => s.time + 1 | .oscillator => s.time + 4 | _ => s.time) ∧
      (s.power.clock = .stopped ∨ s.power.clock = .none → t = s) ∧
      (s.semq = [] → s.mbxq = [] → s.test.agents = [] → s.power.warmPending = false → t.cells = s.cells)

/-- For every command and every state exec answers a next state, with the queue of waiting commands and the variant unchanged: no
meaning ends in a fault or a refusal. That a command whose conditions are not met does nothing is the model's choice (log entry 7).
(R31, R22) -/
def Obligations.EveryCommandAnswersANextState : Prop :=
  ∀ (c : Instr) (s : State), ∃ t, exec c s = .next t ∧ t.pending = s.pending ∧ t.variant = s.variant

/-- From every state whose memory is in canonical form (keys strictly rising, no byte listed that is zero), a step whatever it runs
gives a state whose memory is. (R8, R69, R218) -/
def Obligations.StepKeepsMemoryCanonical : Prop :=
  ∀ s t : State, Inv s → step s = .next t → Inv t

/-- State.reset lists no byte and no command, so the invariant of every step holds of it (that array and stores read zero before step S3
clears them is the model's choice, log entries 2 and 53); of the variant of log entry 1 the shares, the grants, the retire map, the
device status, a source entry, a target and the retirement status hold the reset values of their tables. (R69, R10, R40, R41, R70,
R398) -/
def Obligations.ResetHoldsItsTables : Prop :=
  (Inv State.reset ∧ State.reset.cells = [] ∧ State.reset.pending = []) ∧
  (rd State.reset R_ARB_SHARE = 0xAAAA ∧ rd State.reset R_MG_GRANT = 0 ∧ rd State.reset R_MG_PORTEN = 0xFF ∧
  rd State.reset R_RET_MAP = 0 ∧ rd State.reset R_MG_CHAINADDR = 0 ∧ rdB State.reset R_PWR_DEVSTAT PWR_DEVSTAT_READY = false ∧
  rd State.reset (R_SRC_ENTRY 4096) = 0x230000001F ∧ rd State.reset (R_TGT_CTL 35) = 0x10 ∧ rd State.reset R_RET_STAT = 2)

/-- A step from any state leaves device time where it was or takes it on, unless the command at the front is POWER_ON, which begins a
new run. (R431, R22) -/
def Obligations.DeviceTimeNeverGoesBack : Prop :=
  ∀ s t : State, s.pending.head? ≠ some .powerOn → step s = .next t → s.time ≤ t.time

/-- A request unit in an open session, well formed by its header, with free tags and the credits it needs, is accepted: exec of its row
answers the state in which its slots are counted and the request with that opcode, address, length, mask and data has been accepted;
of a run unit member k takes tag TAG + k, address ADDR + 64k and line k of the data, the first standing for the header slot, each of
a write run for the four slots of its line. (R45, R68, R71, R96, R102, R309, R310, R311) -/
def Obligations.RequestUnitsAreAccepted : Prop :=
  ((∀ (s : State) (h : ReqHdr) (addr : BitVec 32) (len : BitVec 7), UnitAccepted s h 0x01 len.toNat 0 0 →
    exec (.readReq h addr len) s = .next (acceptUnit s h (unitReq h .read 0x01 addr.toNat len.toNat 0 0 false []) (slotsNeeded 0))) ∧
  (∀ (s : State) (h : ReqHdr) (addr : BitVec 32) (len : BitVec 7) (mask : BitVec 64) (data : List Byte), UnitAccepted s h 0x02 len.toNat 0 0 → data.length = len.toNat →
    exec (.writeReq h addr len mask data) s = .next (acceptUnit s h (unitReq h .write 0x02 addr.toNat len.toNat mask 0 false data) (slotsNeeded data.length))) ∧
  (∀ (s : State) (h : ReqHdr) (addr : BitVec 32) (len : BitVec 7) (data : List Byte), UnitAccepted s h 0x10 len.toNat 0 0 → data.length = len.toNat →
    exec (.faddReq h addr len data) s = .next (acceptUnit s h (unitReq h (.atomic .fadd) 0x10 addr.toNat len.toNat 0 0 false data) (slotsNeeded data.length))) ∧
  (∀ (s : State) (h : ReqHdr) (addr : BitVec 32) (len : BitVec 7) (data : List Byte), UnitAccepted s h 0x11 len.toNat 0 0 → data.length = len.toNat →
    exec (.fandReq h addr len data) s = .next (acceptUnit s h (unitReq h (.atomic .fand) 0x11 addr.toNat len.toNat 0 0 false data) (slotsNeeded data.length))) ∧
  (∀ (s : State) (h : ReqHdr) (addr : BitVec 32) (len : BitVec 7) (data : List Byte), UnitAccepted s h 0x12 len.toNat 0 0 → data.length = len.toNat →
    exec (.forReq h addr len data) s = .next (acceptUnit s h (unitReq h (.atomic .for_) 0x12 addr.toNat len.toNat 0 0 false data) (slotsNeeded data.length))) ∧
  (∀ (s : State) (h : ReqHdr) (addr : BitVec 32) (len : BitVec 7) (data : List Byte), UnitAccepted s h 0x13 len.toNat 0 0 → data.length = len.toNat →
    exec (.fxorReq h addr len data) s = .next (acceptUnit s h (unitReq h (.atomic .fxor) 0x13 addr.toNat len.toNat 0 0 false data) (slotsNeeded data.length))) ∧
  (∀ (s : State) (h : ReqHdr) (addr : BitVec 32) (len : BitVec 7) (data : List Byte), UnitAccepted s h 0x14 len.toNat 0 0 → data.length = len.toNat →
    exec (.swapReq h addr len data) s = .next (acceptUnit s h (unitReq h (.atomic .swap) 0x14 addr.toNat len.toNat 0 0 false data) (slotsNeeded data.length))) ∧
  (∀ (s : State) (h : ReqHdr) (addr : BitVec 32) (len : BitVec 7) (data : List Byte), UnitAccepted s h 0x15 len.toNat 0 0 → data.length = 2 * len.toNat →
    exec (.casReq h addr len data) s = .next (acceptUnit s h (unitReq h (.atomic .cas) 0x15 addr.toNat len.toNat 0 0 false data) (slotsNeeded data.length))) ∧
  (∀ (s : State) (h : ReqHdr) (addr : BitVec 32) (len : BitVec 7) (data : List Byte), UnitAccepted s h 0x16 len.toNat 0 0 → data.length = len.toNat →
    exec (.fminsReq h addr len data) s = .next (acceptUnit s h (unitReq h (.atomic .fmins) 0x16 addr.toNat len.toNat 0 0 false data) (slotsNeeded data.length))) ∧
  (∀ (s : State) (h : ReqHdr) (addr : BitVec 32) (len : BitVec 7) (data : List Byte), UnitAccepted s h 0x17 len.toNat 0 0 → data.length = len.toNat →
    exec (.fminuReq h addr len data) s = .next (acceptUnit s h (unitReq h (.atomic .fminu) 0x17 addr.toNat len.toNat 0 0 false data) (slotsNeeded data.length))) ∧
  (∀ (s : State) (h : ReqHdr) (addr : BitVec 32) (len : BitVec 7) (data : List Byte), UnitAccepted s h 0x18 len.toNat 0 0 → data.length = len.toNat →
    exec (.fmaxsReq h addr len data) s = .next (acceptUnit s h (unitReq h (.atomic .fmaxs) 0x18 addr.toNat len.toNat 0 0 false data) (slotsNeeded data.length))) ∧
  (∀ (s : State) (h : ReqHdr) (addr : BitVec 32) (len : BitVec 7) (data : List Byte), UnitAccepted s h 0x19 len.toNat 0 0 → data.length = len.toNat →
    exec (.fmaxuReq h addr len data) s = .next (acceptUnit s h (unitReq h (.atomic .fmaxu) 0x19 addr.toNat len.toNat 0 0 false data) (slotsNeeded data.length))) ∧
  (∀ (s : State) (h : ReqHdr) (addr : BitVec 32) (len : BitVec 7) (opfmt : BitVec 4) (tally : Bool) (data : List Byte), UnitAccepted s h 0x20 len.toNat opfmt.toNat 0 → data.length = payloadLen 0x20 len.toNat opfmt.toNat 0 →
    exec (.accReq h addr len opfmt tally data) s = .next (acceptUnit s h (unitReq h .acc 0x20 addr.toNat len.toNat 0 opfmt.toNat tally data) (slotsNeeded data.length))) ∧
  (∀ (s : State) (h : ReqHdr) (addr : BitVec 32) (len : BitVec 7), UnitAccepted s h 0x21 len.toNat 0 0 →
    exec (.rdcvReq h addr len) s = .next (acceptUnit s h (unitReq h .rdcv 0x21 addr.toNat len.toNat 0 0 false []) (slotsNeeded 0))) ∧
  (∀ (s : State) (h : ReqHdr), UnitAccepted s h 0x30 0 0 0 →
    exec (.fenceReq h) s = .next (acceptUnit s h (unitReq h .fence 0x30 0 0 0 0 false []) (slotsNeeded 0)))) ∧
  ((∀ (s : State) (h : ReqHdr) (addr : BitVec 32) (len : BitVec 7) (run : BitVec 8), UnitAccepted s h 0x03 len.toNat 0 run.toNat →
    exec (.readRun h addr len run) s = .next ((List.range run.toNat).foldl (fun s k => acceptMember s h.port.toNat
      { unitReq h .read 0x03 ((addr.toNat + 64 * k) % 2 ^ 32) len.toNat (BitVec.allOnes 64) 0 false [] with tag := (h.tag.toNat + k) % 4096 }
      (if k = 0 then 1 else 0)) (countSlots s h.port.toNat (unitVc h) 1))) ∧
  (∀ (s : State) (h : ReqHdr) (addr : BitVec 32) (len : BitVec 7) (run : BitVec 8) (data : List Byte),
    UnitAccepted s h 0x04 len.toNat 0 run.toNat → data.length = 64 * run.toNat →
    exec (.writeRun h addr len run data) s = .next ((List.range run.toNat).foldl (fun s k => acceptMember s h.port.toNat
      { unitReq h .write 0x04 ((addr.toNat + 64 * k) % 2 ^ 32) len.toNat (BitVec.allOnes 64) 0 false ((data.drop (64 * k)).take 64) with
        tag := (h.tag.toNat + k) % 4096 }
      ((if k = 0 then 1 else 0) + 4)) (countSlots s h.port.toNat (unitVc h) (1 + 4 * run.toNat)))))

/-- An ORDERED request accepted while an earlier one of its port and slot is held takes the next number and joins the held requests,
last; array, stores and banks are as before. ORDERED_RELEASE: the oldest held request of the port and slot that may go on leaves
decode; that its checks are made then is the model's reading (log entry 12, DEDUCED). RESPONSE_SEND: the due response of the channel
that fell due first, with its credits, is packed on the port, its request is over and FENCEs that waited for it fall due, and it is
what leaves the device; that it joins a response slot that waits with an entry free is the model's choice (log entry 37; R313 allows
it). (R65, R67, R311, R313, R315) -/
def Obligations.HeldRequestsWaitAndLeave : Prop :=
  (∀ (s : State) (p slots : Nat) (r : Req) (x : Txn), x ∈ s.heldOrd → x.req.who = r.who → x.uid < s.nextUid → r.ord = true →
    let t := acceptMember s p r slots
    t.heldOrd.map (fun y => (y.uid, y.req)) = s.heldOrd.map (fun y => (y.uid, y.req)) ++ [(s.nextUid, r)] ∧
    t.nextUid = s.nextUid + 1 ∧ t.txns = s.txns ∧ t.cells = s.cells ∧ t.banks = s.banks ∧ t.semq = s.semq ∧ t.mbxq = s.mbxq) ∧
  ((∀ (s : State) (port : BitVec 3) (slot : BitVec 2) (t : Txn), coreOn s = true →
    s.heldOrd.find? (fun t => t.req.who = .port port.toNat slot.toNat && mayPass s t) = some t →
    exec (.orderedRelease port slot) s = .next (passDecode { s with heldOrd := s.heldOrd.filter (fun x => x.uid != t.uid) } t)) ∧
  (∀ (s : State) (port : BitVec 3) (mgmt : Bool) (t : Txn), nextDue s port.toNat mgmt = some t → coreOn s = true →
    portUp s port.toNat = true → rdB s (R_PT_STAT port.toNat) PT_STAT_CREDITED = true → responseCredit s port.toNat mgmt t = true →
    ∃ u, exec (.responseSend port mgmt) s = .next u ∧ u.txns = (settleFences { s with txns := s.txns.filter (fun x => x.uid != t.uid) }).txns ∧
      u.out = .response port.toNat mgmt (whoSlot t.req.who) t.req.tag t.status t.ce (responseSup t) (responseData t) :: s.out ∧
      (linkOf u port.toNat).tx = (match joinResponse (if mgmt then 3 else 1) (responseUnit t) (linkOf s port.toNat).tx with
        | some tx => tx
        | none => (linkOf s port.toNat).tx ++ [(if mgmt then 3 else 1, responseUnit t)]) ∧ u.cells = s.cells))

/-- MALFORMED_UNIT in an open session: MALFORMED and RESYNC are counted, the stream is dropped until FIRST of a later flit, and no part
of a unit is kept. (R318) -/
def Obligations.MalformedUnitDropsTheStream : Prop :=
  ∀ (s : State) (port : BitVec 3), coreOn s = true → port.toNat < numPorts s.variant → rdB s (R_PT_STAT port.toNat) PT_STAT_SESSION = true →
    ∃ t, exec (.malformedUnit port) s = .next t ∧ (linkOf t port.toNat).resync = true ∧ (linkOf t port.toNat).partialUnit = [] ∧
      (linkOf t port.toNat).needSlots = 0 ∧ t.cells = s.cells ∧ t.txns = s.txns ∧ t.heldOrd = s.heldOrd ∧ t.banks = s.banks ∧
      (∀ p, p ≠ port.toNat → linkOf t p = linkOf s p) ∧
      (counting s (2 + port.toNat) = true → ∀ f ∈ [PT_ERR_MALFORMED, PT_ERR_RESYNC],
        rdF t (R_PT_ERR port.toNat) f = min (rdF s (R_PT_ERR port.toNat) f + 1) (2 ^ f.width - 1))

/-- With a bank cycle free, no borrowed group and no foreground test at the bank, BANK_SLOT completes: the winner of the arbitration is
served with its group and leaves the queue, the service pointer moves past it, the bank cycle is used, and what the slot brings
about at the engines follows. When nobody presents a request the cycle is used, the idle run grows by 1 and no byte changes. (R44,
R56, R57, R58) -/
def Obligations.BankSlotServesItsWinner : Prop :=
  (∀ (s : State) (bank : BitVec 6) (ptr : Nat) (w : BReq), BankServes s bank.toNat ptr w →
    exec (.bankSlot bank) s = .next (offlineStep (syncFaultStep (bankServed s bank.toNat ptr w))) ∧
    (bankOf (bankServed s bank.toNat ptr w) bank.toNat).lastSlot = some s.time ∧
    w ∉ (bankOf (bankServed s bank.toNat ptr w) bank.toNat).queue) ∧
  (∀ (s : State) (bank : BitVec 6), bankCycleFree s bank.toNat = true → (bankOf s bank.toNat).borrow = none → s.test.fgUnit = none →
    (∀ id, id < 28 → presented s bank.toNat id = none) →
    ∃ u, exec (.bankSlot bank) s = .next (offlineStep (syncFaultStep u)) ∧ (bankOf u bank.toNat).lastSlot = some s.time ∧
      (bankOf u bank.toNat).queue = (bankOf s bank.toNat).queue ∧
      (bankOf u bank.toNat).idleRun = (bankOf s bank.toNat).idleRun + 1 ∧
      u.cells = s.cells ∧ u.regs = s.regs ∧ u.txns = s.txns ∧ ∀ b, b ≠ bank.toNat → bankOf u b = bankOf s b)

/-- BANK_SLOT with no injection armed and the winner's unit defined stores in the winner's line alone, every byte outside it as before.
A plain READ, RDCV or WRITE: the two codewords hold the bytes that the writes of the group leave, encoded anew, when some write
stores. An atomic operation: they hold the line with the word replaced by the value of its table. An ACC: they hold the line with
the elements combined in ascending order, and the bank's next slot is reserved. Nothing is stored by a group without a storing
write, by a CAS that does not match, and where an atomic operation or an ACC meets a poisoned or uncorrectable codeword. (R44, R47,
R60, R64, R71, R73, R97, R99) -/
def Obligations.SlotsStoreTheirLineOnly : Prop :=
  ∀ (s : State) (bank : BitVec 6) (ptr : Nat) (w : BReq), BankServes s bank.toNat ptr w → rdB s R_INT_INJECT INT_INJECT_ARM = false →
    let b := bank.toNat
    let unit := physUnit s b (bankLine s.variant w.addr)
    let pline := physLine s unit (bankLine s.variant w.addr)
    let d := fun k => decodeCw (readCw s unit pline k)
    let bytes := cwData (d 0).cw ++ cwData (d 1).cw
    let bad := ∃ k, k < 2 ∧ ((d k).outcome = .poisoned ∨ (d k).outcome = .uncorrectable)
    let lo := w.addr % 64
    let holds := fun (t : State) (line : List Byte) => ∀ k, k < 2 → readCw t unit pline k = encodeCw (cwOfBytes ((line.drop (32 * k)).take 32))
    unitUndefined s unit = false →
    ∃ t, exec (.bankSlot bank) s = .next t ∧ SameCellsOutside s t (cellKey unit pline 0 0) (cellKey unit pline 0 0 + 128) ∧
      (groupable w = true →
        let ms := groupOf (setBank s b { bankOf s b with ptr := ptr }) b w
        let v := if ms.any (fun r => !fullLine r) then viewOf (d 0) (d 1) else blankView
        let g := groupOn v v ms
        (g.2.any (fun a => a.stored) = false → t.cells = s.cells) ∧ (g.2.any (fun a => a.stored) = true → holds t g.1.bytes)) ∧
      (∀ k, w.op = .atomic k →
        let res := atomicResult k (8 * w.len) (leNat (sliceBytes bytes lo w.len)) (leNat (sliceBytes w.data 0 w.len))
          (leNat (sliceBytes w.data w.len w.len))
        (bad ∨ res = none → t.cells = s.cells) ∧ (∀ x, ¬bad → res = some x → holds t (overlay bytes lo (leBytes w.len x)))) ∧
      (w.op = .acc →
        let combined := (accRange w.opfmt w.vop (toSigned 12 w.vscale) (w.len / storedSize w.opfmt) (sliceBytes bytes lo w.len) w.data ⟨0, 0, false⟩).1
        (bankOf t b).wbCycle = some (s.time + 1) ∧ (bad → t.cells = s.cells) ∧ (¬bad → holds t (overlay bytes lo combined)))

/-- For every list of answers in group order: the answer at place i carries SUP if and only if it stored and every byte it enables is
enabled by a storing answer after it. (R61) -/
def Obligations.SupMarksWritesThatDidNotSurvive : Prop :=
  ∀ (as : List Answer) (i : Nat) (h : i < as.length),
    ∃ a, (markSup as)[i]? = some a ∧ a.req = as[i].req ∧ a.status = as[i].status ∧
      (a.sup = true ↔ as[i].stored = true ∧ ∀ l ∈ enabledLanes as[i].req, ∃ j, ∃ hj : j < as.length, i < j ∧ as[j].stored = true ∧
        l ∈ enabledLanes as[j].req)

/-- For W, A and B: FADD stores W + A modulo the width, FAND, FOR and FXOR the bitwise results, SWAP stores A, CAS stores B when W = A
and nothing otherwise, the four FMIN and FMAX the lesser or greater of W and A, signed or unsigned. (R71, R73) -/
def Obligations.AtomicOperationsStoreTheirTableValue : Prop :=
  ∀ w n a b : Nat, n < 2 ^ w → a < 2 ^ w →
    atomicResult .fadd w n a b = some ((n + a) % 2 ^ w) ∧ atomicResult .fand w n a b = some (n &&& a) ∧
    atomicResult .for_ w n a b = some (n ||| a) ∧ atomicResult .fxor w n a b = some (n ^^^ a) ∧
    atomicResult .swap w n a b = some a ∧ atomicResult .cas w n a b = (if n = a then some b else none) ∧
    atomicResult .fminu w n a b = some (min n a) ∧ atomicResult .fmaxu w n a b = some (max n a) ∧
    (∃ x, atomicResult .fmins w n a b = some x ∧ toSigned w x = min (toSigned w n) (toSigned w a) ∧ (x = n ∨ x = a)) ∧
    (∃ x, atomicResult .fmaxs w n a b = some x ∧ toSigned w x = max (toSigned w n) (toSigned w a) ∧ (x = n ∨ x = a))

/-- HOLD_TIMEOUT completes in every state and stores nothing: before an access of the bank has been set aside for 4,800 cycles it does
nothing; TST_HOLDS.BUSY rises by the number of those that have. One such access with a requester leaves the queue, and its request
or engine access, of one part, is answered BUSY and complete. One of the forwarder or of a copy stays, is set aside no more, and is
held anew when it is next presented (the model's choice, log entry 20). ARBITRATION_SETTING_APPLY at frame position 0 after a write:
the shares and weights of the latest write take effect, the writes are done with, the service pointer of every bank whose list L
changes is reset and every other bank is as before. (R248, R55, R439) -/
def Obligations.HeldAccessesTimeOutAndSettingsApply : Prop :=
  (∀ (s : State) (bank : BitVec 6),
    let b := bank.toNat
    let late := (bankOf s b).queue.filter (fun r => match r.setAside with | some t => t + 4800 ≤ s.time | none => false)
    ((∀ r ∈ (bankOf s b).queue, ∀ x, r.setAside = some x → s.time < x + 4800) → exec (.holdTimeout bank) s = .next s) ∧
    ∃ t, exec (.holdTimeout bank) s = .next t ∧ t.cells = s.cells ∧
      (counting s 0x12 = true → rdF t R_TST_HOLDS TST_HOLDS_BUSY = min (rdF s R_TST_HOLDS TST_HOLDS_BUSY + late.length) (2 ^ TST_HOLDS_BUSY.width - 1)) ∧
      (∀ r, late = [r] → waitsForTest r = false → (bankOf s b).staging = [] →
        r ∉ (bankOf t b).queue ∧
        (∀ p sl x, r.who = .port p sl → x ∈ s.txns → x.uid = r.uid → (∀ y ∈ s.txns, y.uid = r.uid → y = x) →
          x.left = 1 → x.waits = 0 → x.status = .ok → x.due = none → x.lost = false → x.req.op ≠ .fence →
          ∃ y ∈ t.txns, y.uid = r.uid ∧ y.req = x.req ∧ y.status = .busy ∧ y.due = some s.time) ∧
        (∀ e q a, r.who = .engine e q → a ∈ (queueOf s e q).accs → a.uid = r.uid → (∀ y ∈ (queueOf s e q).accs, y.uid = r.uid → y = a) →
          a.left = 1 → a.waits = 0 → a.status = .ok → a.doneAt = none →
          ∃ y ∈ (queueOf t e q).accs, y.uid = r.uid ∧ y.req = a.req ∧ y.status = .busy ∧ y.doneAt = some s.time)) ∧
      (∀ r, late = [r] → waitsForTest r = true → (bankOf s b).queue = [r] →
        let again := { r with setAside := none }
        (bankOf t b).queue = [again] ∧
        (reachedArbiter s r = true → regionServes s (b / 8) = true → heldByGroup s b r = true → whoId r.who < 32 → newlyHeld t b = [again]))) ∧
  (∀ (s : State) (a : Nat × Word64 × Word64), (s.power.arbPend.filter (fun a => a.1 < s.time)).getLast? = some a → s.time % 4 = 0 →
    ∃ t, exec .arbitrationSettingApply s = .next t ∧ t.power.arbPend = s.power.arbPend.filter (fun a => !(a.1 < s.time)) ∧
      t.power.shareEff = a.2.1 ∧ t.power.weightEff = a.2.2 ∧ t.regs = s.regs ∧ t.cells = s.cells ∧ t.txns = s.txns ∧
      ∀ b, b < 64 → bankOf t b =
        (if rotationList s.variant a.2.1 a.2.2 (b / 8) ≠ rotationList s.variant s.power.shareEff s.power.weightEff (b / 8)
         then { bankOf s b with ptr := 0 } else bankOf s b))

/-- The next waiting tally step of a vat that is still the same valid entry leaves the list, counts, and the entry is forwarded with
what waits for it; that of a vat made invalid meanwhile is dropped and its ACC completes. A step of a DONE vat adds 1 to EARLY
alone; a step of another adds 1 to TALLY, and when that reaches a nonzero EXPECTED, COMPLETIONS rises by 1 and AUTO_REARM sets TALLY
to 0, or DONE is set. (R110, R111, R112, R113) -/
def Obligations.TallyStepsCountAndComplete : Prop :=
  ((∀ (s : State) (x : TallyWait), nextTally s = some x → pairBlocked s (storePort s) = false → vatGenOf s x.vat = x.gen → vatValid s x.vat = true →
    let r := tallyVat { s with tallies := s.tallies.erase x } x.vat
    exec .tallyStep s = .next (forwardVat r.1 x.vat ([.release x.who x.uid, .vatEvent x.vat (vatView r.1 x.vat)] ++ r.2))) ∧
  (∀ (s : State) (x : TallyWait), nextTally s = some x → pairBlocked s (storePort s) = false → (vatGenOf s x.vat ≠ x.gen ∨ vatValid s x.vat = false) →
    exec .tallyStep s = .next (releaseWait { s with tallies := s.tallies.erase x } x.who x.uid))) ∧
  (∀ (s : State) (n : Nat), n < 1024 →
    (rdB s (R_VAT_CTL n) VAT_CTL_DONE = true →
      let t := (tallyVat s n).1
      (tallyVat s n).2 = [] ∧ rdF t (R_VAT_FLAGS n) VAT_FLAGS_EARLY = min (rdF s (R_VAT_FLAGS n) VAT_FLAGS_EARLY + 1) (2 ^ VAT_FLAGS_EARLY.width - 1) ∧
        rd t (R_VAT_COUNT n) = rd s (R_VAT_COUNT n) ∧ rd t (R_VAT_CTL n) = rd s (R_VAT_CTL n) ∧ rd t (R_VAT_EVENTS n) = rd s (R_VAT_EVENTS n)) ∧
    (rdB s (R_VAT_CTL n) VAT_CTL_DONE = false →
      let t := (tallyVat s n).1
      let tally := (rdF s (R_VAT_COUNT n) VAT_COUNT_TALLY + 1) % 2 ^ VAT_COUNT_TALLY.width
      let expected := rdF s (R_VAT_COUNT n) VAT_COUNT_EXPECTED
      (expected = 0 ∨ tally < expected →
        rdF t (R_VAT_COUNT n) VAT_COUNT_TALLY = tally ∧ rd t (R_VAT_CTL n) = rd s (R_VAT_CTL n) ∧ rd t (R_VAT_EVENTS n) = rd s (R_VAT_EVENTS n)) ∧
      (expected ≠ 0 ∧ expected ≤ tally →
        rdF t (R_VAT_EVENTS n) VAT_EVENTS_COMPLETIONS = (rdF s (R_VAT_EVENTS n) VAT_EVENTS_COMPLETIONS + 1) % 2 ^ VAT_EVENTS_COMPLETIONS.width ∧
        (rdB s (R_VAT_CTL n) VAT_CTL_AUTO_REARM = true → rdF t (R_VAT_COUNT n) VAT_COUNT_TALLY = 0 ∧ rd t (R_VAT_CTL n) = rd s (R_VAT_CTL n)) ∧
        (rdB s (R_VAT_CTL n) VAT_CTL_AUTO_REARM = false → rdF t (R_VAT_COUNT n) VAT_COUNT_TALLY = tally ∧ rdB t (R_VAT_CTL n) VAT_CTL_DONE = true))))

/-- The operation that the store serves next, of the row's kind, in a cycle not used yet: it leaves its queue, the cycle is used, the
semaphore's codeword holds the word and binding of the operation encoded anew when it writes them, and is unchanged when it writes
nothing or decodes uncorrectable; every other stored byte and every bank is as before. (R80, R88, R90) -/
def Obligations.SemaphoreOperationsTakeEffect : Prop :=
  ∀ (c : Instr) (k : StoreKind), (c, k) ∈ semRows → ∀ (s : State) (o : StoreOp),
    coreOn s = true → s.semServed ≠ some s.time → semFront s = some o → o.kind = k → unitUndefined s 66 = false →
    let d := semDecode s o.n
    let x := semEffect s o (semWord d) (semBinding d)
    let stores := x.word != semWord d || x.binding != semBinding d || ((k = .semNotifyWrite || k = .semState) && x.status = .ok)
    ∃ t, exec c s = .next t ∧ t.semq = (semRefill { s with semq := s.semq.erase o }).semq ∧ t.semServed = some s.time ∧ t.banks = s.banks ∧ t.tallies = s.tallies ∧
      SameCellsOutside s t (cellKey 66 o.n 0 0) (cellKey 66 o.n 0 0 + 35) ∧
      (d.outcome = .uncorrectable ∨ stores = false → t.cells = s.cells) ∧
      (d.outcome ≠ .uncorrectable → stores = true → readCw t 66 o.n 0 = encodeCw (BitVec.ofNat 256 (x.word + x.binding <<< 64)))

/-- For every word below 2^64 and binding: with HELD = 0 the word gets HELD, the requester's owner fields and HOLDS + 1 (saturating, as
the table of R81 has it), NEXT_TICKET and NOW_SERVING stay, and the prior word is returned; with HELD = 1 word and binding stay and
the word is returned, also to the owner. (R83) -/
def Obligations.TryTakesAFreeSemaphore : Prop :=
  ∀ (s : State) (o : StoreOp) (w b : Nat), o.kind = .semTry → w < 2 ^ 64 →
    (semHeld w = false →
      let x := semEffect s o w b
      semHeld x.word = true ∧ ((match o.who with | .port p sl => p < 8 ∧ sl < 4 | .engine e _ => e < 16 | .sc => True | _ => False) → ownsSem x.word o.who = true) ∧
      x.word % 0x10000 = min 0xFFFF (w % 0x10000 + 1) ∧ bitsOf x.word 47 16 = bitsOf w 47 16 ∧ x.binding = b ∧ x.data = w ∧ x.status = .ok) ∧
    (semHeld w = true → semEffect s o w b = semNothing w b w .ok)

/-- For every word below 2^64 with HELD = 1: RELEASE by the owner, or forced by a requester that was privileged when the operation was
decoded, clears HELD alone and rings the bound mailbox when ENABLE is set, with the number in [15:0] and FORCED in bit 16; another
requester's is DENIED and changes nothing. (R84, R87) -/
def Obligations.ReleaseClearsHeldForTheRightRequester : Prop :=
  ∀ (s : State) (o : StoreOp) (w b : Nat), o.kind = .semRelease → o.effect = true → w < 2 ^ 64 → semHeld w = true →
    (ownsSem w o.who = true ∨ mayForce o = true →
      let x := semEffect s o w b
      x.word = w - 2 ^ 63 ∧ x.binding = b ∧ x.status = .ok ∧ x.freed = true ∧ x.forced = !ownsSem w o.who ∧
      x.rings = (if bitOf b 63 then some (o.n + (if ownsSem w o.who then 0 else 0x10000)) else none)) ∧
    (ownsSem w o.who = false → mayForce o = false → semEffect s o w b = semNothing w b 0 .denied)

/-- For every word below 2^64, binding and requester: TICKET returns the prior word and adds 1 to NEXT_TICKET modulo 2^16, SERVE adds 1
to NOW_SERVING modulo 2^16; HELD, the owner fields and all else of word and binding stay. TRY and RELEASE leave NEXT_TICKET and
NOW_SERVING as they are. (R85) -/
def Obligations.TicketAndServeStepTheWord : Prop :=
  ∀ (s : State) (o : StoreOp) (w b : Nat), w < 2 ^ 64 →
    let x := semEffect s o w b
    (o.kind = .semTicket → o.effect = true → x.data = w ∧ bitsOf x.word 47 32 = (bitsOf w 47 32 + 1) % 2 ^ 16 ∧ x.word % 2 ^ 32 = w % 2 ^ 32 ∧
      x.word / 2 ^ 48 = w / 2 ^ 48 ∧ x.binding = b ∧ x.status = .ok) ∧
    (o.kind = .semServe → o.effect = true → bitsOf x.word 31 16 = (bitsOf w 31 16 + 1) % 2 ^ 16 ∧ x.word % 2 ^ 16 = w % 2 ^ 16 ∧
      x.word / 2 ^ 32 = w / 2 ^ 32 ∧ x.binding = b ∧ x.status = .ok) ∧
    (o.kind = .semTry ∨ o.kind = .semRelease → bitsOf x.word 47 16 = bitsOf w 47 16)

/-- With no operation presented and a clear running: SEM_CLEAR_STEP makes the next semaphore's codeword that of zero data; the fourth
MBX_CLEAR_STEP of a mailbox leaves every codeword of it at its cleared contents and OPEN 0; each uses the store's cycle and leaves
every other byte. MAILBOX_COMMIT: the oldest served operation leaves the list, its requester's wait ends and its event is produced.
(R93, R18, R127, R128, R132) -/
def Obligations.StoresClearAndCommitStepByStep : Prop :=
  (∀ s : State, coreOn s = true → s.semServed ≠ some s.time → s.semq = [] → rdB s R_SEM_CLEAR SEM_CLEAR_BUSY = true → pairBlocked s (storePort s) = false →
    unitUndefined s 66 = false →
    ∃ t, exec .semClearStep s = .next t ∧ readCw t 66 s.semClearAt 0 = encodeCw 0 ∧ t.semClearAt = s.semClearAt + 1 ∧ t.semServed = some s.time ∧
      rdB t R_SEM_CLEAR SEM_CLEAR_BUSY = decide (s.semClearAt + 1 < semClearEnd s) ∧ t.banks = s.banks ∧ t.mbxq = s.mbxq ∧
      SameCellsOutside s t (cellKey 66 s.semClearAt 0 0) (cellKey 66 s.semClearAt 0 0 + 35)) ∧
  ((∀ (s : State) (c : MbxCommit) (cs : List MbxCommit), s.commits = c :: cs → c.servedAt + 4 ≤ s.time →
    exec .mailboxCommit s = .next (commitEffect { s with commits := cs } c)) ∧
  (∀ s : State, coreOn s = true → s.mbxServed ≠ some s.time → mbxIdle s = true → rdB s R_MBX_CLEAR MBX_CLEAR_BUSY = true →
    pairBlocked s (storePort s) = false → unitUndefined s 67 = false →
    let n := (s.mbxClearAt + 1) / 4 - 1
    ∃ t, exec .mbxClearStep s = .next t ∧ t.mbxServed = some s.time ∧ t.mbxClearAt = s.mbxClearAt + 1 ∧ t.banks = s.banks ∧
      ((s.mbxClearAt + 1) % 4 ≠ 0 → t.cells = s.cells) ∧
      ((s.mbxClearAt + 1) % 4 = 0 → SameCellsOutside s t (cellKey 67 (7 * n) 0 0) (cellKey 67 (7 * n + 7) 0 0) ∧
        (∀ x ∈ mbxCleared, readCw t 67 (7 * n + x.1) 0 = encodeCw (cwOfBytes x.2)) ∧ (n < 4096 → mbxOpen t n = false))))

/-- The operation that the store serves next, of the row's kind, in a cycle not used yet: the cycle is used; when the status is OK each
codeword that the operation stores is that data encoded anew, else no byte changes; every byte of another unit or mailbox and every
bank is as before. A doorbell stores its value, STATUS with EVENTS one more up to 65,535, OVERRUN set if an event stood and the
writer fields naming the requester, SEQ one more, and BINDING as it was. (R120, R121, R123, R125, R126, R128) -/
def Obligations.MailboxOperationsTakeEffect : Prop :=
  (∀ (c : Instr) (k : StoreKind), (c, k) ∈ mbxRows → ∀ (s : State) (o : StoreOp),
    coreOn s = true → s.mbxServed ≠ some s.time → mbxFront s = some o → o.kind = k → unitUndefined s 67 = false →
    ∃ t, exec c s = .next t ∧ t.mbxServed = some s.time ∧ t.banks = s.banks ∧ t.semq = s.semq ∧
      SameCellsOutside s t (cellKey 67 (7 * o.n) 0 0) (cellKey 67 (7 * o.n + 7) 0 0) ∧
      (mbxStatus s o ≠ .ok → t.cells = s.cells) ∧
      (mbxStatus s o = .ok → ∀ x ∈ mbxStores s o, readCw t 67 (7 * o.n + x.1) 0 = encodeCw (cwOfBytes x.2)) ∧
      t.commits = s.commits ++ (if mbxStatus s o = .ok && (o.code != 1 || k = .mbxClaim) then
        [{ servedAt := s.time, who := o.who, write := o.code != 1, uid := o.uid,
           ringEvent := if k = .mbxDoorbell then some (o.n, o.value, mbxWord (mbxDecode s o.n 6) 2) else none,
           unitNum := if mbxChanges s o && pairForwards s then some s.nextUid else none }] else [])) ∧
  ((∀ (st : Nat) (w : Who), whoId w < 32 → whoSlot w < 4 →
    stEvents (doorbellStatus st w) = min 0xFFFF (stEvents st + 1) ∧ stOverrun (doorbellStatus st w) = (stOverrun st || stEvents st != 0) ∧
    bitsOf (doorbellStatus st w) 36 32 = whoId w ∧ bitsOf (doorbellStatus st w) 38 37 = whoSlot w) ∧
  (∀ (s : State) (o : StoreOp), o.kind = .mbxDoorbell →
    let d := mbxDecode s o.n 6
    mbxStores s o = [(6, leBytes 8 o.value ++ leBytes 8 (doorbellStatus (mbxWord d 1) o.writer) ++ leBytes 8 (mbxWord d 2) ++ leBytes 8 (mbxWord d 3 + 1))]))

/-- MAILBOX_CLAIM when the store serves it: the data it answers is the STATUS word; EVENTS and OVERRUN of the stored STATUS are 0 and
its writer fields as before; DOORBELL, BINDING and SEQ are stored as they stood, no other codeword is stored, and no event reaches
the interrupt controller. (R125) -/
def Obligations.ClaimClearsEventsAndOverrun : Prop :=
  ∀ (s : State) (o : StoreOp), coreOn s = true → s.mbxServed ≠ some s.time → mbxFront s = some o → o.kind = .mbxClaim → o.off = 0xC8 →
    let d := mbxDecode s o.n 6
    let st := mbxWord d 1
    (∃ t, exec .mailboxClaim s = .next t ∧ t.intcEvents = s.intcEvents) ∧
    mbxData s o = leBytes 8 st ∧
    mbxStores s o = [(6, leBytes 8 (mbxWord d 0) ++ leBytes 8 (claimedStatus st) ++ leBytes 8 (mbxWord d 2) ++ leBytes 8 (mbxWord d 3))] ∧
    stEvents (claimedStatus st) = 0 ∧ stOverrun (claimedStatus st) = false ∧
    bitsOf (claimedStatus st) 36 32 = bitsOf st 36 32 ∧ bitsOf (claimedStatus st) 38 37 = bitsOf st 38 37

/-- For all 2^256 data words: the encoded codeword decodes clean to itself; with any one of its 275 stored bits inverted it decodes
corrected to the codeword as encoded, naming that position; a poisoned codeword decodes poisoned, with its data bits as they stand.
(R218, R219, R222) -/
def Obligations.TheCodeCorrectsEveryOneBitError : Prop :=
  ∀ d : BitVec 256,
    ((decodeCw (encodeCw d)).outcome = .clean ∧ (decodeCw (encodeCw d)).cw = encodeCw d) ∧
    (∀ p, p ≤ 274 → let x := decodeCw (flipPos (encodeCw d) p); x.outcome = .corrected ∧ x.cw = encodeCw d ∧ x.pos = [p]) ∧
    ((decodeCw (poisonCw d)).outcome = .poisoned ∧ (decodeCw (poisonCw d)).cw.data = d)

/-- For every command but the 31 rows that may store (bank and store service, scrub, repair and resynchronisation copies in their slots,
the end of a test, received pair units, start, and resets that lose or restore memory): whatever it does from any state, every byte
of every codeword is as before. (R44, R80, R120, R217) -/
def Obligations.CommandsThatStoreNothing : Prop :=
  ∀ (c : Instr) (s t : State), mayStore c = false → exec c s = .next t → t.cells = s.cells

/-- For each of the 57 register rows by a port, in either view: the command has exactly the effect of the WRITE request unit of 8 bytes,
all enabled, at the register's address with the row's value, its action bit set. TGT_CLAIM by a port is the READ request unit of 8
bytes there. (R30, R31, R36) -/
def Obligations.PortRegisterRowsAreWriteUnits : Prop :=
  (∀ (c : Instr) (s : State) (h : ReqHdr) (u : Bool) (key : Nat) (v : Word64), regRow c = some (.port h u, key, v) →
    exec c s = exec (.writeReq h (BitVec.ofNat 32 (viewBase u + key)) 8 (BitVec.allOnes 64) (leBytes 8 v.toNat)) s) ∧
  (∀ (s : State) (h : ReqHdr) (u : Bool) (x : BitVec 6),
    exec (.tgtClaim (.port h u) x) s = exec (.readReq h (BitVec.ofNat 32 (viewBase u + R_TGT_CLAIM x.toNat)) 8) s)

/-- For each of the 57 register rows by the SC, when the SC runs, the register is present and open to it, HOLD does not stop the write,
the interrupt controller, where it is one of its registers, takes it now, and no pair unit number is wanted in vain: the row
completes, and a write the register accepts has the register's effect in this one step, is traced, and mirrored state it changed is
sent on. MG_CHAINADDR, MG_GRANT, MG_PORTEN and MG_CONSOLE the SC writes only for a command of a keeper-level session: REGISTER_WRITE
by the SC changes nothing there. (R31, R38, R332, R399) -/
def Obligations.ScRegisterRowsTakeEffect : Prop :=
  (∀ (s : State) (key : BitVec 23) (v : Word64), scOnlyKey key.toNat = true → exec (.registerWrite .sc key v) s = .next s) ∧
  ∀ (c : Instr) (s : State) (key : Nat) (v : Word64), regRow c = some (.sc, key, v) → scOnlyKey key = false → ScMayWrite s key v → (regWrite (scPrepared s key v) key v).status = .ok →
    exec c s = .next (scSettled s.nextUid key v (regWrite (scPrepared s key v) key v))

/-- What a write of a register with a rule of its own does to the state, block by block, for every state and value: what it refuses, with
its status and code, and what it changes. Stores and arbitration settings, vats (VALID, REARM), queues and engines (ENABLE, STOP,
OFFLINE, RESET), match contexts, sources and targets (PENDING, SET_PEND, ASLEEP), injection, logs and remaps, tests, retirement and
self-tests, lanes (RETRAIN, UNSPARE, SPARE_NOW, LOOP, MIN_CLEAR), the pair (PROMOTE, JOIN, LEAVE), regions, DEV_STATE and resets,
and observation (PC_CFG, FREEZE, CLEAR_ALL, sampler, trace, cellar). Which queue bits come first, and an ABSENT before BUSY, are the
model's choices (log entries 77, 78). (R55, R118, R141, R169, R194, R199, R239, R252, R288, R340, R351, R406) -/
def Obligations.RegisterWritesHaveTheirEffect : Prop :=
  ∀ (s : State) (v : Word64), StoreWrites s v ∧ VatWrites s v ∧ EngineWrites s v ∧ MatchWrites s v ∧ InterruptWrites s v ∧ IntegrityWrites s v ∧
    TestWrites s v ∧ LaneWrites s v ∧ PairWrites s v ∧ PowerWrites s v ∧ ObservationWrites s v

/-- The STAT_CLEAR rows, by the SC. Of blocks 0x0A, 0x10, 0x11, 0x12, 0x14, 0x15, 0x19 and 0x2A with no other bit set: each completes,
every counter the row names reads 0 after it. PT_STAT_CLEAR with a legal REPLAY_NS: the port's counters read 0, PEAK the tags
outstanding now. VAT_STAT_CLEAR that leaves the vat's other fields as they are: OVF, LOSS, MISMATCH and NONFINITE read 0, TALLY,
EXPECTED, EARLY and COMPLETIONS are as before. Stored bytes, banks, requests and store queues are as before. (R70, R92, R116, R131,
R193, R240, R261, R289, R323, R400) -/
def Obligations.StatClearRowsClearTheirCounters : Prop :=
  (∀ (c : Instr) (s : State) (keys : List Nat), (c, keys) ∈ statClearRows s.variant → ∀ (key : Nat) (v : Word64), regRow c = some (.sc, key, v) → ScMayWrite s key v →
    ∃ t, exec c s = .next t ∧ (∀ k ∈ keys, rd t k = 0) ∧ t.cells = s.cells ∧ t.banks = s.banks ∧ t.txns = s.txns ∧ t.semq = s.semq ∧ t.mbxq = s.mbxq ∧
      t.links = s.links ∧ t.queues = s.queues) ∧
  (∀ (s : State) (port : BitVec 3) (v : Word64),
    let p := port.toNat
    ScMayWrite s (R_PT_CTL p) (withAction v PT_CTL_STAT_CLEAR) → 100 ≤ getF v PT_CTL_REPLAY_NS →
    ∃ t, exec (.ptStatClear .sc port v) s = .next t ∧ (∀ k ∈ [R_PT_FLITS p, R_PT_REPLAY p, R_PT_REQS p, R_PT_ERR p, R_PT_LOST p], rd t k = 0) ∧
      rdF t (R_PT_TAGS p) PT_TAGS_PEAK = (tagsOf s p).length % 2 ^ PT_TAGS_PEAK.width ∧ t.cells = s.cells ∧ t.banks = s.banks ∧ t.txns = s.txns ∧
      t.semq = s.semq ∧ t.mbxq = s.mbxq ∧ t.links = s.links ∧ t.queues = s.queues) ∧
  (∀ (s : State) (vat : BitVec 10) (v : Word64),
    let n := vat.toNat
    ScMayWrite s (R_VAT_CTL n) (withAction v VAT_CTL_STAT_CLEAR) → hasF v VAT_CTL_REARM = false → (getF v VAT_CTL_FMT = 8 → bigVariant s.variant = true) →
    (∀ f ∈ [VAT_CTL_VALID, VAT_CTL_AUTO_REARM, VAT_CTL_FMT, VAT_CTL_OP, VAT_CTL_SCALE], getF v f = rdF s (R_VAT_CTL n) f) →
    ∃ t, exec (.vatStatClear .sc vat v) s = .next t ∧ rdB t (R_VAT_FLAGS n) VAT_FLAGS_OVF = false ∧ rd t (R_VAT_LOSS n) = 0 ∧
      rdF t (R_VAT_EVENTS n) VAT_EVENTS_NONFINITE = 0 ∧ rd t (R_VAT_COUNT n) = rd s (R_VAT_COUNT n) ∧
      rdF t (R_VAT_FLAGS n) VAT_FLAGS_EARLY = rdF s (R_VAT_FLAGS n) VAT_FLAGS_EARLY ∧
      rdF t (R_VAT_EVENTS n) VAT_EVENTS_COMPLETIONS = rdF s (R_VAT_EVENTS n) VAT_EVENTS_COMPLETIONS ∧
      vatValid t n = vatValid s n ∧ t.cells = s.cells ∧ t.banks = s.banks ∧ t.txns = s.txns ∧ t.semq = s.semq ∧ t.mbxq = s.mbxq)

/-- Decode of any request of an unprivileged port into the privileged view: ABSENT when it touches an absent register or an undefined
offset; else RANGE for an atomic operation or an ACC (which privilege denies nowhere) and DENIED for any other. A READ row of 8
aligned bytes there, RELAXED with nothing held, is so answered in the same step. A privileged port's aligned READ or whole WRITE of
a present register is refused by neither (the SC's own registers and mirrored state of a passive device apart). (R35, R76, R101) -/
def Obligations.UnprivilegedPortIsRefused : Prop :=
  (∀ (s : State) (r : Req) (p sl : Nat), r.who = .port p sl → portPrivileged s p = false → 0xFF800000 ≤ r.addr → 1 ≤ r.len →
    decodeReg s r = some (if (touchedWords r).all (fun a => decide (a < 2 ^ 32) && regPresent s.variant (keyOf a)) then
      (if neverDenied r.op then .range else .denied) else .absent)) ∧
  (∀ (s : State) (h : ReqHdr) (addr : BitVec 32), UnitAccepted s h 0x01 8 0 0 → h.ord = false → s.heldOrd = [] → portPrivileged s h.port.toNat = false →
    0xFF800000 ≤ addr.toNat → addr.toNat % 8 = 0 →
    ∃ t x, exec (.readReq h addr 8) s = .next t ∧ x ∈ t.txns ∧ x.uid = s.nextUid ∧ x.req.tag = h.tag.toNat ∧ x.due = some s.time ∧
      x.status = (if regPresent s.variant (keyOf addr.toNat) then .denied else .absent) ∧ t.cells = s.cells) ∧
  (∀ (s : State) (r : Req) (p sl : Nat), r.who = .port p sl → portPrivileged s p = true → 0xFF800000 ≤ r.addr → r.addr < 2 ^ 32 → r.len = 8 → r.addr % 8 = 0 →
    regPresent s.variant (keyOf r.addr) = true →
    (r.op = .read ∨ (r.op = .write ∧ allEnabled r = true ∧ scOnlyKey (keyOf r.addr) = false ∧ (pairRefuses s && mirroredKey (keyOf r.addr)) = false)) →
    decodeReg s r = none)

/-- For every triple-kept word that a register shows whole, in every state: it reads as the bitwise majority; any one bad copy is
outvoted; the vote of a read leaves three equal copies of the majority, and when the copies disagreed sets INT_STAT.TK_DISAGREE and
LAST and counts DISAGREE; a write sets all three copies. (R236) -/
def Obligations.TripleKeptWordsAreVoted : Prop :=
  ∀ (s : State) (key n : Nat), tkIndex key = some n → n < 16 →
    rd s key = majority (tkCopies s key n) ∧
    (∀ w x : Word64, majority (w, w, x) = w ∧ majority (w, x, w) = w ∧ majority (x, w, w) = w) ∧
    (let t := voteTk s key
     let m := majority (tkCopies s key n)
     tkCopies t key n = (m, m, m) ∧ rd t key = rd s key ∧
     (tkCopies s key n ≠ (m, m, m) → rdB t R_INT_STAT INT_STAT_TK_DISAGREE = true ∧ rdF t R_INT_TK_STAT INT_TK_STAT_LAST = n ∧
       (counting s 0x11 = true → rdF t R_INT_TK_STAT INT_TK_STAT_DISAGREE =
         min (rdF s R_INT_TK_STAT INT_TK_STAT_DISAGREE + 1) (2 ^ INT_TK_STAT_DISAGREE.width - 1)))) ∧
    (∀ w, tkCopies (wr s key w) key n = (w, w, w))

/-- Applying the events that have reached the controller, in every state and for every source: COUNT rises by the number of its events
and stays at 255, COUNT_OVF is set when an event came at 255, an event pends a source that is not ACTIVE, and ACTIVE, ENABLE,
PRIORITY and TARGET are as before, whatever they say. No event is left. INTC_CYCLE completes in every state with the core on its
PLL, in which the controller has not closed its cycle and no access waits at it: when it has taken nothing in the cycle it leaves
the sources as the applied events do; else they are as before, and the events wait for its next cycle (log entry 19). (R198, R206) -/
def Obligations.EventsCountAndPend : Prop :=
  (∀ s : State, ∃ t, applyEvents s = t ∧ t.intcEvents = [] ∧
      ∀ n, n < 4132 →
        rdF t (R_SRC_ENTRY n) SRC_ENTRY_COUNT = min 255 (rdF s (R_SRC_ENTRY n) SRC_ENTRY_COUNT + s.intcEvents.count n) ∧
        rdB t (R_SRC_ENTRY n) SRC_ENTRY_COUNT_OVF =
          (rdB s (R_SRC_ENTRY n) SRC_ENTRY_COUNT_OVF || decide (255 < rdF s (R_SRC_ENTRY n) SRC_ENTRY_COUNT + s.intcEvents.count n)) ∧
        (n ∈ s.intcEvents → rdB s (R_SRC_ENTRY n) SRC_ENTRY_ACTIVE = false → rdB t (R_SRC_ENTRY n) SRC_ENTRY_PENDING = true) ∧
        (rdB s (R_SRC_ENTRY n) SRC_ENTRY_PENDING = true → rdB t (R_SRC_ENTRY n) SRC_ENTRY_PENDING = true) ∧
        ∀ f ∈ [SRC_ENTRY_ACTIVE, SRC_ENTRY_ENABLE, SRC_ENTRY_PRIORITY, SRC_ENTRY_TARGET, SRC_ENTRY_TRIGGER],
          rdF t (R_SRC_ENTRY n) f = rdF s (R_SRC_ENTRY n) f) ∧
  (∀ s : State, coreOn s = true → (intcTurnNow s).wasRead = false → s.intcWait = [] →
    ∃ t, exec .intcCycle s = .next t ∧
      (turnBegun s = false → t.intcEvents = [] ∧ ∀ n, n < 4132 → rd t (R_SRC_ENTRY n) = rd (applyEvents s) (R_SRC_ENTRY n)) ∧
      (turnBegun s = true → t.intcEvents = s.intcEvents ∧ ∀ n, n < 4132 → rd t (R_SRC_ENTRY n) = rd s (R_SRC_ENTRY n)))

/-- INTC_CYCLE with the core on its PLL, when the controller has not closed its cycle and no access waits at it: for each present pin
target T32 to T35 the pin is asserted after it if and only if the target delivers and has a candidate; stored bytes, banks, requests
and queues of engines are as before. (R202, R205, R206) -/
def Obligations.IntcCycleSettlesThePins : Prop :=
  ∀ s : State, coreOn s = true → (intcTurnNow s).wasRead = false → s.intcWait = [] →
    ∃ t, exec .intcCycle s = .next t ∧ t.cells = s.cells ∧ t.banks = s.banks ∧ t.txns = s.txns ∧ t.queues = s.queues ∧
      ∀ x, 32 ≤ x → targetPresent s.variant x = true → sget false t.pins (x - 32) = (delivers t x && (bestSource t x).isSome)

/-- For every state, every target below 36 and source: the best source is a candidate, no candidate has a higher PRIORITY, none of equal
PRIORITY a lower number, and there is none exactly when no source is a candidate. A candidate is pending, enabled, not ACTIVE, of a
PRIORITY above 0, the THRESHOLD and the top of the stack. (R201) -/
def Obligations.BestSourceIsHighestThenLowest : Prop :=
  ∀ (s : State) (x : Nat), x < 36 →
    (∀ n, n < 4132 → (candidate s x n = true ↔ srcTarget s n = x ∧ srcB s n SRC_ENTRY_PENDING = true ∧ srcB s n SRC_ENTRY_ACTIVE = false ∧
      srcB s n SRC_ENTRY_ENABLE = true ∧ srcF s n SRC_ENTRY_PRIORITY ≠ 0 ∧ rdF s (R_TGT_CTL x) TGT_CTL_THRESHOLD < srcF s n SRC_ENTRY_PRIORITY ∧
      stackTop s x < srcF s n SRC_ENTRY_PRIORITY)) ∧
    (∀ b, bestSource s x = some b → candidate s x b = true ∧ ∀ n, n < 4132 → candidate s x n = true →
      srcF s n SRC_ENTRY_PRIORITY < srcF s b SRC_ENTRY_PRIORITY ∨ (srcF s n SRC_ENTRY_PRIORITY = srcF s b SRC_ENTRY_PRIORITY ∧ b ≤ n)) ∧
    (bestSource s x = none → ∀ n, n < 4132 → candidate s x n = false)

/-- TGT_CLAIM by the SC on a present target that the interrupt controller takes now, the cycle's events applied first. With a best source n and
fewer than 15 on the stack: PENDING 0, ACTIVE 1 and COUNT 0 of n, n and its PRIORITY on top of the stack, OUT none. Without one:
EMPTY_CLAIMS rises by 1, and sources, stack and OUT are as the applied events left them. (R208) -/
def Obligations.ClaimTakesTheBestSource : Prop :=
  ∀ (s : State) (x : BitVec 6), scRuns s = true → targetPresent s.variant x.toNat = true → IntcFree s x.toNat →
    let a := turnEvents s
    let d := rdF a (R_TGT_STACK x.toNat) TGT_STACK_DEPTH
    (∀ n, n < 4132 → d < 15 → bestSource a x.toNat = some n →
      ∃ t, exec (.tgtClaim .sc x) s = .next t ∧ rdB t (R_SRC_ENTRY n) SRC_ENTRY_PENDING = false ∧ rdB t (R_SRC_ENTRY n) SRC_ENTRY_ACTIVE = true ∧
        rdF t (R_SRC_ENTRY n) SRC_ENTRY_COUNT = 0 ∧ rd t (R_TGT_OUT x.toNat) = 0 ∧ rdF t (R_TGT_STACK x.toNat) TGT_STACK_DEPTH = d + 1 ∧
        rdF t (R_TGT_STACK x.toNat) TGT_STACK_TOP_SOURCE = n ∧ stackTop t x.toNat = srcF a n SRC_ENTRY_PRIORITY ∧ t.cells = s.cells ∧
        ∀ m, m < 4132 → m ≠ n → rd t (R_SRC_ENTRY m) = rd a (R_SRC_ENTRY m)) ∧
    (bestSource a x.toNat = none →
      ∃ t, exec (.tgtClaim .sc x) s = .next t ∧ t.cells = s.cells ∧
        rdF t (R_TGT_ERR x.toNat) TGT_ERR_EMPTY_CLAIMS = min (rdF a (R_TGT_ERR x.toNat) TGT_ERR_EMPTY_CLAIMS + 1) (2 ^ TGT_ERR_EMPTY_CLAIMS.width - 1) ∧
        (∀ m, m < 4132 → rd t (R_SRC_ENTRY m) = rd a (R_SRC_ENTRY m)) ∧ rd t (R_TGT_STACK x.toNat) = rd a (R_TGT_STACK x.toNat) ∧
        rd t (R_TGT_OUT x.toNat) = rd a (R_TGT_OUT x.toNat))

/-- An EOI of a source that the variant lacks is ABSENT and changes nothing (the model's reading of R4, log entry 35, DEDUCED; R210 alone
would have RANGE). One of a present source: when the named source is on top of the target's stack it is accepted, ACTIVE falls,
PENDING is set when COUNT is not 0 or a level source's input is high, and the stack is one less deep; otherwise it is refused with
RANGE, BADEOI rises by 1 and sources and stack are as before. MESSAGE_SEND, 12 cycles after the message was decided: the port's oldest message leaves the list, its unit
enters the message channel of the port and is what leaves the device; no other message and no stored byte changes. (R210, R206,
R207) -/
def Obligations.EoiPopsAndMessagesLeave : Prop :=
  (∀ (s : State) (x n : Nat), x < 36 → n < 4132 →
    let d := rdF s (R_TGT_STACK x) TGT_STACK_DEPTH
    let w := eoiTarget s x n
    (sourcePresent s.variant n = false → w.status = .absent ∧ w.state = s) ∧
    (sourcePresent s.variant n = true → d ≠ 0 ∧ rdF s (R_TGT_STACK x) TGT_STACK_TOP_SOURCE = n →
      w.status = .ok ∧ rdB w.state (R_SRC_ENTRY n) SRC_ENTRY_ACTIVE = false ∧ rdF w.state (R_TGT_STACK x) TGT_STACK_DEPTH = d - 1 ∧
      (rdF s (R_SRC_ENTRY n) SRC_ENTRY_COUNT ≠ 0 ∨ (rdB s (R_SRC_ENTRY n) SRC_ENTRY_TRIGGER = true ∧ rawLevel s n = true) →
        rdB w.state (R_SRC_ENTRY n) SRC_ENTRY_PENDING = true) ∧
      ∀ m, m < 4132 → m ≠ n → rd w.state (R_SRC_ENTRY m) = rd s (R_SRC_ENTRY m)) ∧
    (sourcePresent s.variant n = true → d = 0 ∨ rdF s (R_TGT_STACK x) TGT_STACK_TOP_SOURCE ≠ n →
      w.status = .range ∧ rdF w.state (R_TGT_ERR x) TGT_ERR_BADEOI = min (rdF s (R_TGT_ERR x) TGT_ERR_BADEOI + 1) (2 ^ TGT_ERR_BADEOI.width - 1) ∧
      (∀ m, m < 4132 → rd w.state (R_SRC_ENTRY m) = rd s (R_SRC_ENTRY m)) ∧ rd w.state (R_TGT_STACK x) = rd s (R_TGT_STACK x))) ∧
  (∀ (s : State) (port : BitVec 3) (m : IntcMsg), coreOn s = true → s.msgs.find? (fun m => m.port = port.toNat) = some m → m.decidedAt + 12 ≤ s.time →
    ∃ t, exec (.messageSend port) s = .next t ∧ t.msgs = s.msgs.erase m ∧ t.out = .message port.toNat (messageBytes m) :: s.out ∧
      (linkOf t port.toNat).tx = (linkOf s port.toNat).tx ++ [(2, messageBytes m)] ∧ (∀ p, p ≠ port.toNat → linkOf t p = linkOf s p) ∧
      t.cells = s.cells ∧ t.regs = s.regs)

/-- For every present queue not DISABLED of an engine not frozen, and every value v: the new TAIL is v[31:0] when v[63:56] = 0xE7, else TAIL + STEP; accepted
when (new TAIL − HEAD) mod 2^32 is at most the ring size, TAIL takes it; else TAIL stays, BADTAIL counts and the engine's BADTAIL
bit is set. A write of Q_TAIL is the start event with 0xE7 and the value, and answers RANGE when rejected. The rows of Q_CTL by the
SC with no other bit set, on an engine online: RESUME_SKIP in FAULT takes HEAD past the descriptor, or lets a resynchronisation that
stopped there go on (log entry 71), and sets LAST to failed, RESUME_RETRY in FAULT sets LAST and keeps HEAD, GO in STOPPED keeps
both; the queue is then IDLE when HEAD = TAIL, else RUNNING, and DISABLED after a RESUME with ENABLE 0. In any other state queues,
HEAD and state are as before. (R137, R168, R169) -/
def Obligations.QueuesObeyTailAndControl : Prop :=
  (∀ (s : State) (e q v : Nat), e < 16 → q < 4 → qState s e q ≠ QS_DISABLED → engFrozen s e = false →
    let new := if bitsOf v 63 56 = 0xE7 then v % 2 ^ 32 else (qTail s e q + rdF s (R_Q_CFG e q) Q_CFG_STEP) % 2 ^ 32
    let t := startEvent s e q v
    ((new + 2 ^ 32 - qHead s e q) % 2 ^ 32 ≤ ringSize s e q → qTail t e q = new) ∧
    (ringSize s e q < (new + 2 ^ 32 - qHead s e q) % 2 ^ 32 → qTail t e q = qTail s e q ∧
      rdF t (R_Q_STARTS e q) Q_STARTS_BADTAIL = min (rdF s (R_Q_STARTS e q) Q_STARTS_BADTAIL + 1) (2 ^ Q_STARTS_BADTAIL.width - 1) ∧
      bitOf (rdF t (R_ENG_STAT e) ENG_STAT_BADTAIL) q = true) ∧
    (∀ w : Word64, let z := 0xE7 * 2 ^ 56 + w.toNat % 2 ^ 32
      (wrQTail s e q w).state = startEvent s e q z ∧
      (wrQTail s e q w).status = (if (w.toNat % 2 ^ 32 + 2 ^ 32 - qHead s e q) % 2 ^ 32 ≤ ringSize s e q then .ok else .range))) ∧
  (∀ (s : State) (e : BitVec 4) (q : BitVec 2) (c : Instr) (st last : Nat) (skip : Bool),
    (c, st, last, skip) ∈ ([(.resumeSkip .sc e q 0, QS_FAULT, 1, true), (.resumeRetry .sc e q 0, QS_FAULT, 1, false),
      (.goQueue .sc e q 0, QS_STOPPED, rdF s (R_Q_STATE e.toNat q.toNat) Q_STATE_LAST, false)] : List (Instr × Nat × Nat × Bool)) →
    ∀ key v, regRow c = some (.sc, key, v) → ScMayWrite s key v → engState s e.toNat = 0 →
    ∃ t, exec c s = .next t ∧ t.queues = s.queues ∧ t.cells = s.cells ∧ qTail t e.toNat q.toNat = qTail s e.toNat q.toNat ∧
      (qState s e.toNat q.toNat = st →
        qHead t e.toNat q.toNat = (if skip && !syncFaulted s e.toNat q.toNat then (qHead s e.toNat q.toNat + 1) % 2 ^ 32 else qHead s e.toNat q.toNat) ∧
        (st = QS_FAULT → syncFaulted t e.toNat q.toNat = false) ∧
        rdF t (R_Q_STATE e.toNat q.toNat) Q_STATE_LAST = last ∧
        qState t e.toNat q.toNat = (if st = QS_FAULT && !rdB s (R_Q_CFG e.toNat q.toNat) Q_CFG_ENABLE then QS_DISABLED
          else if qTail t e.toNat q.toNat = qHead t e.toNat q.toNat then QS_IDLE else QS_RUNNING)) ∧
      (qState s e.toNat q.toNat ≠ st → qHead t e.toNat q.toNat = qHead s e.toNat q.toNat ∧
        rd t (R_Q_STATE e.toNat q.toNat) = rd s (R_Q_STATE e.toNat q.toNat)))

/-- The next fetched descriptor, free to begin, of the row's opcode and subop: the row completes, and the descriptor leaves the fetched
list and joins the descriptors in progress; no stored byte changes. COND 3 ends it with BADDESC, a COND that does not hold skips it,
else the row's checks before any access decide whether it runs. (R143, R144, R147, R150, R165) -/
def Obligations.DescriptorsBegin : Prop :=
  ∀ (e : BitVec 4) (q : BitVec 2) (c : Instr) (want : List Byte → Bool) (start : State → Run → Run), (c, want, start) ∈ descRows e q →
    ∀ (s : State) (i : Nat) (ce : Bool) (d : List Byte), DescBegins s e.toNat q.toNat i ce d → want d = true →
    let run := begunRun s e.toNat q.toNat i ce d start
    ∃ t, exec c s = .next t ∧ t = descBegun s e.toNat q.toNat run ∧ t.cells = s.cells ∧ t.banks = s.banks ∧
      (queueOf t e.toNat q.toNat).runs = (queueOf (prepareQueue s e.toNat q.toNat) e.toNat q.toNat).runs ++ [run] ∧
      (queueOf t e.toNat q.toNat).fetched = (queueOf (prepareQueue s e.toNat q.toNat) e.toNat q.toNat).fetched.drop 1

/-- What the checks before any access make of a new descriptor, opcode by opcode. NOP and FENCE with LEN 0 end OK, with another LEN with
RANGE; an undefined opcode ends with BADDESC. A LEN above 16 MiB ends COPY, FILL, CRC32C and COMPARE with RANGE, as do two meeting
ranges a COPY; a CRC32C that stores at a misaligned B ends with MISALIGN and that B. GATHER and SCATTER run with SUBOP 0 or 1, ESIZE
1 to 4,096 and a LEN of whole elements up to 16 MiB, and end with RANGE otherwise. ACCUM: an undefined OPFMT or a LEN that is no
multiple of the element or above 16 MiB ends with RANGE, a misaligned B with MISALIGN; that a LEN of 0 ends OK before either is the
model's reading (log entry 32, DEDUCED). SEMA with LEN or a SUBOP above 5, POST above 192 bytes, PUSH of 0 or above 4,096 bytes and
WAIT with LEN, a SUBOP above 3 or no such vat end with RANGE; POST to an absent mailbox with ABSENT. MATCH: ABSENT on a variant
without matching, then RANGE, DENIED and MISALIGN (that order is the model's choice, log entry 80). Whatever passes its checks
runs. (R150, R152, R153, R154, R156, R157, R158, R159, R160, R164, R165, R186) -/
def Obligations.ChecksComeBeforeAnyAccess : Prop :=
  ∀ (s : State) (i now e q : Nat) (d : List Byte),
    let r := blankRun i d now
    (dOp d = 0x00 → dLen d = 0 → startNop s r = endRun r DS_OK 0) ∧ (dOp d = 0x00 → dLen d ≠ 0 → startNop s r = endRun r DS_RANGE 0) ∧
    (dOp d ≠ 0x00 → startNop s r = endRun r DS_BADDESC 0) ∧
    (dLen d = 0 → startFence s r = endRun r DS_OK 0) ∧ (dLen d ≠ 0 → startFence s r = endRun r DS_RANGE 0) ∧
    (16777216 < dLen d → startCopy s r = endRun r DS_RANGE 0 ∧ startRange s r = endRun r DS_RANGE 0 ∧ startCrc s r = endRun r DS_RANGE 0) ∧
    (dLen d ≤ 16777216 → startRange s r = r) ∧
    (let meet := dLen d ≠ 0 ∧ (sub32 (dA d) (dB d) < dLen d ∨ sub32 (dB d) (dA d) < dLen d)
     (meet → startCopy s r = endRun r DS_RANGE 0) ∧ (¬meet → dLen d ≤ 16777216 → startCopy s r = r)) ∧
    (let crooked := bitOf (dSub d) 0 = true ∧ dB d % 4 ≠ 0
     dLen d ≤ 16777216 → (crooked → startCrc s r = endRun r DS_MISALIGN (dB d)) ∧ (¬crooked → startCrc s r = r)) ∧
    (let fits := dSub d ≤ 1 ∧ 1 ≤ dEsize d ∧ dEsize d ≤ 4096 ∧ dEsize d ≤ dLen d ∧ dLen d % dEsize d = 0 ∧ dLen d ≤ 16777216
     (fits → startElements s r = r) ∧ (¬fits → startElements s r = endRun r DS_RANGE 0)) ∧
    (let n := storedSize (dOpfmt d)
     let odd := opfmtDefined (dOpfmt d) = false ∨ 16777216 < dLen d ∨ dLen d % n ≠ 0
     (dLen d = 0 → startAccum s r = endRun r DS_OK 0) ∧ (dLen d ≠ 0 → odd → startAccum s r = endRun r DS_RANGE 0) ∧
     (dLen d ≠ 0 → ¬odd → dB d % n ≠ 0 → startAccum s r = endRun r DS_MISALIGN 0) ∧ (dLen d ≠ 0 → ¬odd → dB d % n = 0 → startAccum s r = r)) ∧
    (dLen d ≠ 0 ∨ 5 < dSub d → startSema s r = endRun r DS_RANGE 0) ∧ (dLen d = 0 → dSub d ≤ 5 → startSema s r = r) ∧
    (192 < dLen d → startPost s r = endRun r DS_RANGE 0) ∧ (dLen d ≤ 192 → numMailboxes s.variant ≤ dA d → startPost s r = endRun r DS_ABSENT 0) ∧
    (dLen d ≤ 192 → dA d < numMailboxes s.variant → startPost s r = r) ∧
    (dLen d = 0 ∨ 4096 < dLen d → startPush e q s r = endRun r DS_RANGE 0) ∧
    (let p := dSub d % 8
     let own := rdF s (R_Q_CFG e q) Q_CFG_PORT
     1 ≤ dLen d → dLen d ≤ 4096 →
       (numPorts s.variant ≤ p → startPush e q s r = endRun r DS_ABSENT 0) ∧
       (p < numPorts s.variant → isPairPort s p = true ∨ (portPrivileged s own = false ∧ p ≠ own) → startPush e q s r = endRun r DS_DENIED 0) ∧
       (p < numPorts s.variant → isPairPort s p = false → portPrivileged s own = true ∨ p = own →
         startPush e q s r = (if linkState s p = LS_UP then r else endRun r DS_PORTDOWN 0))) ∧
    (dLen d ≠ 0 ∨ 3 < dSub d ∨ (dSub d ≤ 1 ∧ 1023 < dA d % 65536) → startWait s r = endRun r DS_RANGE 0) ∧
    (let c := mCtx d
     let m := { r with mctx := ctxOf s c }
     let odd := 255 < dA d ∨ hasF (rdBefore s (R_MC_CTL c)) MC_CTL_ENABLE = false ∨ 3 < dSub d ∨ (dSub d ≤ 1 ∧ 16777216 < dLen d) ∨ (2 ≤ dSub d ∧ dLen d ≠ 0)
     let mine := bitOf (rdF s (R_MC_CTL c) MC_CTL_PORTS) (rdF s (R_Q_CFG e q) Q_CFG_PORT) = true
     let crooked := dD d % 64 ≠ 0 ∨ (dSub d = 3 ∧ dB d % 64 ≠ 0)
     (bigVariant s.variant = false → startMatch e q s r = endRun m DS_ABSENT 0) ∧
     (bigVariant s.variant = true → (odd → startMatch e q s r = endRun m DS_RANGE 0) ∧ (¬odd → ¬mine → startMatch e q s r = endRun m DS_DENIED 0) ∧
       (¬odd → mine → crooked → startMatch e q s r = endRun m DS_MISALIGN 0) ∧ (¬odd → mine → ¬crooked → startMatch e q s r = m)))

/-- The next fetched MATCH of the row's SUBOP, free to begin, begins with the checks of R186: the row completes. On a queue with nothing
in progress, a MATCH without COND that passes the checks is in progress after it with its context's registers, no byte stored, and
its next access is the TRY of its lock. Holding the lock it reads what its walk needs, one line at a time; then it makes the planned
writes in their order, stores the record when D is not 0, and releases the lock. (R183, R187, R188, R189) -/
def Obligations.MatchRowsBeginAndDoTheListWork : Prop :=
  (∀ (e : BitVec 4) (q : BitVec 2) (c : Instr) (sub : Nat → Bool), (c, sub) ∈ matchRows e q →
    (∀ (s : State) (i : Nat) (ce : Bool) (d : List Byte), DescBegins s e.toNat q.toNat i ce d → dOp d = 0x08 → sub (dSub d) = true →
      exec c s = .next (descBegun s e.toNat q.toNat (begunRun s e.toNat q.toNat i ce d (startMatch e.toNat q.toNat)))) ∧
    (∀ (s : State) (i : Nat) (ce : Bool) (d : List Byte) (rest : List (Nat × Bool × List Byte)),
      coreOn s = true → e.toNat < numEngines s.variant → engState s e.toNat ≤ 1 → (engineOf s e.toNat).resetting = false →
      queueOf s e.toNat q.toNat = { queueReset with fetched := (i, ce, d) :: rest } → qState s e.toNat q.toNat = QS_RUNNING →
      qHead s e.toNat q.toNat ≠ qTail s e.toNat q.toNat → syncHolds s e.toNat q.toNat = false →
      dOp d = 0x08 → sub (dSub d) = true → dCond d = 0 → MatchGood s e.toNat q.toNat d →
      let r : Run := { firstRun s i ce d with mctx := ctxOf s (dA d) }
      ∃ t, exec c s = .next t ∧ (queueOf t e.toNat q.toNat).runs = [r] ∧ (queueOf t e.toNat q.toNat).fetched = rest ∧
        t.cells = s.cells ∧ qState t e.toNat q.toNat = QS_RUNNING ∧
        nextOf t e.toNat q.toNat r = .issue .lock (engRead e.toNat q.toNat (0xFE000000 + r.mctx.lockSem * 64) 8) { r with phase := 2 })) ∧
  (∀ (e q : Nat) (k : Queue) (r : Run), r.phase = 4 →
    (∀ addr len, (matchPlan r).walk.halt = some (.need addr len) → accsOf k r.index = [] →
      nextMatch e q k r = .issue .walk (engRead e q addr len) r) ∧
    (∀ s, dOp r.desc = 0x08 → r.status = 0 → (matchPlan r).walk.halt = none → (matchPlan r).full = false →
      settleMatch s e q r = mapRun s e q r.index (fun x => { x with phase := 5, xpos := 0, result := matchResult (matchPlan r) }))) ∧
  (∀ (e q : Nat) (k : Queue) (r : Run), r.phase = 5 → r.status = 0 →
    (∀ w, (matchPlan r).writes[r.xpos]? = some w → nextMatch e q k r = .issue .store (engWrite e q w.1 w.2) { r with xpos := r.xpos + 1 }) ∧
    ((matchPlan r).writes.length ≤ r.xpos → accsOf k r.index = [] →
      nextMatch e q k r = (if dD r.desc = 0 then matchUnlock e q r
        else .issue .store (engWrite e q (dD r.desc) (recordBytes r.desc (matchPlan r) r.matchTime)) { r with phase := 7 })))

/-- ENGINE_ISSUE, the answers taken up, with the issue slot free and a queue in turn with a ready access, completes: that access is
issued, the slot is used, the queue was served last, ENG_ACCESSES counts one and no stored byte changes. So it does on an engine of
which one queue runs, with nothing fetched, in progress or under way and HEAD not at TAIL: the fetch of the descriptor at HEAD is
under way. ACCESS_REISSUE, in its queue's turn, issues again the first access of the queue that is due. (R142, R145, R350) -/
def Obligations.EngineIssuesOneAccess : Prop :=
  (∀ (s : State) (e : BitVec 4) (q : Nat), coreOn s = true → e.toNat < numEngines s.variant →
    let p := settleReset (prepareEngine s e.toNat) e.toNat
    engMayIssue p e.toNat = true → nextQueue p e.toNat = some q →
    ∃ t, exec (.engineIssue e) s = .next t ∧ t = issueReady p e.toNat q ∧ (engineOf t e.toNat).issued = some s.time ∧
      (engineOf t e.toNat).lastQ = q ∧ t.cells = s.cells ∧
      rdF t (R_ENG_ACCESSES e.toNat) ENG_ACCESSES_COUNT = (rdF p (R_ENG_ACCESSES e.toNat) ENG_ACCESSES_COUNT + 1) % 2 ^ ENG_ACCESSES_COUNT.width) ∧
  (∀ (s : State) (e : BitVec 4) (q : Nat), coreOn s = true → s.power.warmPending = false → e.toNat < numEngines s.variant → engState s e.toNat ≤ 1 →
    (engineOf s e.toNat).resetting = false → (engineOf s e.toNat).issued ≠ some s.time → q < 4 → qState s e.toNat q = QS_RUNNING →
    (∀ k, k < 4 → queueOf s e.toNat k = queueReset) →
    (∀ k, k < 4 → k ≠ q → qState s e.toNat k = QS_DISABLED ∨ qState s e.toNat k = QS_STOPPED) → qHead s e.toNat q ≠ qTail s e.toNat q →
    let r := engRead e.toNat q (ringBase s e.toNat q + qHead s e.toNat q % ringSize s e.toNat q * 64) 64
    bankFull s r = false → lookupBlocked s r = false →
    ∃ t a, exec (.engineIssue e) s = .next t ∧ (queueOf t e.toNat q).accs = [a] ∧ a.uid = s.nextUid ∧ a.req = r ∧
      a.use = .fetch (qHead s e.toNat q) ∧ (engineOf t e.toNat).issued = some s.time ∧ (engineOf t e.toNat).lastQ = q ∧ t.cells = s.cells) ∧
  (∀ (s : State) (e : BitVec 4) (q : BitVec 2) (a : EngAcc), coreOn s = true → e.toNat < numEngines s.variant →
    let p := settleReset (prepareEngine s e.toNat) e.toNat
    engMayIssue p e.toNat = true → dueAgain p e.toNat q.toNat = some a → nextQueue p e.toNat = some q.toNat →
    ∃ t, exec (.accessReissue e q) s = .next t ∧ t = reissueAccess p e.toNat q.toNat a ∧ (engineOf t e.toNat).issued = some s.time ∧
      (engineOf t e.toNat).lastQ = q.toNat ∧ t.cells = s.cells)

/-- The descriptor at HEAD complete with its completion action: without a fault HEAD and DONE rise by 1, it leaves the descriptors in
progress, and LAST says whether its status was OK unless it was skipped; with a fault the queue is in FAULT, Q_FAULT names the
descriptor, its opcode and status, HEAD stays and nothing is in progress. That a fetch which ended BUSY or RANGE (phase 99) leaves
LAST as it was is the model's choice (log entry 68). (R145, R147, R148, R167) -/
def Obligations.RetirementAdvancesOrFaults : Prop :=
  ∀ (s : State) (e : BitVec 4) (q : BitVec 2) (r : Run), MayRetire s e.toNat q.toNat r →
    let p := queueReady s e.toNat q.toNat
    ∃ t, exec (.descriptorRetire e q) s = .next t ∧ t.cells = s.cells ∧
      (faulted r = false →
        qHead t e.toNat q.toNat = (qHead p e.toNat q.toNat + 1) % 2 ^ 32 ∧
        rdF t (R_Q_COUNT e.toNat q.toNat) Q_COUNT_DONE = (rdF p (R_Q_COUNT e.toNat q.toNat) Q_COUNT_DONE + 1) % 2 ^ Q_COUNT_DONE.width ∧
        (queueOf t e.toNat q.toNat).runs = (queueOf p e.toNat q.toNat).runs.drop 1 ∧
        rdF t (R_Q_STATE e.toNat q.toNat) Q_STATE_LAST =
          (if r.skipped || r.phase = 99 then rdF p (R_Q_STATE e.toNat q.toNat) Q_STATE_LAST else if r.status = 0 then 0 else 1)) ∧
      (faulted r = true →
        qState t e.toNat q.toNat = QS_FAULT ∧ qHead t e.toNat q.toNat = qHead p e.toNat q.toNat ∧ (queueOf t e.toNat q.toNat).runs = [] ∧
        (queueOf t e.toNat q.toNat).fetched = [] ∧
        rd t (R_Q_FAULT e.toNat q.toNat) = w64 (r.index % 2 ^ 32 + dOp r.desc <<< 32 + r.status <<< 40) ∧
        bitOf (rdF t (R_ENG_STAT e.toNat) ENG_STAT_FAULTQ) q.toNat = true)

/-- On an engine in service with its clock WAIT_REEVALUATE and WAIT_TIMEOUT complete: each descriptor in progress of the queue that an
event names is tested again, and a PEEK or TRY it needs leaves at once when the issue slot is free and the turn is the queue's; each
whose limit has passed times out. A WAIT alone in its queue: one that an event of its vat has met ends with the status and RESULT of that event, one on a
semaphore is to issue its PEEK or TRY, and one whose limit has passed with nothing seen ends with TIMEOUT. A WAIT of kind 0 is met
when TALLY has reached D, one of an entry that is not valid with NOVAT. (R160, R161) -/
def Obligations.WaitsAreTestedAgainAndTimeOut : Prop :=
  (∀ (s : State) (e : BitVec 4) (q : BitVec 2), coreOn s = true → e.toNat < numEngines s.variant → engState s e.toNat ≤ 1 →
    let p := prepareQueue s e.toNat q.toNat
    let a := prepareEngine s e.toNat
    let t := refreshState (mapRuns a e.toNat q.toNat (reevaluate a)) e.toNat q.toNat
    exec (.waitReevaluate e q) s = .next
      (if (queueOf a e.toNat q.toNat).runs.any (fun r => r.recheck && !r.ended && 2 ≤ dSub r.desc && dOp r.desc = 0x0B) && engMayIssue t e.toNat &&
          nextQueue t e.toNat = some q.toNat
       then issueReady t e.toNat q.toNat else t) ∧
    exec (.waitTimeout e q) s = .next (refreshState (mapRuns p e.toNat q.toNat (waitTimesOut p)) e.toNat q.toNat)) ∧
  (∀ (s : State) (e : BitVec 4) (q : BitVec 2) (r : Run), coreOn s = true → e.toNat < numEngines s.variant → engState s e.toNat ≤ 1 →
    (queueOf s e.toNat q.toNat).runs = [r] → (queueOf s e.toNat q.toNat).accs = [] → dOp r.desc = 0x0B → r.ended = false → r.phase = 0 →
    (∀ x, dSub r.desc ≤ 1 → r.recheck = true → r.seen = some x →
      ∃ t, exec (.waitReevaluate e q) s = .next t ∧ (queueOf t e.toNat q.toNat).runs = [endRun r x.1 x.2] ∧ t.cells = s.cells) ∧
    (2 ≤ dSub r.desc → r.recheck = true → limitBefore s r = false → engMayIssue s e.toNat = false →
      ∃ t, exec (.waitReevaluate e q) s = .next t ∧ (queueOf t e.toNat q.toNat).runs = [{ r with phase := 1, recheck := false }] ∧ t.cells = s.cells) ∧
    (limitPassed s r = true → (dSub r.desc ≤ 1 → r.seen = none) →
      ∃ t, exec (.waitTimeout e q) s = .next t ∧ (queueOf t e.toNat q.toNat).runs = [endRun r DS_TIMEOUT 0] ∧ t.cells = s.cells)) ∧
  (∀ (s : State) (r : Run), dOp r.desc = 0x0B → dSub r.desc ≤ 1 → let n := dA r.desc % 65536
    (vatValid s n = false → waitTest s r = some (DS_NOVAT, 0)) ∧
    (dSub r.desc = 0 → vatValid s n = true → waitTest s r =
      (if dD r.desc ≤ rdF s (R_VAT_COUNT n) VAT_COUNT_TALLY then some (DS_OK, rdF s (R_VAT_COUNT n) VAT_COUNT_TALLY) else none)))

/-- ENGINE_OFFLINE_DONE, the answers taken up, with nothing in progress on an engine GOING_OFFLINE: it is OFFLINE, and queues that this
stopped show OFFLINE. ENGINE_SELFTEST_END when its time has come: the self-test is over, RUNNING is clear for the engine, and PASSED
and FAILED show the result. (R170, R260) -/
def Obligations.EnginesGoOfflineAndEndTheirTests : Prop :=
  (∀ (s : State) (e : BitVec 4), coreOn s = true → e.toNat < numEngines s.variant →
    let p := prepareEngine s e.toNat
    engState p e.toNat = 1 → (∀ q, q < 4 → (queueOf p e.toNat q).accs = [] ∧ (queueOf p e.toNat q).runs = []) → copyWaits p e.toNat = false →
    ∃ t, exec (.engineOfflineDone e) s = .next t ∧ engState t e.toNat = 2 ∧ t.cells = s.cells ∧
      ∀ q, q < 4 → (queueOf p e.toNat q).offlined = true → qState p e.toNat q = QS_STOPPED → qState t e.toNat q = QS_OFFLINE) ∧
  (∀ (s : State) (e : BitVec 4) (passed : Bool) (at_ : Nat), s.test.selfEnd.find? (fun x => x.1 = e.toNat) = some (e.toNat, at_) → at_ ≤ s.time →
    ∃ t, exec (.engineSelftestEnd e passed) s = .next t ∧ t.test.selfEnd = s.test.selfEnd.filter (fun x => x.1 != e.toNat) ∧ t.cells = s.cells ∧
      bitOf (rdF t R_TST_ENGRES TST_ENGRES_RUNNING) e.toNat = false ∧ bitOf (rdF t R_TST_ENGRES TST_ENGRES_PASSED) e.toNat = passed ∧
      bitOf (rdF t R_TST_ENGRES TST_ENGRES_FAILED) e.toNat = !passed)

/-- On an engine that racks, RACK_COPY_LINE completes in both its steps. With no copy of its own waiting, free to issue, four cycles
after its last line and with room in the bank's queue: the copy is issued and waits at the bank, and no byte changes. When the
waiting copy wins the bank's slot: the line's codewords stand in the spare, corrected or poisoned as R223 says, the spare holds the
bank up to the next line, and no stored byte outside the spare's line changes. With line 65,535, and no other spare racking, the job
is over: the spare is RETIRED for the bank, the engine's ACTIVE and RACKING fall, and RACK_DONE raises the engine's source. (R173,
R174, R175, R256) -/
def Obligations.RackingCopiesOneLine : Prop :=
  ∀ (s : State) (e : BitVec 4),
    let b := rdF s (R_ENG_RACK e.toNat) ENG_RACK_BANK
    let i := rdF s (R_ENG_RACK e.toNat) ENG_RACK_SPARE
    let line := rdF s (R_ENG_RACK e.toNat) ENG_RACK_LINE
    let src := physUnit s b line
    let dst := physLine s (64 + i) line
    e.toNat < numEngines s.variant → rdB s (R_ENG_STAT e.toNat) ENG_STAT_RACKING = true → bankPresent s.variant b = true → line < 65536 →
    (waitingCopy s b (.engine e.toNat 0) 0xE2 = none → rackMayIssue s e.toNat b line = true →
      ∃ t, exec (.rackCopyLine e) s = .next t ∧ (engineOf t e.toNat).issued = some s.time ∧ (engineOf t e.toNat).rackAt = some s.time ∧
        (waitingCopy t b (.engine e.toNat 0) 0xE2).isSome = true ∧ t.cells = s.cells) ∧
    (∀ r ptr, CopyServes s b ptr (.engine e.toNat 0) 0xE2 r → r.op = .read → r.addr = lineAddr s.variant b line →
      let t := bankServed s b ptr r
      exec (.rackCopyLine e) s = .next (offlineStep (syncFaultStep t)) ∧
      SameCellsOutside s t (cellKey (64 + i) dst 0 0) (cellKey (64 + i) dst 0 0 + 128) ∧
      (rdB s R_INT_INJECT INT_INJECT_ARM = false → unitUndefined s src = false → unitUndefined s (64 + i) = false →
        (∀ k, k < 2 → let c := readCw s src (physLine s src line) k
          readCw t (64 + i) dst k = copiedCw c (decodeCw c)) ∧
        spareBank t i = b ∧ spareLine t i = line + 1 ∧
        (line < 65535 → rdF t (R_ENG_RACK e.toNat) ENG_RACK_LINE = line + 1 ∧ spareState t i = 1 ∧ rdB t (R_ENG_STAT e.toNat) ENG_STAT_RACKING = true) ∧
        (line = 65535 → (∀ j, j < 2 → j ≠ i → spareState s j ≠ 1) →
          spareState t i = 2 ∧ rdB t (R_ENG_RACK e.toNat) ENG_RACK_ACTIVE = false ∧ rdB t (R_ENG_STAT e.toNat) ENG_STAT_RACKING = false ∧
          rdB t (R_ENG_STAT e.toNat) ENG_STAT_RACK_DONE = true ∧ 4112 + e.toNat ∈ t.intcEvents)))

/-- SCRUB_VISIT when due completes: its visit to a line waits at the bank, or is made in the slot it wins, or uses an unused store
cycle; a corrected codeword is stored corrected, an uncorrectable one of the array poisoned, a line with a poisoned codeword stays,
and no other byte changes. LOG_WRITE: up to four entries of each log leave the intake; a full log counts LOST or drops its oldest.
REMAP_COPY completes: its copy waits at the bank, or in the slot it wins the spare line holds what the copy rule makes of the line
and its entry is valid. That a unit without a bank's data needs no slot, and waits for a test that has its lines, is the model's
reading (log entry 27, DEDUCED). (R223, R229, R230, R231, R232, R235) -/
def Obligations.IntegrityRowsTakeEffect : Prop :=
  (∀ s : State,
    let b := rdF s R_INT_SCRUB_POS INT_SCRUB_POS_BANK
    let line := rdF s R_INT_SCRUB_POS INT_SCRUB_POS_LINE
    rdB s R_INT_SCRUB_POS INT_SCRUB_POS_STORES = false → bankPresent s.variant b = true →
    (scrubRuns s = true → s.integ.nextVisit ≤ s.time → waitingCopy s b .scrub 0xE0 = none → regionRefuses s (b / 8) = false →
      ∃ t, exec .scrubVisit s = .next t ∧ (waitingCopy t b .scrub 0xE0).isSome = true ∧ t.cells = s.cells) ∧
    (∀ r ptr, CopyServes s b ptr .scrub 0xE0 r → r.op = .read → r.addr = lineAddr s.variant b line →
      let unit := physUnit s b line
      let pline := physLine s unit line
      let c := fun k => readCw s unit pline k
      let t := bankServed s b ptr r
      exec .scrubVisit s = .next t ∧ (bankOf t b).lastSlot = some s.time ∧ s.integ.nextVisit ≤ t.integ.nextVisit ∧
        SameCellsOutside s t (cellKey unit pline 0 0) (cellKey unit pline 0 0 + 128) ∧
        (unitUndefined s unit = false → ∀ k, k < 2 → readCw t unit pline k =
          (if (decodeCw (c 0)).outcome = .poisoned ∨ (decodeCw (c 1)).outcome = .poisoned then c k else copiedCw (c k) (decodeCw (c k)))))) ∧
  (∀ s : State,
    let i := s.integ.storeIndex
    let unit := if i < 65536 then 66 else 67
    let k := if i < 65536 then i else i - 65536
    let d := decodeStoreCw (decide (unit = 66)) (readCw s unit k 0)
    scrubRuns s = true → s.integ.nextVisit ≤ s.time → rdB s R_INT_SCRUB_POS INT_SCRUB_POS_STORES = true → unitUndefined s unit = false →
    (i < 65536 → s.semq = [] ∧ s.semServed ≠ some s.time) → (65536 ≤ i → mbxIdle s = true ∧ s.mbxServed ≠ some s.time) →
    ∃ t, exec .scrubVisit s = .next t ∧ (i < 65536 → t.semServed = some s.time) ∧ (65536 ≤ i → t.mbxServed = some s.time) ∧ t.banks = s.banks ∧
      SameCellsOutside s t (cellKey unit k 0 0) (cellKey unit k 0 0 + 35) ∧
      readCw t unit k 0 = (if d.outcome = .corrected then encodeCw d.cw.data else readCw s unit k 0)) ∧
  (∀ s : State, coreOn s = true → s.integ.lastLogWrite ≠ some s.time → s.integ.intake ≠ [] →
    ∃ t, exec .logWrite s = .next t ∧ t.integ.intake = (intakeOf s true).drop 4 ++ (intakeOf s false).drop 4 ∧
      t.integ.lastLogWrite = some s.time ∧ t.cells = s.cells ∧
      ((intakeOf s true).length ≤ 4 → rdF s R_INT_LEES_CTL INT_LEES_CTL_COUNT + (intakeOf s true).length ≤ 32 →
        rdF t R_INT_LEES_CTL INT_LEES_CTL_COUNT = rdF s R_INT_LEES_CTL INT_LEES_CTL_COUNT + (intakeOf s true).length)) ∧
  (∀ (s : State) (e : LogEntry), rdF s R_INT_LEES_CTL INT_LEES_CTL_COUNT = 32 →
    (rdB s R_INT_CTL INT_CTL_LEES_LOCK = true → leesPlace s e = addSat s R_INT_LEES_CTL INT_LEES_CTL_LOST 1) ∧
    (rdB s R_INT_CTL INT_CTL_LEES_LOCK = false →
      rdF (leesPlace s e) R_INT_LEES_CTL INT_LEES_CTL_HEAD = (rdF s R_INT_LEES_CTL INT_LEES_CTL_HEAD + 1) % 32 ∧
      rdF (leesPlace s e) R_INT_LEES_CTL INT_LEES_CTL_COUNT = 32)) ∧
  (∀ (s : State) (j : RemapJob) (js : List RemapJob), s.integ.remaps = j :: js → j.unit < 66 → j.entry < 8 → j.line < 65536 →
    (∀ b, dataBank s j.unit = some b → bankPresent s.variant b = true → waitingCopy s b .sc 0xE3 = none →
      ∃ t, exec .remapCopy s = .next t ∧ (waitingCopy t b .sc 0xE3).isSome = true ∧ t.cells = s.cells) ∧
    (∀ b r ptr, dataBank s j.unit = some b → CopyServes s b ptr .sc 0xE3 r → r.op = .read → bankLine s.variant r.addr = j.line →
      unitUndefined s j.unit = false → rdB s R_INT_INJECT INT_INJECT_ARM = false →
      let t := bankServed s b ptr r
      exec .remapCopy s = .next t ∧ (bankOf t b).lastSlot = some s.time ∧ rdF t (R_RMP_ENTRY j.unit j.entry) RMP_ENTRY_STATE = 2 ∧
        SameCellsOutside s t (cellKey j.unit (65536 + j.entry) 0 0) (cellKey j.unit (65536 + j.entry) 0 0 + 128) ∧
        ∀ k, k < 2 → readCw t j.unit (65536 + j.entry) k =
          copiedCw (readCw s j.unit (physLine s j.unit j.line) k) (decodeCw (readCw s j.unit (physLine s j.unit j.line) k))) ∧
    (dataBank s j.unit = none → agentHolds s j = false →
      ∃ t, exec .remapCopy s = .next t ∧ t = remapCopyNow s j 0 ∧ rdF t (R_RMP_ENTRY j.unit j.entry) RMP_ENTRY_STATE = 2) ∧
    (dataBank s j.unit = none → agentHolds s j = true → exec .remapCopy s = .next s))

/-- BG_GROUP_BEGIN after 64 idle slots, the bank enabled, its gap over: a run over the group at the test's position begins; on a bank
under a foreground test, the run of its next group. SPARE_TEST_PASS_BEGIN on a FREE spare begins a destructive pass; when it has
ended the spare is clean and zero, PASSES rises by 1, and one that failed is UNUSABLE. FOREGROUND_TEST_END of a test that is over:
no test runs, STATE says passed or failed, a destructive test leaves its unit zero. SC_REPAIR_POLICY that a register write would not
be refused for: the lowest free spare that no test holds racks the bank on the highest online engine. (R245, R247, R251, R252, R255,
R258) -/
def Obligations.TestAndRepairRowsTakeEffect : Prop :=
  (∀ (s : State) (bank : BitVec 6), let b := bank.toNat
    coreOn s = true → bankPresent s.variant b = true → (bankOf s b).borrow = none → bankRacking s b = false → regionState s (b / 8) = RS_ACTIVE →
    (fgOnBank s b = false → gapOver s (bankOf s b).groupEnd = true → rdB s R_TST_BG TST_BG_BG_EN = true → bitOf (rd s R_TST_BG_BANKS).toNat b = true →
      64 ≤ (bankOf s b).idleRun → inHold s = false → devSleep s = false →
      ∃ t, exec (.bgGroupBegin bank) s = .next t ∧ t.cells = s.cells ∧ t.regs = s.regs ∧
        (bankOf t b).borrow = some (newRun (physUnit s b 0) (rdF s (R_TST_BGPOS (physUnit s b 0)) TST_BGPOS_GROUP) (rdF s R_TST_BG TST_BG_ALGO) false false) ∧
        ∀ x, x ≠ b → bankOf t x = bankOf s x) ∧
    (∀ u, fgOnBank s b = true → s.test.fgUnit = some u → s.test.fgAborting = false → s.test.fgGroup < s.test.fgEnd →
      ∃ t, exec (.bgGroupBegin bank) s = .next t ∧ t.cells = s.cells ∧ t.regs = s.regs ∧
        (bankOf t b).borrow = some (newRun u s.test.fgGroup s.test.fgAlgo true (s.test.fgMode = 2)))) ∧
  (∀ (s : State) (spare : BitVec 1), let u := 64 + spare.toNat
    coreOn s = true → rdB s R_TST_BG TST_BG_SPARES = true → spare.toNat ∈ freeSpares s → inHold s = false →
    devSleep s = false → s.test.fgUnit ≠ some u → agentOf s u = none → gapOver s (sget none s.test.spareEnd spare.toNat) = true →
    ∃ t, exec (.spareTestPassBegin spare) s = .next t ∧ agentOf t u = some (newRun u 0 0 false true) ∧ t.cells = s.cells ∧ t.regs = s.regs ∧ t.banks = s.banks) ∧
  (∀ (s : State) (r : TestRun) (i : Nat), r.unit = 64 + i → i < 2 →
    let t := spareDone s r
    (∀ k, cellByte t k = if k / (131072 * 128) = r.unit then 0 else cellByte s k) ∧ agentOf t r.unit = none ∧
      rdF t (R_TST_BGPOS r.unit) TST_BGPOS_PASSES = (rdF s (R_TST_BGPOS r.unit) TST_BGPOS_PASSES + 1) % 2 ^ TST_BGPOS_PASSES.width ∧
      spareState t i = (if r.failed = [] || s.power.scHalted then spareState s i else 3)) ∧
  (∀ (s : State) (u : Nat), s.test.fgUnit = some u → fgOver s u = true →
    ∃ t, exec .foregroundTestEnd s = .next t ∧ t.test.fgUnit = none ∧ rdF t R_TST_STAT TST_STAT_STATE = (if s.test.fgFails = 0 then 2 else 3) ∧
      (s.test.fgMode ≠ 2 → t.cells = s.cells) ∧
      (s.test.fgMode = 2 → (fgRun s u).isSome = true → u < 67 → ∀ k, cellByte t k = if k / (131072 * 128) = u then 0 else cellByte s k)) ∧
  (∀ (s : State) (bank : BitVec 6) (i e : Nat), coreOn s = true → s.power.scHalted = false → bankPresent s.variant bank.toNat = true →
    retireCode s bank.toNat none = 0 → (bankOf s bank.toNat).borrow = none → bankDestroyed s bank.toNat = false →
    (rackableSpares s).head? = some i → (onlineEngines s).getLast? = some e →
    ∃ t, exec (.scRepairPolicy bank) s = .next t ∧ spareState t i = 1 ∧ spareBank t i = bank.toNat ∧ spareLine t i = 0 ∧
      rdB t (R_ENG_STAT e) ENG_STAT_RACKING = true ∧ rdF t (R_ENG_RACK e) ENG_RACK_BANK = bank.toNat ∧
      rdF t (R_ENG_RACK e) ENG_RACK_SPARE = i ∧ rdB t R_RET_STAT RET_STAT_PENDING = false ∧ t.cells = s.cells)

/-- On a port UP, not idle, with its session: a good NEW or REPLAY flit on the symbols of the lanes with the expected FSEQ is accepted;
one with another FSEQ, and one beyond its code, deliver nothing, leave EXPECTED and make the receiver wait with a NAK due. FLIT_SEND
with units waiting sends and keeps a flit numbered NEXT. REPLAY goes back to the oldest kept flit, or retrains when it has gone out
8 times more. The timeouts make a NAK or an acknowledgement due. (R295, R296, R300, R301, R302, R303) -/
def Obligations.FlitsGoInOrderAndAreKept : Prop :=
  (∀ (s : State) (port : BitVec 3) (symbols : List (List (BitVec 2))) (bs : List Byte) (fixed : Bool), FlitArrives s port.toNat →
    fecDecode (receivedFlit s port.toNat symbols) = some (bs, fixed) → crc64 (bs.take 242) = leNat (sliceBytes bs 242 8) →
    let hdr := leNat (sliceBytes bs 0 2)
    let p := port.toNat
    hdr / 512 % 4 = 1 ∨ hdr / 512 % 4 = 2 →
    (hdr % 512 = rdF s (R_PT_RXSEQ p) PT_RXSEQ_EXPECTED →
      let f := flitTaken s p symbols
      let a := if fixed then countSat f (2 + p) (R_PT_FLITS p) PT_FLITS_FEC_FIXED 1 else f
      exec (.flitReceive port symbols) s = .next
        (acceptFlit (if bitOf hdr 11 then applyControl a p (flitSlot bs 0) else a) p bs (bitOf hdr 11) (hdr / 4096))) ∧
    (hdr % 512 ≠ rdF s (R_PT_RXSEQ p) PT_RXSEQ_EXPECTED → bitOf hdr 11 = false →
      ∃ t, exec (.flitReceive port symbols) s = .next t ∧ FlitNotTaken s t p)) ∧
  (∀ (s : State) (port : BitVec 3) (symbols : List (List (BitVec 2))), FlitArrives s port.toNat → fecDecode (receivedFlit s port.toNat symbols) = none →
    ∃ t, exec (.flitReceive port symbols) s = .next t ∧ FlitNotTaken s t port.toNat ∧
      (counting s (2 + port.toNat) = true → rdF t (R_PT_FLITS port.toNat) PT_FLITS_BAD =
        min (rdF s (R_PT_FLITS port.toNat) PT_FLITS_BAD + 1) (2 ^ PT_FLITS_BAD.width - 1))) ∧
  (∀ (s : State) (port : BitVec 3) (x : Nat), (linkOf s port.toNat).nakSentAt = some x → portUp s port.toNat = true →
    rdB s (R_PT_STAT port.toNat) PT_STAT_RX_WAIT = true → nsPassed s x (linkOf s port.toNat).nakNs = true →
    exec (.nakTimeout port) s = .next (setLink s port.toNat { linkOf s port.toNat with nakDue := true, nakSentAt := none })) ∧
  (∀ (s : State) (port : BitVec 3) (x : Nat), (linkOf s port.toNat).unackedSince = some x → portUp s port.toNat = true → nsPassed s x 64 = true →
    exec (.ackTimeout port) s = .next (setLink s port.toNat { linkOf s port.toNat with lcsDue := true })) ∧
  (∀ (s : State) (port : BitVec 3),
    let p := port.toNat
    let l := linkOf s p
    let lcs := controlDue s p
    FlitArrives s p → enteringEi s p = false → initDue s p = false → l.replayNext = none → l.kept.length < 256 →
    (fillFlit l (if lcs then 14 else 15)).slots ≠ [] →
    ∃ t k, exec (.flitSend port) s = .next t ∧ (linkOf t p).kept = l.kept ++ [k] ∧ k.fseq = rdF s (R_PT_TXSEQ p) PT_TXSEQ_NEXT ∧ k.resent = 0 ∧
      rdF t (R_PT_TXSEQ p) PT_TXSEQ_NEXT = (k.fseq + 1) % 2 ^ PT_TXSEQ_NEXT.width ∧ t.cells = s.cells ∧
      ∃ l, t.out = l ++ s.out ∧ .flit p (flitBytes (k.fseq + 1 <<< 9 + (b01 lcs) <<< 11 + k.first <<< 12) k.slots) ∈ l) ∧
  (∀ (s : State) (port : BitVec 3) (k : KeptFlit) (ks : List KeptFlit),
    let p := port.toNat
    coreOn s = true → portUp s p = true → (linkOf s p).kept = k :: ks →
    ((linkOf s p).replayDue = true ∨ nsPassed s (linkOf s p).progressAt (linkOf s p).progressNs = true) →
    (k.resent < 8 → ∃ t, exec (.replayFlits port) s = .next t ∧ (linkOf t p).replayNext = some 0 ∧ (linkOf t p).kept = k :: ks ∧
      rdB t (R_PT_STAT p) PT_STAT_TX_REPLAY = true ∧ t.cells = s.cells ∧ t.txns = s.txns) ∧
    (8 ≤ k.resent → exec (.replayFlits port) s = .next (replayLimit s p)))

/-- The seven rows of electrical idle on a port UP complete: EI_IDLE_TIMEOUT asks when the conditions hold; a received EI_REQ is
answered with EI_ACK and entry, or with EI_NAK; one that meets the port's own is taken as its answer, and the entry follows after
100 ns without an EI_NAK (the model's choice, R277 gives no time), no flit leaving meanwhile; EI_ACK of an own request enters; EI_NAK,
also where both ends refuse, counts EI_REFUSED and begins the idle time anew; EI_EXIT sends a burst and a marker; WAKE_BURST ends the idle, answered with a burst unless it answers;
EI_EXIT_TIMEOUT retrains. No stored byte changes. (R275, R276, R277) -/
def Obligations.ElectricalIdleRowsTakeEffect : Prop :=
  ∀ (s : State) (port : BitVec 3) (marker : List Byte),
    let p := port.toNat
    let h := phyOf s p
    portUp s p = true →
    (inEi s p = false → idleReady s p = true → h.eiAsked = false → nsPassed s h.idleSince (1000 * rdF s (R_LPH_CTL p) LPH_CTL_EI_IDLE_US) = true →
      ∃ t, exec (.eiIdleTimeout port) s = .next t ∧ (phyOf t p).eiAsked = true ∧ inEi t p = false ∧ t.out.head? = some (.marker p 0x02) ∧ t.cells = s.cells) ∧
    (inEi s p = false → markerSays marker 1 = true → idleReady s p = true → h.eiAsked = false →
      ∃ t l, exec (.eiReq ⟨port, marker⟩) s = .next t ∧ inEi t p = true ∧ (phyOf t p).eiAsked = false ∧ t.cells = s.cells ∧
        t.out = l ++ s.out ∧ l.head? = some (.marker p 0) ∧ .marker p 0x04 ∈ l) ∧
    (inEi s p = false → markerSays marker 1 = true → idleReady s p = true → h.eiAsked = true →
      ∃ t, exec (.eiReq ⟨port, marker⟩) s = .next t ∧ inEi t p = false ∧ (phyOf t p).eiMeets = some s.time ∧ t.out = s.out ∧ t.cells = s.cells) ∧
    (∀ x, inEi s p = false → h.eiAsked = true → h.eiMeets = some x →
      exec (.flitSend port) s = .next s ∧ (nsPassed s x 100 = true → inEi (idleCycle s p) p = true)) ∧
    (inEi s p = false → markerSays marker 1 = true → idleReady s p = false →
      ∃ t, exec (.eiReq ⟨port, marker⟩) s = .next t ∧ inEi t p = false ∧ (phyOf t p).eiAsked = false ∧ t.out.head? = some (.marker p 0x08) ∧
        (phyOf t p).eiCrossed = (h.eiCrossed || h.eiAsked) ∧ t.regs = s.regs ∧ t.cells = s.cells) ∧
    (inEi s p = false →
      (markerSays marker 2 = true → h.eiAsked = true →
        ∃ t, exec (.eiAck ⟨port, marker⟩) s = .next t ∧ inEi t p = true ∧ t.out.head? = some (.marker p 0) ∧ t.cells = s.cells) ∧
      (markerSays marker 3 = true → h.eiAsked = true ∨ h.eiCrossed = true →
        ∃ t, exec (.eiNak ⟨port, marker⟩) s = .next t ∧ inEi t p = false ∧ (phyOf t p).eiAsked = false ∧ (phyOf t p).idleSince = s.time ∧ t.cells = s.cells ∧
        (counting s 0x0A = true → rdF t (R_LPH_CNT_B p) LPH_CNT_B_EI_REFUSED =
          min (rdF s (R_LPH_CNT_B p) LPH_CNT_B_EI_REFUSED + 1) (2 ^ LPH_CNT_B_EI_REFUSED.width - 1)))) ∧
    (inEi s p = true → h.eiExitAt = none → nothingToSend s p = false →
      ∃ t l, exec (.eiExit port) s = .next t ∧ (phyOf t p).eiExitAt = some s.time ∧ inEi t p = true ∧ t.out = l ++ s.out ∧
        l.head? = some (.marker p 0) ∧ .burst p ∈ l ∧ t.cells = s.cells) ∧
    (inEi s p = true →
      ∃ t l, exec (.wakeBurst port) s = .next t ∧ inEi t p = false ∧ (phyOf t p).eiExitAt = none ∧ (phyOf t p).idleSince = s.time ∧ t.cells = s.cells ∧
        t.out = l ++ s.out ∧ (h.eiExitAt.isSome = true → l = []) ∧ (h.eiExitAt = none → l.head? = some (.marker p 0) ∧ .burst p ∈ l)) ∧
    (∀ x, h.eiExitAt = some x → nsPassed s x 1000 = true → ∃ t, exec (.eiExitTimeout port) s = .next t ∧ Retrains s t p)

/-- EMF_UPDATE on a lane that receives and is in use: EMF and EMF_MIN, the settings that adaptation has reached outside FROZEN; in UP
also READAPT after FLOOR_US updates below FLOOR, a retrain after HARD_UPDATES below HARD_FLOOR, UP kept otherwise. READAPT_TIMEOUT,
MARKER_MISSING and a received RETRAIN_REQ marker make a port that is UP retrain; RETRAIN_TIMEOUT takes it DOWN with cause 6;
LOSS_OF_LOCK clears LOCKED and counts. (R267, R270, R272, R273, R274, R283) -/
def Obligations.LanesAdaptAndPortsRetrain : Prop :=
  (∀ (s : State) (port : BitVec 3) (lane : BitVec 4) (rx : LaneObs),
    let p := port.toNat
    let j := lane.toNat
    let emf := emfOf rx.eyes
    eyesFit s p rx.eyes = true →
    (laneMeasures s p j = true →
      ∃ t, exec (.emfUpdate port lane rx) s = .next t ∧ rdF t (R_LRX_STAT p j) LRX_STAT_EMF = emf ∧
        rdF t (R_LRX_STAT p j) LRX_STAT_EMF_MIN = min emf (rdF s (R_LRX_STAT p j) LRX_STAT_EMF_MIN) ∧ t.cells = s.cells ∧
        (laneMode s p j ≠ LM_FROZEN → rd t (R_LRX_EQ p j) = w64 (rx.ctle.toNat + rx.dfe.toNat <<< 8)) ∧
        (laneMode s p j = LM_FROZEN → rd t (R_LRX_EQ p j) = rd s (R_LRX_EQ p j))) ∧
    (portUp s p = true → inEi s p = false → laneUsed s p j = true →
      let hard := if emf < rdF s R_LN_GCFG LN_GCFG_HARD_FLOOR then (laneOf s p j).belowHard + 1 else 0
      let below := if emf < rdF s R_LN_GCFG LN_GCFG_FLOOR then (laneOf s p j).below + 1 else 0
      ∃ t, exec (.emfUpdate port lane rx) s = .next t ∧ (laneOf t p j).belowHard = hard ∧
        (laneMode s p j ≠ LM_READAPT → rdF s R_LN_GCFG LN_GCFG_FLOOR_US ≤ below → laneMode t p j = LM_READAPT) ∧
        linkState t p = (if rdF s R_LN_GCFG2 LN_GCFG2_HARD_UPDATES ≤ hard then LS_EQUALIZE else LS_UP))) ∧
  (∀ (s : State) (port : BitVec 3) (lane : BitVec 4),
    let p := port.toNat
    let j := lane.toNat
    (portUp s p = true → j < 9 → laneMode s p j = LM_READAPT →
      nsPassed s (laneOf s p j).readaptAt (1000 * rdF s R_LN_GCFG2 LN_GCFG2_READAPT_US) = true →
      ∃ t, exec (.readaptTimeout port lane) s = .next t ∧ Retrains s t p) ∧
    (portUp s p = true → inEi s p = false → laneUsed s p j = true → ∃ t, exec (.markerMissing port lane) s = .next t ∧ Retrains s t p) ∧
    (p < numPorts s.variant → inEi s p = false → laneUsed s p j = true →
      ∃ t, exec (.lossOfLock port lane) s = .next t ∧ rdB t (R_LRX_STAT p j) LRX_STAT_LOCKED = false ∧ t.cells = s.cells ∧ linkState t p = linkState s p ∧
        (counting s 0x0A = true → rdF t (R_LRX_ERR p j) LRX_ERR_LOCK_LOSS =
          min (rdF s (R_LRX_ERR p j) LRX_ERR_LOCK_LOSS + 1) (2 ^ LRX_ERR_LOCK_LOSS.width - 1)))) ∧
  (∀ (s : State) (port : BitVec 3) (marker : List Byte), portUp s port.toNat = true → inEi s port.toNat = false → markerSays marker 4 = true →
    ∃ t, exec (.retrainReq ⟨port, marker⟩) s = .next t ∧ Retrains s t port.toNat) ∧
  (∀ (s : State) (port : BitVec 3), port.toNat < numPorts s.variant → retraining s port.toNat = true →
    nsPassed s (phyOf s port.toNat).retrainAt 5000000 = true → ∃ t, exec (.retrainTimeout port) s = .next t ∧ IsDown s t port.toNat 6)

/-- TRAINING_BLOCK, valid, on a port in training: with 8 lanes heard DETECT goes to SPEED, with the partner's ACK SPEED goes to EQUALIZE
at the highest common rate, EQUALIZE records the lane's EMF, ALIGN with both ACKs reaches UP. TRAINING_TIMEOUT fails the attempt
with its state's cause: three attempts a rate, then the next lower one, then UNANSWERED. SIGNAL_LOSS takes the port DOWN, in DETECT
it clears SIGNAL and LOCKED; the backoffs end in a first attempt in DETECT. (R267, R271, R278, R279, R280, R281, R282) -/
def Obligations.TrainingAdvancesAndEnds : Prop :=
  (∀ (s : State) (port : BitVec 3) (lane : BitVec 4) (rx : LaneReport) (block : List Byte),
    let p := port.toNat
    let j := lane.toNat
    let n := noteBlock s p j rx block
    let common := ratesBelow (phyOf s p).rates (phyOf s p).attemptRate &&& (byteOf block 10 % 8)
    coreOn s = true → p < numPorts s.variant → j < 9 → blockValid block = true →
    (linkState s p = LS_DETECT → ∃ t, exec (.trainingBlock port lane rx block) s = .next t ∧ t.out = s.out ∧
      t.cells = s.cells ∧ rdB t (R_LRX_STAT p j) LRX_STAT_SIGNAL = true ∧ rdB t (R_LRX_STAT p j) LRX_STAT_LOCKED = true ∧
      linkState t p = (if 8 ≤ heardCount n p then LS_SPEED else LS_DETECT)) ∧
    (linkState s p = LS_SPEED → LS_SPEED ≤ byteOf block 8 → common ≠ 0 → (phyOf n p).partnerAck = true →
      ∃ t, exec (.trainingBlock port lane rx block) s = .next t ∧ linkState t p = LS_EQUALIZE ∧
        rdF t (R_LPH_STAT p) LPH_STAT_RATE = highestRate common ∧ t.cells = s.cells) ∧
    (linkState s p = LS_EQUALIZE → ∃ t, exec (.trainingBlock port lane rx block) s = .next t ∧
      rdF t (R_LRX_STAT p j) LRX_STAT_EMF = emfOf rx.eyes ∧ t.cells = s.cells) ∧
    (linkState s p = LS_ALIGN → (retraining s p = true ∨ wiringIs n p (reversed n p) = true) → (phyOf n p).partnerAck = true → rx.aligned = true →
      ownAck (setPhy n p { phyOf n p with good := (phyOf n p).good ||| BitVec.ofNat 9 (1 <<< j) }) p = true →
      (retraining s p = true → ∀ k, (linkOf s p).kept.head? = some k → k.resent < 8) →
      ∃ t, exec (.trainingBlock port lane rx block) s = .next t ∧ linkState t p = LS_UP ∧ retraining t p = false ∧ t.cells = s.cells ∧
        rdB t (R_PT_STAT p) PT_STAT_EV_UP = true ∧ (retraining s p = false → rdB t (R_PT_STAT p) PT_STAT_SESSION = true))) ∧
  (∀ (s : State) (port : BitVec 3),
    let p := port.toNat
    let st := linkState s p
    let n := rdF s (R_LPH_STAT p) LPH_STAT_ATTEMPT
    coreOn s = true → p < numPorts s.variant →
    (st = LS_DETECT → ∃ t, exec (.signalLoss port) s = .next t ∧ linkState t p = LS_DETECT ∧ t.cells = s.cells ∧
      ∀ j, j < 9 → rdB t (R_LRX_STAT p j) LRX_STAT_SIGNAL = false ∧ rdB t (R_LRX_STAT p j) LRX_STAT_LOCKED = false) ∧
    (LS_DETECT ≤ st → st ≤ LS_ALIGN → retraining s p = false → nsPassed s (phyOf s p).stateAt (stateLimit st).1 = true →
      ∃ t, exec (.trainingTimeout port) s = .next t ∧ rdF t (R_LPH_STAT p) LPH_STAT_FAIL_CAUSE = (stateLimit st).2 ∧ t.cells = s.cells ∧
        (n < 3 → linkState t p = LS_DETECT ∧ rdF t (R_LPH_STAT p) LPH_STAT_ATTEMPT = n + 1) ∧
        (n = 3 → linkState t p = (if ratesBelow (ratesOf s p) ((phyOf s p).attemptRate + 1) = 0 then LS_UNANSWERED else LS_DETECT))) ∧
    (LS_SPEED ≤ st → st ≤ LS_ALIGN → ∃ t, exec (.signalLoss port) s = .next t ∧ IsDown s t p 2) ∧
    (st = LS_UP → (inEi s p = false ∨ (phyOf s p).eiExitAt ≠ none) → ∃ t, exec (.signalLoss port) s = .next t ∧ IsDown s t p 7) ∧
    (st = LS_DOWN → nsPassed s (phyOf s p).stateAt (10000000 * 2 ^ min ((phyOf s p).downsSinceUp - 1) 6) = true →
      ∃ t, exec (.downBackoffEnd port) s = .next t ∧ linkState t p = LS_DETECT ∧ rdF t (R_LPH_STAT p) LPH_STAT_ATTEMPT = 1 ∧ t.cells = s.cells) ∧
    (st = LS_UNANSWERED → nsPassed s (phyOf s p).stateAt 1000000000 = true →
      ∃ t, exec (.unansweredBackoffEnd port) s = .next t ∧ linkState t p = LS_DETECT ∧ rdF t (R_LPH_STAT p) LPH_STAT_ATTEMPT = 1 ∧ t.cells = s.cells))

/-- On a pair port of a passive device or a target of SYNCING each command completes: SEM and MBX take a free store cycle and store what
they carry, VAT writes the entry, LINES enters its lines at their banks as one received unit; a unit waits behind an earlier one of
its port. When the last step of a unit commits (for MBX at MAILBOX_COMMIT) an ACCEPT with its UTAG is sent. ACCEPT takes each named
unit off the list and does what waited for it. HEAL_REQ joins the units of its port and reads the line in its turn, or is refused at
once; the line read is sent as HEAL_DATA. HEAL_DATA answers a request that stands: good data is written, a refusal counts HEAL_FAILS.
(R333, R334, R346) -/
def Obligations.PairUnitsAreApplied : Prop :=
  (∀ (s : State) (port : BitVec 3) (utag : BitVec 12) (n : BitVec 16) (state binding : Word64), isPairPort s port.toNat = true → pairApplies s = true →
    (∀ u ∈ s.pair.rxUnits, u.port ≠ port.toNat ∧ u.num < s.nextUid) → s.semq = [] → s.semStage = [] → coreOn s = true → s.semServed ≠ some s.time →
    unitUndefined s 66 = false →
    ∃ t, exec (.semUnit port utag n state binding) s = .next t ∧ AcceptSent s t port.toNat utag.toNat ∧
      readCw t 66 n.toNat 0 = encodeCw (BitVec.ofNat 256 (state.toNat + binding.toNat <<< 64)) ∧ t.intcEvents = s.intcEvents ∧
      t.semServed = some s.time ∧ SameCellsOutside s t (cellKey 66 n.toNat 0 0) (cellKey 66 n.toNat 0 0 + 35)) ∧
  (∀ (s : State) (port : BitVec 3) (utag : BitVec 12) (n : BitVec 16) (parts : BitVec 7) (isOpen : Bool) (data : List Byte),
    isPairPort s port.toNat = true → pairApplies s = true → n.toNat < numMailboxes s.variant →
    (∀ u ∈ s.pair.rxUnits, u.port ≠ port.toNat ∧ u.num < s.nextUid) → s.mbxq = [] → s.mbxStage = [] → coreOn s = true →
    s.mbxServed ≠ some s.time → unitUndefined s 67 = false →
    ∃ t, exec (.mbxUnit port utag n parts isOpen data) s = .next t ∧ mbxOpen t n.toNat = isOpen ∧
      t.commits = s.commits ++
        [{ servedAt := s.time, who := .pairFwd, write := true, uid := s.nextUid, ringEvent := none, unitNum := none }] ∧
      (∀ x ∈ unitParts parts.toNat data, readCw t 67 (7 * n.toNat + x.1) 0 = encodeCw (cwOfBytes x.2)) ∧ t.intcEvents = s.intcEvents ∧
      SameCellsOutside s t (cellKey 67 (7 * n.toNat) 0 0) (cellKey 67 (7 * n.toNat + 7) 0 0)) ∧
  (∀ (s : State) (port : BitVec 3) (utag : BitVec 12) (n : BitVec 16) (data : List Byte), isPairPort s port.toNat = true → pairApplies s = true →
    (∀ u ∈ s.pair.rxUnits, u.port ≠ port.toNat) → n.toNat < 1024 →
    ∃ t, exec (.vatUnit port utag n data) s = .next t ∧ AcceptSent s t port.toNat utag.toNat ∧ t.cells = s.cells ∧
      ∀ i, i < 8 → rd t (R_VAT_CTL n.toNat + 8 * i) = w64 (leNat (sliceBytes data (8 * i) 8))) ∧
  (∀ (s : State) (port : BitVec 3) (utag : BitVec 12) (base : BitVec 32) (lmask : BitVec 16) (data : List Byte),
    let ls := lineImages (base.toNat - base.toNat % 1024) lmask.toNat data
    isPairPort s port.toNat = true → pairApplies s = true → (∀ x ∈ ls, arrayPresent s.variant x.1 = true) → ls ≠ [] →
    ((∀ u ∈ s.pair.rxUnits, u.port ≠ port.toNat) →
      ∃ t, exec (.linesUnit port utag base lmask data) s = .next t ∧ t.cells = s.cells ∧
        ⟨s.nextUid, port.toNat, utag.toNat, .lines ls, true, ls.length⟩ ∈ t.pair.rxUnits ∧
        t.banks = (ls.foldl (fun z x => pairLine z s.nextUid x.1 0xA0 .write x.2) s).banks) ∧
    (∀ v, s.pair.rxUnits.find? (fun u => u.port = port.toNat) = some v → v.begun = true →
      ∃ t, exec (.linesUnit port utag base lmask data) s = .next t ∧ t.cells = s.cells ∧ t.banks = s.banks ∧
        t.pair.rxUnits = s.pair.rxUnits ++ [⟨s.nextUid, port.toNat, utag.toNat, .lines ls, false, 0⟩])) ∧
  (∀ (s : State) (num : Nat) (u : RxUnit), s.pair.rxUnits.find? (fun u => u.num = num) = some u →
    (u.left ≤ 1 → (∀ a, u.body ≠ .heal a) → (∀ v ∈ s.pair.rxUnits, v.port = u.port → v.num = num) →
      AcceptSent s (rxCommitted s num) u.port u.utag ∧ (rxCommitted s num).pair.rxUnits = s.pair.rxUnits.filter (fun x => x.num != u.num)) ∧
    (1 < u.left → linkOf (rxCommitted s num) u.port = linkOf s u.port)) ∧
  (∀ (s : State) (port : BitVec 3) (utags : List (BitVec 12)), isPairPort s port.toNat = true →
    exec (.acceptUnit port utags) s =
      .next (utags.foldl (fun s t => acceptOne s port.toNat t.toNat) (countSlots s port.toNat 1 1))) ∧
  (∀ (s : State) (p utag : Nat) (u : PairUnit), s.pair.units.find? (fun u => u.port = p && u.utag = utag) = some u →
    (∀ x ∈ s.pair.units, x.port ≠ 8) →
    (acceptOne s p utag).pair.units = s.pair.units.filter (fun x => x.num != u.num)) ∧
  (∀ (s : State) (port : BitVec 3) (utag : BitVec 12) (addr : BitVec 32),
    let a := lineBase addr.toNat
    let c := countSlots s port.toNat 0 1
    isPairPort s port.toNat = true →
    (healAnswered s = false → exec (.healReq port utag addr) s = .next c) ∧
    (healAnswered s = true → arrayPresent s.variant a = true → regionRefuses s (regionOf a) = false →
      ∃ t, exec (.healReq port utag addr) s = .next t ∧ t.cells = s.cells ∧
        ((∀ u ∈ s.pair.rxUnits, u.port ≠ port.toNat) →
          t.pair.rxUnits.getLast? = some ⟨s.nextUid, port.toNat, utag.toNat, .heal a, true, 1⟩ ∧
          t.banks = (pairLine s s.nextUid a 0xA6 .read []).banks) ∧
        (∀ v, s.pair.rxUnits.find? (fun u => u.port = port.toNat) = some v → v.begun = true →
          t.pair.rxUnits = s.pair.rxUnits ++ [⟨s.nextUid, port.toNat, utag.toNat, .heal a, false, 0⟩] ∧ t.banks = s.banks)) ∧
    (healAnswered s = true → arrayPresent s.variant a = false ∨ regionRefuses s (regionOf a) = true →
      exec (.healReq port utag addr) s = .next (sendOn c port.toNat 1 (healDataBytes utag.toNat a none)))) ∧
  (∀ (s : State) (a : Answer) (u : RxUnit), s.pair.rxUnits.find? (fun u => u.num = a.req.uid) = some u → u.body = .heal a.req.addr →
    u.left ≤ 1 → healAnswered s = true → (∀ v ∈ s.pair.rxUnits, v.port = u.port → v.num = u.num) →
    (linkOf (healAnswer s a) u.port).tx = (linkOf s u.port).tx ++
      [(1, healDataBytes u.utag a.req.addr (if a.status = .ok then some (sliceBytes a.data 0 64) else none))]) ∧
  (∀ (s : State) (port : BitVec 3) (utag : BitVec 12) (addr : BitVec 32) (good : Bool) (data : List Byte),
    let a := lineBase addr.toNat
    let c := countSlots s port.toNat 1 (if good then 5 else 1)
    let z := settleTags { c with pair := { s.pair with heals := s.pair.heals.erase (port.toNat, utag.toNat, a) } }
    isPairPort s port.toNat = true → (port.toNat, utag.toNat, a) ∈ s.pair.heals →
    exec (.healData port utag addr good data) s = .next (if good then
        pairLine { z with nextUid := z.nextUid + 1 } z.nextUid a 0xA7 .write (sliceBytes data 0 64)
      else addSat z R_PR_COUNTS PR_COUNTS_HEAL_FAILS 1))

/-- HELLO on a pair port: the partner is known and the port carries units; a target follows its source into MIRRORED; a failed join
check leaves the state and shows its code; a join whose source is decided begins SYNCING. HELLO_SEND when due sends one on each pair
port UP. PAIR_PORT_LOSS of the last port makes MIRRORED into SOLO, or ORPHAN when passive. AUTO_PROMOTE makes ORPHAN SOLO in a new
epoch. SYNC_COPY completes: it issues the read of the next line, semaphore or mailbox on its engine, or the issued read takes its
slot or store cycle and, when no codeword is bad, the item is forwarded; a vat entry is forwarded when it is issued. (R325, R330,
R337, R338, R339, R340, R342, R343, R344) -/
def Obligations.PairStateFollowsThePartner : Prop :=
  (∀ (s : State) (port : BitVec 3) (f : HelloFields), isPairPort s port.toNat = true → pairState s ≠ PS_OFF →
    ∃ t, exec (.helloUnit port f) s = .next t ∧ t.pair.partner = some f ∧ pairPortUp t port.toNat = true ∧ t.cells = s.cells ∧
      (pairState s = PS_SYNCING → pairSource s = false → f.state = 3 →
        pairState t = PS_MIRRORED ∧ pairActive t = pairActive s ∧ rdF t R_PR_EPOCH PR_EPOCH_EPOCH = f.epoch.toNat ∧
        rdB t R_PR_STAT PR_STAT_EV_REJOINED = true) ∧
      (pairState s ∈ [PS_SEEKING, PS_SOLO, PS_ORPHAN] → (s.pair.joining = true ∨ f.state = 1 ∨ f.sourceCmd ≠ 0) →
        (joinCheck s f ≠ 0 → pairState t = pairState s ∧ rdF t R_PR_STAT PR_STAT_JOIN_CODE = joinCheck s f ∧ t.pair.joining = false) ∧
        (joinCheck s f = 0 → sourceHere s f = none → pairState t = pairState s ∧ rdF t R_PR_STAT PR_STAT_JOIN_CODE = 5) ∧
        (∀ src, joinCheck s f = 0 → sourceHere s f = some src →
          pairState t = PS_SYNCING ∧ pairSource t = src ∧ pairActive t = src ∧ t.pair.joining = false))) ∧
  (∀ s : State, fatalState s = false → pairRole s ≠ 0 → pairState s ≠ PS_OFF → (s.pair.helloDue = true ∨ nsPassed s s.pair.helloAt 1000 = true) →
    ∃ t, exec .helloSend s = .next t ∧ t.pair.helloDue = false ∧ t.pair.helloAt = s.time ∧ t.regs = s.regs ∧ t.cells = s.cells ∧
      ∀ p, p ∈ pairPorts s → portUp s p = true → (linkOf t p).tx = (linkOf s p).tx ++ [(3, helloBytes (helloFields s))]) ∧
  (∀ (s : State) (port : BitVec 3),
    let p := port.toNat
    isPairPort s p = true → pairPortUp s p = true → pairState s = PS_MIRRORED →
    ((portUp s p = false ∧ retraining s p = false) ∨ nsPassed s (sget 0 s.pair.lastHello p) (1000 * rdF s R_PR_CFG PR_CFG_LOSS_US) = true) →
    ∃ t, exec (.pairPortLoss port) s = .next t ∧ pairPortUp t p = false ∧ t.cells = s.cells ∧
      pairState t = (if isPairPort s (13 - p) && pairPortUp s (13 - p) then PS_MIRRORED else if pairActive s then PS_SOLO else PS_ORPHAN) ∧
      rdB t R_PR_STAT (if isPairPort s (13 - p) && pairPortUp s (13 - p) then PR_STAT_EV_PORT else PR_STAT_EV_LOST) = true) ∧
  (∀ s : State, pairState s = PS_ORPHAN → rdB s R_PR_CFG PR_CFG_AUTO_PROMOTE = true →
    nsPassed s s.pair.orphanAt (1000000 * rdF s R_PR_CFG PR_CFG_PROMOTE_MS) = true →
    ∃ t, exec .autoPromote s = .next t ∧ pairState t = PS_SOLO ∧ pairActive t = true ∧ t.cells = s.cells ∧
      rdF t R_PR_EPOCH PR_EPOCH_EPOCH = (rdF s R_PR_EPOCH PR_EPOCH_EPOCH + 1) % 2 ^ PR_EPOCH_EPOCH.width) ∧
  (∀ (s : State) (e : Nat),
    let lines := 1024 * s.pair.syncSegs.length
    let i := s.pair.syncPos
    let addr := syncAddr s
    let b := bankIndex s.variant addr
    let unit := physUnit s b (bankLine s.variant addr)
    let d0 := decodeCw (readCw s unit (physLine s unit (bankLine s.variant addr)) 0)
    let d1 := decodeCw (readCw s unit (physLine s unit (bankLine s.variant addr)) 1)
    coreOn s = true → pairState s = PS_SYNCING → pairSource s = true → s.pair.syncFault = none → syncEngine s = some e →
    (i < lines → waitingCopy s b (.engine e 0) 0xE4 = none → syncMayIssue s e = true → regionRefuses s (regionOf addr) = false →
      bankFull s (engRead e 0 addr 64) = false →
      ∃ t, exec .syncCopy s = .next t ∧ (engineOf t e).issued = some s.time ∧ t.pair = s.pair ∧ t.cells = s.cells ∧
        ∃ r, waitingCopy t b (.engine e 0) 0xE4 = some r ∧ r.addr = addr ∧ r.entered = s.time) ∧
    (∀ r, i < lines → waitingCopy s b (.engine e 0) 0xE4 = some r → r.addr = addr → settleHolds s b = s → copyWins s b r = true →
      (∀ d ∈ [d0, d1], d.outcome ≠ .poisoned ∧ d.outcome ≠ .uncorrectable) →
      ∃ t, exec .syncCopy s = .next t ∧
        SyncForwarded s t (linesBytes addr (cwData d0.cw ++ cwData d1.cw)) (some (segmentOf addr))) ∧
    (lines ≤ i → i < lines + 65536 →
      (s.semq = [] → s.semStage = [] → syncMayIssue s e = true →
        ∃ t, exec .syncCopy s = .next t ∧ t.semq = [{ syncStoreOp s e .semCopy (i - lines) with entered := s.time }] ∧
          (engineOf t e).issued = some s.time ∧ t.cells = s.cells) ∧
      (∀ o, semFront s = some o → o ∈ s.semq → o.kind = .semCopy → o.uid = i → o.n = i - lines → s.semServed ≠ some s.time →
        (semDecode s (i - lines)).outcome ≠ .uncorrectable →
        ∃ t, exec .syncCopy s = .next t ∧ t.semServed = some s.time ∧
          SyncForwarded s t (semBytes (i - lines) ((cwData (semDecode s (i - lines)).cw).take 16)) none)) ∧
    (lines + 65536 ≤ i → i < lines + 65536 + numMailboxes s.variant →
      let n := i - lines - 65536
      (s.mbxq = [] → s.mbxStage = [] → syncMayIssue s e = true →
        ∃ t, exec .syncCopy s = .next t ∧ t.mbxq = [{ syncStoreOp s e .mbxCopy n with entered := s.time }] ∧
          (engineOf t e).issued = some s.time ∧ t.cells = s.cells) ∧
      (∀ o, mbxFront s = some o → o ∈ s.mbxq → o.kind = .mbxCopy → o.uid = i → o.n = n → s.mbxServed ≠ some s.time →
        (∀ k, k < 7 → (mbxDecode s n k).outcome ≠ .uncorrectable) →
        ∃ t, exec .syncCopy s = .next t ∧ t.mbxServed = some s.time ∧
          SyncForwarded s t (mbxBytes n 0x7F (mbxOpen s n) ((List.range 7).flatMap (fun k => cwData (mbxDecode s n k).cw))) none)) ∧
    (lines + 65536 + numMailboxes s.variant ≤ i → i < lines + 65536 + numMailboxes s.variant + 1024 →
      let n := i - lines - 65536 - numMailboxes s.variant
      syncMayIssue s e = true → pairBlocked s (storePort s) = false →
      ∃ t, exec .syncCopy s = .next t ∧ (engineOf t e).issued = some s.time ∧ SyncForwarded s t (vatBytes n (vatEntryBytes s n)) none))

/-- RETAIN_WAKE_DONE takes a waking region to ACTIVE, or on to OFF, or defers OFF while a test or racking job holds it;
RETAIN_IDLE_TIMEOUT begins its return to RETAIN; RETAIN_ENTRY_DONE rests it, wakes it for a waiting access, or, where OFF is its target
and a test or job holds it, takes it to DEFERRED, in which it serves (DESIGN CHOICE, log entry 72); OFF_WAKE_DONE leaves every line of
its units clean and zero, and defers a change that a test or job holds off. HOLD_ENTRY sets HOLD, notes the voltage and raises S4098; HOLD_END, 20 µs later at least,
clears it and records its length. (R349, R350, R351, R358, R359) -/
def Obligations.RegionsAndHoldFollowTheirEvents : Prop :=
  (∀ (s : State) (region : BitVec 3),
    let h := region.toNat
    coreOn s = true →
    (regionState s h = RS_WAKING → wakingFromOff s h = false → enteringOff s h = false →
      ∃ t, exec (.retainWakeDone region) s = .next t ∧ t.cells = s.cells ∧
        sget 0 t.power.regionAt h = s.time + rdF s R_PWR_CTL PWR_CTL_RETAIN_IDLE_US * 1600 ∧
        regionState t h = (if effectiveTarget s h ≠ 2 then RS_ACTIVE else if regionHeldByTest s h then RS_DEFERRED
          else if regionWaiting s h then RS_ENTERING else RS_OFF)) ∧
    (regionState s h = RS_ACTIVE → effectiveTarget s h = 1 → sget 0 s.power.regionAt h ≤ s.time → regionWaiting s h = false →
      regionHeldByTest s h = false →
      exec (.retainIdleTimeout region) s = .next (setRegionState s h RS_ENTERING)) ∧
    (regionState s h = RS_ENTERING → enteringOff s h = false → effectiveTarget s h ≠ 2 →
      ∃ t, exec (.retainEntryDone region) s = .next t ∧ t.cells = s.cells ∧ t.banks = s.banks ∧
        regionState t h = (if regionWaiting s h || effectiveTarget s h = 0 then RS_WAKING else RS_RETAIN)) ∧
    (regionState s h = RS_ENTERING → enteringOff s h = false → wakingFromOff s h = false → effectiveTarget s h = 2 → regionHeldByTest s h = true →
      ∃ t, exec (.retainEntryDone region) s = .next t ∧ regionState t h = RS_DEFERRED ∧ t.cells = s.cells) ∧
    (∀ a, s.power.offWake.find? (fun w => w.1 = h) = some a → a.2 + clearCycles ≤ s.time →
      ∃ t, exec (.offWakeDone region) s = .next t ∧ wakingFromOff t h = false ∧
        (∀ k, cellByte t k = if k / (131072 * 128) ∈ regionUnits s h then 0 else cellByte s k) ∧
        (bitOf (rdF s R_PR_MIRROR PR_MIRROR_REGIONS) h = true → rdB t R_PR_EPOCH PR_EPOCH_UNCLEAN = true) ∧
        (effectiveTarget s h = 0 → regionState t h = RS_ACTIVE) ∧
        (effectiveTarget s h ≠ 0 → regionHeldByTest s h = true → regionState t h = RS_DEFERRED))) ∧
  (∀ (s : State) (mv : BitVec 16), s.power.clock ≠ .none → inHold s = false →
    ∃ t, exec (.holdEntry mv) s = .next t ∧ inHold t = true ∧ rdF t R_PWR_BROWN PWR_BROWN_MIN_MV = mv.toNat ∧ t.power.holdSince = s.time ∧
      rdF t R_PWR_BROWN PWR_BROWN_HOLDS = min (rdF s R_PWR_BROWN PWR_BROWN_HOLDS + 1) (2 ^ PWR_BROWN_HOLDS.width - 1) ∧
      4098 ∈ t.intcEvents ∧ t.cells = s.cells ∧ t.txns = s.txns) ∧
  (∀ (s : State) (mv : BitVec 16), inHold s = true → s.power.holdSince + 32000 ≤ s.time →
    ∃ t, exec (.holdEnd mv) s = .next t ∧ inHold t = false ∧ rdF t R_PWR_BROWN PWR_BROWN_MIN_MV = mv.toNat ∧ t.cells = s.cells ∧
      rdF t R_PWR_HOLDTIME PWR_HOLDTIME_LAST_US = (s.time - s.power.holdSince) / 1600 % 2 ^ PWR_HOLDTIME_LAST_US.width)

/-- BROWNOUT_RESET (kind 2), POWER_ON of a device that is off (kind 1, device time 0, every unit undefined: DESIGN CHOICE, log entry 26),
PIN_RESET (kind 3) once a start has begun, REFCLK_RETURN (kind 3), and a completed warm reset (kind 4) leave the state of a reset.
PIN_RESET before that keeps KIND and ends a HOLD. RAIL_FAIL leaves the device without a clock, its requests discarded at once and its
triple-kept words as they stand (DESIGN CHOICE, log entry 43); its operand tells what VIO does. RESET_N_RISE ends the wait for RESET_N;
REFCLK_LOSS takes every enabled port DOWN, with its event, and the core to its oscillator; SC_HALT raises S4097. (R354, R355, R357, R427, R428, R430, R435) -/
def Obligations.ResetsBeginTheStartAnew : Prop :=
  (∀ s : State, s.power.clock ≠ .none →
    (∃ t, exec .brownoutReset s = .next t ∧ IsReset s t 2 ∧ t.time = s.time ∧ t.power.clock = s.power.clock) ∧
    (∃ t, exec (.railFail false) s = .next t ∧ t.power.clock = .none ∧ t.power.step = none ∧ t.txns = [] ∧ t.banks = [] ∧ t.tk = s.tk ∧
      t.power.vioOn = true) ∧
    (∃ t, exec (.railFail true) s = .next t ∧ t.power.clock = .none ∧ t.power.vioOn = false) ∧
    (s.power.resetLow = false →
      ¬(s.power.step = some 0 ∧ rdF s R_PWR_ATTEMPT (PWR_ATTEMPT_ATT_S 0) = 0 ∧ startKind s < 3) →
      ∃ t, exec .pinReset s = .next t ∧ IsReset s t 3 ∧ t.power.resetLow = true ∧ t.time = s.time) ∧
    (s.power.resetLow = false → s.power.step = some 0 → rdF s R_PWR_ATTEMPT (PWR_ATTEMPT_ATT_S 0) = 0 → startKind s < 3 →
      ∃ t, exec .pinReset s = .next t ∧ t.power.resetLow = true ∧ inHold t = false ∧ startKind t = startKind s ∧ t.power.step = some 0 ∧
        t.cells = s.cells) ∧
    (s.power.scHalted = false → exec .scHalt s = .next (raiseSource { s with power := { s.power with scHalted := true } } 4097))) ∧
  (∀ (s : State) (vio : Bool), s.power.clock = .none →
    ∃ t, exec (.railFail vio) s = .next t ∧ t.power = { s.power with vioOn := !vio } ∧ t.regs = s.regs ∧ t.cells = s.cells ∧
      (vio = false → t.mgmt = s.mgmt)) ∧
  (∀ s : State, s.power.clock = .none →
    ∃ t, exec .powerOn s = .next t ∧ IsReset s t 1 ∧ t.time = 0 ∧ t.power.clock = .pll ∧ ∀ u, u < 68 → unitUndefined t u = true) ∧
  (∀ s : State, exec .resetNRise s = .next { s with power := { s.power with resetLow := false } }) ∧
  (∀ s : State, s.power.clock = .pll →
    ∃ t, exec .refclkLoss s = .next t ∧ t.power.clock = .oscillator ∧ t.cells = s.cells ∧
      ∀ p, p < numPorts s.variant → linkState t p = (if linkState s p = LS_DISABLED then LS_DISABLED else LS_DOWN) ∧
        (linkState s p ≠ LS_DISABLED → linkState s p ≠ LS_DOWN →
          rdB t (R_PT_STAT p) PT_STAT_SESSION = false ∧ rdB t (R_PT_STAT p) PT_STAT_EV_DOWN = true ∧ 4104 + p ∈ t.intcEvents)) ∧
  (∀ s : State, s.power.clock = .oscillator ∨ s.power.clock = .stopped →
    ∃ t, exec .refclkReturn s = .next t ∧ IsReset s t 3 ∧ t.power.clock = .pll ∧ rdB t R_PWR_DEVSTAT PWR_DEVSTAT_REFCLK_LOST = true) ∧
  (∀ s : State, IsReset s (deviceReset s 4) 4 ∧ (s.power.warmPending = true → warmDrained s = true → warmStep s = deviceReset s 4))

/-- START_STEP with no warm reset pending runs an attempt of the step in progress; a warm reset that has drained completes first. S0
without a lost item counts the start; S1 leaves the three copies of each triple-kept word equal: the majority kept, or after
power-on the words without keep-store backing at reset (TK6 follows the record). S3 leaves every line of the array clean and zero,
S6 the semaphores zero and the vat table at reset, S11 sets READY and ends the sequence. S4_TIMEOUT is a failed attempt, code 2
after two, with the lines left open recorded; S8_TIMEOUT ends S8, code 3 unless every port is UP at its rate; S9_TIMEOUT repeats once, then skips the join with code 2.
(R69, R93, R360, R362, R364, R365, R366) -/
def Obligations.StartStepsRunInOrder : Prop :=
  (∀ (s : State) (rep : StepReport) (k : Nat), s.power.step = some k → startRuns s = true →
    (s.power.warmPending = false → exec (.startStep rep) s = .next (runStep s k rep)) ∧
    (s.power.warmPending = true → warmDrained s = true → exec (.startStep rep) s = .next (runStep (deviceReset s 4) 0 rep))) ∧
  (∀ (s : State) (rep : StepReport),
    (rep.ok = true → lostItems rep = [] → (runStep s 0 rep).power.step = some 1 ∧ startsOf (runStep s 0 rep) = (startsOf s + 1) % 2 ^ 32) ∧
    ((runStep s 1 rep).power.step = some (stepAfter s 1) ∧ ∀ n, n < 96 → n ≠ 6 →
      let d := tkReset s.variant n
      let m := majority (sget (d, d, d) s.tk n)
      sget (d, d, d) (runStep s 1 rep).tk n = (if 3 ≤ startKind s ∨ tkBacked n = true then (m, m, m) else (d, d, d))) ∧
    ((runStep s 3 rep).power.step = some (stepAfter s 3) ∧ ∀ k, k / (131072 * 128) < 66 → cellByte (runStep s 3 rep) k = 0) ∧
    ((runStep s 6 rep).power.step = some (stepAfter s 6) ∧ (∀ k, k / (131072 * 128) = 66 → cellByte (runStep s 6 rep) k = 0) ∧
      ∀ n, n < 1024 → rd (runStep s 6 rep) (R_VAT_CTL n) = regReset s.variant (R_VAT_CTL n)) ∧
    ((runStep s 11 rep).power.step = none ∧ rdB (runStep s 11 rep) R_PWR_DEVSTAT PWR_DEVSTAT_READY = true ∧
      rdF (runStep s 11 rep) R_PWR_START PWR_START_REACHED = 11)) ∧
  (∀ s : State, stepLate s 4 10 = true →
    (s.power.attempt = 0 → ∃ t, exec .s4Timeout s = .next t ∧ t.power.step = some 4 ∧ t.power.attempt = 1 ∧ t.power.stepAt = s.time ∧
      rdF t R_PWR_START PWR_START_FAILED = 4 ∧ t.cells = s.cells) ∧
    (s.power.attempt ≠ 0 → ∃ t, exec .s4Timeout s = .next t ∧ t.power.step = some (stepAfter s 4) ∧
      rdF t R_PWR_DECIDE (PWR_DECIDE_CODE_S 4) = 2 ∧ t.cells = s.cells ∧
      (rdF s R_TST_RESULT TST_RESULT_FAILS = 0 → (∃ u ∈ marchedUnits s, openLines s u ≠ []) → rdF t R_TST_RESULT TST_RESULT_FAILS ≠ 0))) ∧
  (∀ s : State, stepLate s 8 s.power.s8Ms = true →
    ∃ t, exec .s8Timeout s = .next t ∧ t.power.step = some 9 ∧ rdF t R_PWR_DECIDE (PWR_DECIDE_CODE_S 8) = (if portsBelow s = [] then 0 else 3) ∧
      t.cells = s.cells) ∧
  (∀ s : State, stepLate s 9 s.power.s9Ms = true → pairStarts s = true → pairState s ≠ PS_SYNCING → pairState s ≠ PS_MIRRORED →
    rdF s R_PWR_ATTEMPT (PWR_ATTEMPT_ATT_S 9) ≠ 0 →
    (s.power.attempt < 2 → ∃ t, exec .s9Timeout s = .next t ∧ t.power.step = some 9 ∧ t.power.attempt = s.power.attempt + 1 ∧
      t.power.stepAt = s.time ∧ rdF t R_PWR_START PWR_START_FAILED = 9 ∧ t.cells = s.cells) ∧
    (2 ≤ s.power.attempt → ∃ t, exec .s9Timeout s = .next t ∧ t.power.step = some 10 ∧ rdF t R_PWR_DECIDE (PWR_DECIDE_CODE_S 9) = 2 ∧
      pairState t = (if pairRole s = 1 then PS_SOLO else PS_ORPHAN) ∧ t.cells = s.cells))

/-- FATAL_ERROR of a cause of the table: detection time, CAUSE, DETAIL and TIME are noted, the sampler stops, every engine is frozen
when the SC handles it, with RESULT 2 when there is no cellar area; a further one raises COUNT alone. The SC reads the descriptors,
makes the record, and writes its lines one access after another; CELLAR_RECORD_DONE ends with RESULT 1 once all are written, and
does nothing before (log entry 74); FATAL_WATCHDOG ends with RESULT 3 after 10 ms. Each end raises S4096 and sets FATAL_DONE. (R172,
R416, R417, R418) -/
def Obligations.FatalErrorsAreRecorded : Prop :=
  (∀ (s : State) (cause : BitVec 8) (detail : BitVec 32), coreOn s = true → s.power.resetLow = false → 1 ≤ cause.toNat → cause.toNat ≤ 4 →
    (fatalState s = true → exec (.fatalError cause detail) s = .next (addSat s R_CEL_LAST CEL_LAST_COUNT 1)) ∧
    (fatalState s = false → ∃ t, exec (.fatalError cause detail) s = .next t ∧ t.power.fatalAt = some s.time ∧ t.cells = s.cells ∧
      rdF t R_CEL_STAT CEL_STAT_CAUSE = cause.toNat ∧ rdF t R_CEL_STAT CEL_STAT_DETAIL = detail.toNat ∧ rd t R_CEL_TIME = w64 s.time ∧
      rdB t R_SMP_CTL SMP_CTL_ENABLE = false ∧
      rdF t R_CEL_LAST CEL_LAST_COUNT = min (rdF s R_CEL_LAST CEL_LAST_COUNT + 1) (2 ^ CEL_LAST_COUNT.width - 1) ∧
      (s.power.scHalted = false → cause.toNat ≠ 3 → (∀ e, e < numEngines s.variant → engState t e = 3) ∧
        (rdB s R_CEL_CTL CEL_CTL_ENABLE = false → rdF t R_CEL_STAT CEL_STAT_RESULT = 2 ∧ t.power.fatalDone = true ∧ 4096 ∈ t.intcEvents)))) ∧
  (∀ s : State, fatalState s = true → s.power.fatalDone = false → scHandlesFatal s = true → rdB s R_CEL_CTL CEL_CTL_ENABLE = true →
    (s.mgmt.cellar.phase = .written → ∃ t, exec .cellarRecordDone s = .next t ∧ t.cells = s.cells ∧ t.power.fatalDone = true ∧
      rdF t R_CEL_STAT CEL_STAT_RESULT = 1 ∧ rdF t R_CEL_LAST CEL_LAST_RESULT = 1 ∧ 4096 ∈ t.intcEvents) ∧
    (s.mgmt.cellar.phase ≠ .written → exec .cellarRecordDone s = .next s)) ∧
  (∀ s : State, s.mgmt.cellar.acc = none → coreOn s = true → scRuns s = true →
    (s.mgmt.cellar.phase = .reading → s.mgmt.cellar.reads = [] → cellarCycle s =
      setCellar s (fun c => { c with phase := .writing, writes := cellarLines s.variant (cellarRecord s) })) ∧
    (∀ x rest, s.mgmt.cellar.phase = .writing → s.mgmt.cellar.writes = x :: rest → arrayPresent s.variant x.1 = true →
      regionRefuses s (regionOf x.1) = false → ∃ a, (cellarCycle s).mgmt.cellar.acc = some a ∧ a.req.addr = lineBase x.1 ∧ a.req.data = x.2 ∧
        (cellarCycle s).cells = s.cells) ∧
    (s.mgmt.cellar.phase = .writing → s.mgmt.cellar.writes = [] → cellarCycle s = setCellar s (fun c => { c with phase := .written }))) ∧
  (∀ (s : State) (a : EngAcc), a.req.op = .write →
    (cellarTook s a).mgmt.cellar.writes = (if a.status = .ok then s.mgmt.cellar.writes.drop 1 else s.mgmt.cellar.writes)) ∧
  (∀ (s : State) (x : Nat), s.power.fatalAt = some x → coreOn s = true → s.power.fatalDone = false → x + 16000000 ≤ s.time →
    ∃ t, exec .fatalWatchdog s = .next t ∧ rdF t R_CEL_STAT CEL_STAT_RESULT = 3 ∧ t.power.fatalDone = true ∧ 4096 ∈ t.intcEvents ∧ t.cells = s.cells)

/-- Each frame of the chain passes on with what follows it. One that is good at this device: ENUM rewrites the token and gives the
address; LINE joins the lines to run unless it is empty, or counts DROPPED while one runs or text waits; POLL returns waiting text or EMPTY; STATUS
returns the snapshot; PEEK does too and begins its read, whose answer PEEK_DONE holds, made again when a reset has taken it; an
undefined TYPE counts BADTYPE. A runt or a bad CRC, of a frame of any type, is counted and nothing else is done; a frame addressed
elsewhere is passed on and not counted. (R373, R376, R377, R378, R379, R380, R381, R382) -/
def Obligations.ChainFramesAreAnswered : Prop :=
  (∀ (s : State) (f : ChainFrame),
    let k := (f.payload.getD 0 0).toNat
    f.addr = 63 → FrameGood s f 1 true →
    ∃ t bs, exec (.enumFrame f) s = .next t ∧ FrameActed s t f bs ∧ chainAddr t = (if 1 ≤ k ∧ k ≤ 62 then k else 0) ∧ t.mgmt = s.mgmt ∧
      bs.length = f.len.toNat + 5 + f.rest.length ∧ bs.drop (f.len.toNat + 5) = f.rest ∧ (f.len ≠ 0 → (bs.getD 3 0).toNat = (if 1 ≤ k ∧ k ≤ 62 then k + 1 else 63))) ∧
  (∀ (s : State) (f : ChainFrame), FrameGood s f 2 false →
    ∃ t, exec (.lineFrame f) s = .next t ∧ FrameActed s t f (frameBytes f 2 ++ f.rest) ∧ t.mgmt.reply = s.mgmt.reply ∧
      (s.mgmt.lines.any (fun l => l.1 = .chain) = false → s.mgmt.reply = [] →
        t.mgmt.lines = (if lineEmpty true (sliceBytes f.payload 0 f.len.toNat) then s.mgmt.lines
          else s.mgmt.lines ++ [(.chain, s.time, sliceBytes f.payload 0 f.len.toNat)])) ∧
      (s.mgmt.lines.any (fun l => l.1 = .chain) = true ∨ s.mgmt.reply ≠ [] → t.mgmt.lines = s.mgmt.lines ∧
        (counting s 0x2A = true → rdF t R_MG_CHAINERR MG_CHAINERR_DROPPED =
          min (rdF s R_MG_CHAINERR MG_CHAINERR_DROPPED + 1) (2 ^ MG_CHAINERR_DROPPED.width - 1)))) ∧
  (∀ (s : State) (f : ChainFrame), f.addr ≠ 63 → FrameGood s f 3 false →
    let alive := coreOn s && !s.power.scHalted
    (alive = true → s.mgmt.reply ≠ [] →
      let r := replyFrame s 0x83 (s.mgmt.reply.take 250)
      ∃ t, exec (.pollFrame f) s = .next t ∧ FrameActed s t f (frameBytes f 3 ++ r ++ f.rest.drop r.length) ∧
        t.mgmt.reply = (if replyWhole f r.length then s.mgmt.reply.drop 250 else s.mgmt.reply)) ∧
    (alive = false ∨ s.mgmt.reply = [] →
      ∃ t, exec (.pollFrame f) s = .next t ∧ t.mgmt = s.mgmt ∧ FrameActed s t f (frameBytes f 3 ++ replyFrame s 0x84
        [if alive = false then 2 else if s.mgmt.lines.any (fun l => l.1 = .chain) then 1 else 0] ++ f.rest.drop 6))) ∧
  (∀ (s : State) (f : ChainFrame), f.addr ≠ 63 → FrameGood s f 4 false →
    ∃ t, exec (.statusFrame f) s = .next t ∧ FrameActed s t f (frameBytes f 4 ++ replyFrame s 0x85 (snapBytes s) ++ f.rest.drop 37) ∧ t.mgmt = s.mgmt) ∧
  (∀ (s : State) (f : ChainFrame),
    let a := leNat (sliceBytes f.payload 0 4)
    f.addr ≠ 63 → FrameGood s f 5 false →
    ∃ t, exec (.peekFrame f) s = .next t ∧ FrameActed s t f (frameBytes f 5 ++ replyFrame s 0x85 (snapBytes s) ++ f.rest.drop 37) ∧ t.mgmt.peekAddr = a ∧
      t.mgmt.peekState = (if peekRefused s.variant a then 4 else if s.power.clock = .pll then 2 else 3) ∧ t.mgmt.lines = s.mgmt.lines) ∧
  (∀ s : State, s.mgmt.peekState = 2 → coreOn s = true →
    (∀ a, s.mgmt.peekAcc = some a → scDone a = true →
      ∃ t, exec .peekDone s = .next t ∧ t.mgmt.peekState = 1 ∧ t.mgmt.peekRsp = statusCode a.status ∧ t.mgmt.peekAcc = none ∧
        t.mgmt.peekData = (if a.status = .ok then w64 (leNat a.data0) else 0) ∧ t.regs = s.regs ∧ t.cells = s.cells) ∧
    (∀ a, s.mgmt.peekAcc = some a → scDone a = false → exec .peekDone s = .next s) ∧
    (s.mgmt.peekAcc = none → exec .peekDone s = .next (peekTake (peekIssue s)) ∧
      (keyOf s.mgmt.peekAddr < 0x10000 → decodeReg s (scReq .read (keyOf s.mgmt.peekAddr) 0) = none →
        regRetry s (scReq .read (keyOf s.mgmt.peekAddr) 0) = false →
        (peekTake (peekIssue s)).mgmt.peekState = 1 ∧ (peekTake (peekIssue s)).mgmt.peekRsp = statusCode .ok ∧
        (peekTake (peekIssue s)).mgmt.peekData = regRead s (keyOf s.mgmt.peekAddr)))) ∧
  (∀ (s : State) (f : ChainFrame) (typ : Byte), typeUndefined f typ.toNat = true → FrameGood s f typ false →
    ∃ t, exec (.undefinedTypeFrame f typ) s = .next t ∧ t.mgmt = s.mgmt ∧ t.cells = s.cells ∧
      t.out = .mdo true :: .frame ((frameBytes f typ ++ f.rest).take (f.received - 1)) :: s.out ∧
      (counting s 0x2A = true → rdF t R_MG_CHAINERR MG_CHAINERR_BADTYPE =
        min (rdF s R_MG_CHAINERR MG_CHAINERR_BADTYPE + 1) (2 ^ MG_CHAINERR_BADTYPE.width - 1))) ∧
  (∀ (c : Instr) (s : State) (f : ChainFrame) (typ : Byte) (enum : Bool),
    FrameRow f c typ enum → s.power.vioOn = true →
    (frameFate s f typ enum = .runt → ∃ t, exec c s = .next t ∧ FrameDropped s t f typ ∧
      (counting s 0x2A = true → rdF t R_MG_CHAINCNT MG_CHAINCNT_RUNT =
        min (rdF s R_MG_CHAINCNT MG_CHAINCNT_RUNT + 1) (2 ^ MG_CHAINCNT_RUNT.width - 1))) ∧
    (frameFate s f typ enum = .badCrc → ∃ t, exec c s = .next t ∧ FrameDropped s t f typ ∧
      (counting s 0x2A = true → rdF t R_MG_CHAINCNT MG_CHAINCNT_CRC_ERR =
        min (rdF s R_MG_CHAINCNT MG_CHAINCNT_CRC_ERR + 1) (2 ^ MG_CHAINCNT_CRC_ERR.width - 1))) ∧
    (frameFate s f typ enum = .ignored → ∃ t, exec c s = .next t ∧ FrameDropped s t f typ ∧ t.regs = s.regs))

/-- CONSOLE_CHARACTER keeps a printable character, or discards it while 256 are held, and CR completes the line; BREAK returns the console to 115,200 baud, human mode and
watch level. On a line that names it: UNLOCK with the phrase gives keeper level and clears FAILS, a wrong one counts and the fifth
locks for 60 s; LOCK takes the level back; PHRASE replaces the phrase; MODE sets the console's mode after the reply. KEEPER_TIMEOUT
and LOCKOUT_TICK act in their time; UNKNOWN_COMMAND answers the error. (R383, R384, R385, R389, R390, R395, R396, R397) -/
def Obligations.ConsoleAndSessionsFollowTheirCommands : Prop :=
  (∀ (s : State) (c : Byte), s.power.vioOn = true → scRuns s = true →
    let echo := if s.mgmt.console.machine then s.out else .console [if inPhrase s.mgmt.rx c then 0x2A else c] :: s.out
    (0x20 ≤ c.toNat → c ≠ 0x7F →
      ∃ t, exec (.consoleCharacter c) s = .next t ∧ t.mgmt.rx = (if consoleHeld s < 256 then s.mgmt.rx ++ [c] else s.mgmt.rx) ∧ t.mgmt.lines = s.mgmt.lines ∧ t.regs = s.regs ∧ t.out = echo) ∧
    (c = 0x0D → lineEmpty s.mgmt.console.machine s.mgmt.rx = false → s.mgmt.lines.all (fun l => l.2.1 != s.time) = true →
      ∃ t, exec (.consoleCharacter c) s = .next t ∧ t.mgmt.rx = [] ∧ t.mgmt.lines = s.mgmt.lines ++ [(.console, s.time, s.mgmt.rx)] ∧ t.regs = s.regs)) ∧
  (∀ s : State, s.power.vioOn = true → coreOn s = true →
    ∃ t, exec .consoleBreak s = .next t ∧ rdF t R_MG_CONSOLE MG_CONSOLE_BAUD = 0 ∧ t.mgmt.console.machine = false ∧ t.mgmt.console.keeper = false ∧
      t.mgmt.rx = [] ∧ t.mgmt.chain = s.mgmt.chain ∧ t.cells = s.cells) ∧
  (∀ (s : State) (x : Session) (ws : List (List Byte)),
    let fails := rdF s R_MG_KEEPLOCK MG_KEEPLOCK_FAILS
    (LineNames s x .unlock false ws → ws.length = 2 → isPhrase (word ws 1) = true → rdB s R_MG_KEEPLOCK MG_KEEPLOCK_LOCKED = false →
      (word ws 1 = s.mgmt.phrase → ∃ t, exec (.unlockCmd x) s = .next t ∧ (sessOf t x).keeper = true ∧
        rdF t R_MG_KEEPLOCK MG_KEEPLOCK_FAILS = 0 ∧ t.mgmt.lines = s.mgmt.lines.tail ∧ t.cells = s.cells) ∧
      (word ws 1 ≠ s.mgmt.phrase → fails < 7 → ∃ t, exec (.unlockCmd x) s = .next t ∧ (sessOf t x).keeper = (sessOf s x).keeper ∧
        rdF t R_MG_KEEPLOCK MG_KEEPLOCK_FAILS = fails + 1 ∧ rdB t R_MG_KEEPLOCK MG_KEEPLOCK_LOCKED = decide (fails = 4) ∧
        (fails = 4 → rdF t R_MG_KEEPLOCK MG_KEEPLOCK_LOCK_S = 60) ∧ t.mgmt.lines = s.mgmt.lines.tail)) ∧
    (LineNames s x .lock false ws → ws.length = 1 →
      ∃ t, exec (.lockCmd x) s = .next t ∧ (sessOf t x).keeper = false ∧ t.mgmt.lines = s.mgmt.lines.tail ∧ t.mgmt.phrase = s.mgmt.phrase) ∧
    (LineNames s x .phrase true ws → ws.length = 3 → isPhrase (word ws 1) = true → isPhrase (word ws 2) = true → word ws 1 = s.mgmt.phrase →
      ∃ t, exec (.phraseCmd x) s = .next t ∧ t.mgmt.phrase = word ws 2 ∧ t.mgmt.lines = s.mgmt.lines.tail) ∧
    (LineNames s x .modeHuman false ws → ws.length = 2 →
      ∃ t, exec (.modeHuman x) s = .next t ∧ t.mgmt.lines = s.mgmt.lines.tail ∧ (x = .console → t.mgmt.console.machine = false)) ∧
    (LineNames s x .modeMachine false ws → ws.length = 2 →
      ∃ t, exec (.modeMachine x) s = .next t ∧ t.mgmt.lines = s.mgmt.lines.tail ∧ (x = .console → t.mgmt.console.machine = true))) ∧
  (∀ (s : State) (x : Session), scRuns s = true → (sessOf s x).keeper = true → (sessOf s x).lastCmd + 900 * secondCycles ≤ s.time →
    exec (.keeperTimeout x) s = .next (setLevel s x false)) ∧
  (∀ s : State, coreOn s = true → rdB s R_MG_KEEPLOCK MG_KEEPLOCK_LOCKED = true → s.mgmt.nextTick ≤ s.time →
    ∃ t, exec .lockoutTick s = .next t ∧ t.mgmt.nextTick = s.mgmt.nextTick + secondCycles ∧ t.cells = s.cells ∧
      rdF t R_MG_KEEPLOCK MG_KEEPLOCK_LOCK_S = rdF s R_MG_KEEPLOCK MG_KEEPLOCK_LOCK_S - 1 ∧
      rdB t R_MG_KEEPLOCK MG_KEEPLOCK_LOCKED = decide (1 < rdF s R_MG_KEEPLOCK MG_KEEPLOCK_LOCK_S)) ∧
  (∀ (s : State) (x : Session) (at_ e : Nat) (l : List Byte) (rest : List (Session × Nat × List Byte)),
    s.mgmt.lines = (x, at_, l) :: rest → shexaMay s = true → lineRow (sessOf s x).machine l = .error e →
    exec (.unknownCommand x) s = .next (afterReply (endLine s x (.err e)) x))

/-- Each of 25 setting rows completes: of a line that names it at keeper level, with no access of the SC's under way and the register
open to it, the row reads the register and writes it back with the fields or the port's bit it names, or writes the register's word;
the command ends with the reply to that write, an error where the write is refused. A line of another form is answered with an error
and does nothing else. Without keeper level the answer is err 05. A command that ends leaves the lines and counts. (R252, R254,
R255, R393, R394, R398) -/
def Obligations.ShexaSettingsWriteTheirRegisters : Prop :=
  (∀ (s : State) (x : Session) (ws : List (List Byte)) (c : Instr) (row : ShexaRow),
    (∀ g, (c, row, g) ∈ fieldRows x → LineNames s x row true ws →
      (∀ key l r, g s ws = some (key, l) → findRow key = some r → ScMayRead s key → (scReadNow s key).1 = .ok →
        let s1 := (scReadNow s key).2.2
        let v := l.foldl (fun w p => setF w p.1 p.2) (writeBack (scReadNow s key).2.1 r.fields ⟨0, 0⟩ 0)
        ScMayWrite s1 key v → exec c s = .next (scWroteLine s1 x key v)) ∧
      (g s ws = none → ∃ e, exec c s = .next (finishLine x (replied (.err e) s)))) ∧
    (∀ g, (c, row, g) ∈ wholeRows x → LineNames s x row true ws →
      (∀ key v, g s ws = some (key, v) → s.mgmt.scAcc = none → ScMayWrite s key v →
        ((scWriteNow s key v).status = .ok → exec c s = .next (scWroteLine s x key v)) ∧
        ((scWriteNow s key v).status ≠ .ok → ∃ e, exec c s = .next (finishLine x (replied (.err e) (scWritten s key v))))) ∧
      (g s ws = none → ∃ e, exec c s = .next (finishLine x (replied (.err e) s)))) ∧
    (∀ key on, (c, row, key, on) ∈ bitRows x → LineNames s x row true ws →
      (∀ p, ws.length = 3 → portArg s (word ws 1) = some p → ScMayRead s key → (scReadNow s key).1 = .ok →
        let s1 := (scReadNow s key).2.2
        let old := (scReadNow s key).2.1
        let v := if on = true then old ||| w64 (2 ^ p) else old &&& ~~~(w64 (2 ^ p))
        ScMayWrite s1 key v → exec c s = .next (scWroteLine s1 x key v)) ∧
      (ws.length ≠ 3 ∨ portArg s (word ws 1) = none → ∃ e, exec c s = .next (finishLine x (replied (.err e) s)))) ∧
    (((∃ g, (c, row, g) ∈ fieldRows x) ∨ (∃ g, (c, row, g) ∈ wholeRows x) ∨ (∃ key on, (c, row, key, on) ∈ bitRows x)) →
      LineNames s x row false ws → (sessOf s x).keeper = false → exec c s = .next (finishLine x (replied (.err 5) s)))) ∧
  (∀ (s : State) (x : Session) (rep : Reply),
    let t := finishLine x (replied rep s)
    t.mgmt.lines = s.mgmt.lines.tail ∧ (sessOf t x).lastCmd = s.time ∧ (sessOf t x).keeper = (sessOf s x).keeper ∧ t.cells = s.cells ∧
    t.mgmt.scAcc = s.mgmt.scAcc ∧
    (counting s 0x2A = true → rdF t R_MG_SHEXA MG_SHEXA_COMMANDS = (rdF s R_MG_SHEXA MG_SHEXA_COMMANDS + 1) % 2 ^ MG_SHEXA_COMMANDS.width)) ∧
  (∀ (s : State) (v : List Byte),
    let t := finishLine .chain (replied (.ok v) s)
    t.mgmt.console = s.mgmt.console ∧
    t.mgmt.reply = (s.mgmt.reply ++ (asciiBytes "ok" ++ (if v.isEmpty then [] else 0x20 :: v)) ++
      suffixOf (asciiBytes "ok" ++ (if v.isEmpty then [] else 0x20 :: v)) ++ [0x0A]).take 4096)

/-- Of a line that names the row: GET of an address, register or field reads it and answers its value, SET writes it; an access that is
not complete leaves the line waiting; a register that is open is read or written at once. HELP, SHOW and RECORD_START answer lines
whose text the spec leaves free; RECORD_CELLAR reads the area line by line, then says none, or lists header and sections; RESET_WARM
with its confirm and RESET_PORT are answered and then begin the reset; CONSOLE_BAUD, or a SET of its register, is answered and then
takes the rate. (R355, R383, R393, R394,
R419) -/
def Obligations.ShexaReadsAndAccessesAnswer : Prop :=
  (∀ (s : State) (x : Session) (ws : List (List Byte)),
    let keeper := (sessOf s x).keeper
    (LineNames s x .get false ws → ws.length = 2 →
      (∀ a, LineTarget (word ws 1) a → (readHasEffect s.variant a = false ∨ keeper = true) →
        (∀ st v, (scAccess s .read a 0).1 = some (st, v) → exec (.getCmd x) s =
          .next (finishLine x (replied (if st = .ok then .ok (hexText v) else .err (statusErr st)) (scAccess s .read a 0).2))) ∧
        ((scAccess s .read a 0).1 = none → exec (.getCmd x) s = .next (scAccess s .read a 0).2)) ∧
      (∀ a, LineTarget (word ws 1) a → readHasEffect s.variant a = true → keeper = false → exec (.getCmd x) s = .next (finishLine x (replied (.err 5) s))) ∧
      (∀ key r f, startsDigit (word ws 1) = false → findTarget (word ws 1) = .ok (key, r, some f) → regPresent s.variant key = true →
        (f.access = .wo → exec (.getCmd x) s = .next (finishLine x (replied (.err 8) s))) ∧
        (f.access ≠ .wo → (isClaimKey key = false ∨ keeper = true) →
          (∀ st v, (scRead s key).1 = some (st, v) → exec (.getCmd x) s = .next (finishLine x
            (replied (if st = .ok then .ok (decText (getF (w64 v) f.fld)) else .err (statusErr st)) (scRead s key).2))) ∧
          ((scRead s key).1 = none → exec (.getCmd x) s = .next (scRead s key).2)))) ∧
    (LineNames s x .set true ws → ws.length = 3 →
      (∀ a v, LineTarget (word ws 1) a → fieldArg (word ws 2) 64 = some v →
        (∀ r, (scAccess s .write a (w64 v)).1 = some r → ¬(spaceOf a = .reg ∧ keyOf a = R_MG_CONSOLE) →
          exec (.setCmd x) s = .next (finishLine x (replied (statusReply r.1) (scAccess s .write a (w64 v)).2))) ∧
        (∀ r, (scAccess s .write a (w64 v)).1 = some (.ok, r) → spaceOf a = .reg → keyOf a = R_MG_CONSOLE →
          exec (.setCmd x) s = .next (finishLine x (some (.ok []), s, fun s => (scAccess s .write a (w64 v)).2))) ∧
        ((scAccess s .write a (w64 v)).1 = none → exec (.setCmd x) s = .next (scAccess s .write a (w64 v)).2)) ∧
      (∀ key r f, startsDigit (word ws 1) = false → findTarget (word ws 1) = .ok (key, r, some f) → regPresent s.variant key = true →
        (f.access = .ro → exec (.setCmd x) s = .next (finishLine x (replied (.err 8) s))) ∧
        (∀ v, f.access ≠ .ro → fieldArg (word ws 2) f.fld.width = some v →
          let u := scUpdate s key (fun old => writeBack old r.fields f.fld v)
          (∀ a, u.1 = some a → key ≠ R_MG_CONSOLE → exec (.setCmd x) s = .next (finishLine x (replied (statusReply a.1) u.2))) ∧
          (u.1 = none → exec (.setCmd x) s = .next u.2)))) ∧
    (LineNames s x .help false ws → (ws.length = 1 ∨ (ws.length = 2 ∧ ∃ i, resolveWord commandWords (word ws 1) = .ok i)) →
      ∃ n, exec (.helpCmd x) s = .next (finishLine x (freeLines s n))) ∧
    (∀ i, LineNames s x .show false ws → 2 ≤ ws.length → resolveWord showSubjects (word ws 1) = .ok i →
      (i ≠ 5 → ws.length = 2 → (i = 8 → bigVariant s.variant = true) → ∃ n, exec (.showCmd x) s = .next (finishLine x (freeLines s n))) ∧
      (i = 5 → ws.length = 3 → (portArg s (word ws 2)).isSome = true → ∃ n, exec (.showCmd x) s = .next (finishLine x (freeLines s n)))) ∧
    (LineNames s x .recordStart false ws → ws.length = 2 → ∃ n, exec (.recordStart x) s = .next (finishLine x (freeLines s n))) ∧
    (LineNames s x .recordCellar false ws → ws.length = 2 →
      let area := s.mgmt.area
      let t := { s with mgmt := { s.mgmt with area := [] } }
      let a := scLine s (cellarBase s.variant + area.length)
      (cellarNeeds area ≤ area.length → cellarHolds area = false →
        exec (.recordCellar x) s = .next (finishLine x (replied (.ok (asciiBytes "none")) t))) ∧
      (cellarNeeds area ≤ area.length → cellarHolds area = true → ∃ ls, ls.length = 6 ∧
        exec (.recordCellar x) s = .next (finishLine x (replied (.data ls) { t with free := s.free + 1 }))) ∧
      (area.length < cellarNeeds area → a.1 = none → exec (.recordCellar x) s = .next a.2) ∧
      (∀ v, area.length < cellarNeeds area → a.1 = some (.ok, v) → (area ++ leBytes 64 v).length < cellarNeeds (area ++ leBytes 64 v) →
        a.2.mgmt.area = area → exec (.recordCellar x) s = .next { a.2 with mgmt := { a.2.mgmt with area := area ++ leBytes 64 v } }) ∧
      (∀ st v, area.length < cellarNeeds area → a.1 = some (st, v) → st ≠ .ok →
        exec (.recordCellar x) s = .next (finishLine x (replied (.err (statusErr st)) { a.2 with mgmt := { a.2.mgmt with area := [] } })))) ∧
    (LineNames s x .resetWarm true ws → ws.length = 3 → resolveWord ["confirm"] (word ws 2) = .ok 0 →
      let w := setF (setF 0 PWR_RESET_WARM 1) PWR_RESET_KEY 0x5741
      s.mgmt.scAcc = none → ScMayWrite s R_PWR_RESET w →
      ∃ t, exec (.resetWarm x) s = .next t ∧ t.power.warmPending = true ∧ t.power.step = some 0 ∧ rdB t R_PWR_DEVSTAT PWR_DEVSTAT_READY = false ∧
        t.mgmt.lines = s.mgmt.lines.tail ∧ t.cells = s.cells) ∧
    (∀ p, LineNames s x .resetPort true ws → ws.length = 3 → portArg s (word ws 2) = some p →
      let w := setF 0 PWR_RESET_PORT (2 ^ p)
      s.mgmt.scAcc = none → ScMayWrite s R_PWR_RESET w →
      ∃ t, exec (.resetPort x) s = .next t ∧ rdB t (R_PT_STAT p) PT_STAT_SESSION = false ∧
        linkState t p = (if portsTrain s && bitOf (rd s R_MG_PORTEN).toNat p then LS_DETECT else LS_DISABLED) ∧
        t.mgmt.lines = s.mgmt.lines.tail ∧ t.cells = s.cells) ∧
    (∀ n, LineNames s x .consoleBaud true ws → ws.length = 3 → parseNum (word ws 2) = some n → n ∈ baudRates →
      let w := setF (rd s R_MG_CONSOLE) MG_CONSOLE_BAUD (baudRates.idxOf n)
      s.mgmt.scAcc = none → ScMayWrite s R_MG_CONSOLE w →
      ∃ t, exec (.consoleBaud x) s = .next t ∧ rdF t R_MG_CONSOLE MG_CONSOLE_BAUD = baudRates.idxOf n ∧ t.mgmt.lines = s.mgmt.lines.tail ∧
        t.cells = s.cells)) ∧
  (∀ (s : State) (key : Nat) (v : Word64),
    (ScMayRead s key → (scReadNow s key).1 = .ok →
      scRead s key = (some (.ok, (scReadNow s key).2.1.toNat), (scReadNow s key).2.2)) ∧
    (s.mgmt.scAcc = none → ScMayWrite s key v → isIntcReq (scReq .write key v) = false → (scWriteNow s key v).post = .none →
      (scWriteNow s key v).state.mgmt.scAcc = (scOwn s (scReq .write key v)).mgmt.scAcc →
      scWrite s key v = (some ((scWriteNow s key v).status, 0), scWritten s key v)) ∧
    (∀ f, s.mgmt.scAcc = none → (scReadNow s key).1 = .ok → ScMayRead s key →
      scUpdate s key f = scWrite (scReadNow s key).2.2 key (f (scReadNow s key).2.1)))
end

