-- ==== Sys2Proof/Laws/SMap.lean ====
section
/-! SUPPORT. Sparse storage: reading after a write, and the canonical form kept by every operation. -/

namespace Sys2Proof.Machine

variable {α : Type}

theorem sget_sins_same (d : α) (m : List (Nat × α)) (k : Nat) (v : α) : sget d (sins m k v) k = v := by
  induction m with
  | nil => simp [sins, sget]
  | cons e m ih =>
    obtain ⟨a, w⟩ := e
    unfold sins
    split
    · simp [sget]
    · split
      · simp [sget]
      · next h => simp [sget, h, ih]

theorem sget_sins_other (d : α) (m : List (Nat × α)) {k j : Nat} (v : α) (h : j ≠ k) : sget d (sins m k v) j = sget d m j := by
  induction m with
  | nil => simp [sins, sget, Ne.symm h]
  | cons e m ih =>
    obtain ⟨a, w⟩ := e
    unfold sins
    split
    · simp [sget, Ne.symm h]
    · split
      · next h2 => subst h2; simp [sget, Ne.symm h]
      · simp [sget, ih]

theorem sget_sdel_same (d : α) (m : List (Nat × α)) (k : Nat) : sget d (sdel m k) k = d := by
  induction m with
  | nil => rfl
  | cons e m ih =>
    obtain ⟨a, w⟩ := e
    by_cases h : a = k
    · simpa [sdel, h] using ih
    · simp only [sdel] at ih
      simp [sdel, h, sget, ih]

theorem sget_sdel_other (d : α) (m : List (Nat × α)) {k j : Nat} (h : j ≠ k) : sget d (sdel m k) j = sget d m j := by
  induction m with
  | nil => rfl
  | cons e m ih =>
    obtain ⟨a, w⟩ := e
    simp only [sdel] at ih
    by_cases hk : a = k
    · subst hk; simp [sdel, sget, Ne.symm h, ih]
    · simp [sdel, hk, sget, ih]

/-- Reading the key just written gives the value written. -/
@[simp] theorem sget_sset_same [DecidableEq α] (d : α) (m : List (Nat × α)) (k : Nat) (v : α) : sget d (sset d m k v) k = v := by
  unfold sset
  split
  · next h => rw [sget_sdel_same, h]
  · exact sget_sins_same d m k v

/-- A write leaves every other key alone. -/
theorem sget_sset_ne [DecidableEq α] (d d' : α) (m : List (Nat × α)) {k j : Nat} (v : α) (h : j ≠ k) : sget d (sset d' m k v) j = sget d m j := by
  unfold sset
  split
  · exact sget_sdel_other d m h
  · exact sget_sins_other d m v h

theorem sget_sset_other [DecidableEq α] (d : α) (m : List (Nat × α)) {k j : Nat} (v : α) (h : j ≠ k) : sget d (sset d m k v) j = sget d m j := by
  unfold sset
  split
  · exact sget_sdel_other d m h
  · exact sget_sins_other d m v h

/-! ### The canonical form -/

/-- Keys above a bound that rise strictly: the canonical order from `b` on. -/
def risesFrom (b : Nat) : List (Nat × α) → Prop
  | [] => True
  | (a, _) :: m => b ≤ a ∧ risesFrom (a + 1) m

theorem risesFrom_mono {m : List (Nat × α)} {b c : Nat} (h : risesFrom b m) (hc : c ≤ b) : risesFrom c m := by
  cases m with
  | nil => trivial
  | cons e m => exact ⟨Nat.le_trans hc h.1, h.2⟩

theorem keysRise_iff (m : List (Nat × α)) : keysRise m = true ↔ risesFrom 0 m := by
  have key : ∀ (m : List (Nat × α)) (a : Nat) (w : α), keysRise ((a, w) :: m) = true ↔ risesFrom (a + 1) m := by
    intro m
    induction m with
    | nil => intro a w; simp [keysRise, risesFrom]
    | cons e m ih =>
      obtain ⟨b, u⟩ := e
      intro a w
      simp only [keysRise, Bool.and_eq_true, decide_eq_true_eq, risesFrom, ih b u]
      rfl
  cases m with
  | nil => simp [keysRise, risesFrom]
  | cons e m =>
    obtain ⟨a, w⟩ := e
    rw [key]
    exact ⟨fun h => ⟨Nat.zero_le a, h⟩, fun h => h.2⟩

theorem risesFrom_sins {m : List (Nat × α)} {b k : Nat} (v : α) (h : risesFrom b m) (hb : b ≤ k) : risesFrom b (sins m k v) := by
  induction m generalizing b with
  | nil => exact ⟨hb, trivial⟩
  | cons e m ih =>
    obtain ⟨a, w⟩ := e
    unfold sins
    split
    · next hk => exact ⟨hb, hk, h.2⟩
    · split
      · next h1 h2 => subst h2; exact ⟨hb, h.2⟩
      · next h1 h2 => exact ⟨h.1, ih h.2 (by omega)⟩

theorem risesFrom_filter {m : List (Nat × α)} {b : Nat} (p : Nat × α → Bool) (h : risesFrom b m) : risesFrom b (m.filter p) := by
  induction m generalizing b with
  | nil => trivial
  | cons e m ih =>
    obtain ⟨a, w⟩ := e
    rw [List.filter_cons]
    split
    · exact ⟨h.1, ih h.2⟩
    · exact risesFrom_mono (ih h.2) (Nat.le_succ_of_le h.1)

theorem all_sins (q : Nat × α → Bool) (m : List (Nat × α)) (k : Nat) (v : α) (h : m.all q = true) (hv : q (k, v) = true) :
    (sins m k v).all q = true := by
  induction m with
  | nil => simpa [sins] using hv
  | cons e m ih =>
    obtain ⟨a, w⟩ := e
    simp only [List.all_cons, Bool.and_eq_true] at h
    unfold sins
    split
    · simp [hv, h.1, h.2]
    · split
      · simp [hv, h.2]
      · simp [h.1, ih h.2]

/-- A write keeps the canonical form. -/
theorem scanon_sset [DecidableEq α] {d : Nat → α} {m : List (Nat × α)} (k : Nat) (v : α) (h : scanon d m = true) : scanon d (sset (d k) m k v) = true := by
  simp only [scanon, Bool.and_eq_true] at h ⊢
  rw [keysRise_iff] at h ⊢
  unfold sset
  split
  · refine ⟨risesFrom_filter _ h.1, ?_⟩
    simp only [sdel, List.all_eq_true, List.mem_filter] at h ⊢
    exact fun e he => h.2 e he.1
  · next hv => exact ⟨risesFrom_sins v h.1 (Nat.zero_le k), all_sins _ m k v h.2 (by simpa using hv)⟩

/-- Removing entries keeps the canonical form. -/
theorem scanon_filter [DecidableEq α] {d : Nat → α} {m : List (Nat × α)} (p : Nat × α → Bool) (h : scanon d m = true) : scanon d (m.filter p) = true := by
  simp only [scanon, Bool.and_eq_true] at h ⊢
  rw [keysRise_iff] at h ⊢
  refine ⟨risesFrom_filter p h.1, ?_⟩
  simp only [List.all_eq_true, List.mem_filter] at h ⊢
  exact fun e he => h.2 e he.1

end Sys2Proof.Machine
end

