-- ==== Sys2Proof/Laws/Keeps.lean ====
section
/-! SUPPORT. The rules by which an operation is shown to keep what every command leaves alone (`Keeps`), and a meaning to answer a next
state that does (`Answers`): composition, a branch, a fold, and an update of the fields that `Keeps` does not speak of. -/

namespace Sys2Proof.Machine
/-- What every command but POWER_ON leaves alone (the variant, device time, the queue of waiting commands), and a property of the memory. -/
def Keeps (M : List Host.Cell → Prop) (a s : State) : Prop :=
  s.variant = a.variant ∧ s.time = a.time ∧ s.pending = a.pending ∧ M s.cells
/-- A meaning answers a next state, and keeps what is to be kept. -/
def Answers (M : List Host.Cell → Prop) (a : State) (o : Host.Outcome State Fault Refusal) : Prop := ∃ t, o = .next t ∧ Keeps M a t
/-- A property of the memory that survives every change of a byte and every clearing of bytes. -/
structure CellProp where
  holds : List Host.Cell → Prop
  set : ∀ m k b, holds m → holds (sset 0 m k b)
  clear : ∀ m p, holds m → holds (m.filter p)

theorem Keeps.rfl {M : List Host.Cell → Prop} {s : State} (h : M s.cells) : Keeps M s s := ⟨Eq.refl _, Eq.refl _, Eq.refl _, h⟩

theorem keeps_mk {M : List Host.Cell → Prop} {a t : State} (free' : Nat) (nextUid' : Nat) (regs' : List (Nat × Word64)) (statCleared' :
    List (Nat × Nat)) (tk' : List (Nat × (Word64 × Word64 × Word64))) (banks' : List (Nat × Bank)) (txns' : List Txn) (heldOrd' : List Txn)
    (semq' : List StoreOp) (semStage' : List StoreOp) (semServed' : Option Nat) (semClearAt' : Nat) (mbxq' : List StoreOp) (mbxStage' :
    List StoreOp) (mbxServed' : Option Nat) (mbxClearAt' : Nat) (commits' : List MbxCommit) (tallies' : List TallyWait) (vatGen' : List
    (Nat × Nat)) (before' : List (Nat × Nat × Word64)) (links' : List (Nat × Link)) (phys' : List (Nat × Phy)) (lanes' : List (Nat ×
    LaneDyn)) (queues' : List (Nat × Queue)) (engines' : List (Nat × Engine)) (pushes' : List PushWait) (intcEvents' : List Nat) (intcTurn'
    : IntcTurn) (intcWait' : List (Nat × Req)) (msgs' : List IntcMsg) (pins' : List (Nat × Bool)) (integ' : Integ) (test' : Test) (pair' :
    Pair) (power' : Power) (mgmt' : Mgmt) (obs' : Obs) (out' : List Out) (h : Keeps M a t) : Keeps M a (State.mk t.pending t.variant t.time
    free' nextUid' regs' statCleared' tk' t.cells banks' txns' heldOrd' semq' semStage' semServed' semClearAt' mbxq' mbxStage' mbxServed'
    mbxClearAt' commits' tallies' vatGen' before' links' phys' lanes' queues' engines' pushes' intcEvents' intcTurn' intcWait' msgs' pins'
    integ' test' pair' power' mgmt' obs' out') := h

theorem keeps_ite {M : List Host.Cell → Prop} {a x y : State} {c : Prop} [Decidable c] (h : Keeps M a x) (k : Keeps M a y) : Keeps M a (if
    c then x else y) := by
  split <;> assumption

theorem keeps_foldl {M : List Host.Cell → Prop} {a : State} {α : Type} {f : State → α → State} {l : List α} {s : State} (h : ∀ t x, Keeps M
    a t → Keeps M a (f t x))
    (k : Keeps M a s) : Keeps M a (l.foldl f s) := by
  induction l generalizing s with
  | nil => exact k
  | cons x l ih => exact ih (h _ _ k)

theorem keeps_foldlP {M : List Host.Cell → Prop} {a : State} {α β : Type} (p : β → State) {f : β → α → β} {l : List α} {r : β} (h : ∀ t x,
    Keeps M a (p t) → Keeps M a (p (f t x)))
    (k : Keeps M a (p r)) : Keeps M a (p (l.foldl f r)) := by
  induction l generalizing r with
  | nil => exact k
  | cons x l ih => exact ih (h _ _ k)

theorem answers_next {M : List Host.Cell → Prop} {a t : State} (k : Keeps M a t) : Answers M a (.next t) := ⟨t, Eq.refl _, k⟩

theorem answers_ite {M : List Host.Cell → Prop} {a : State} {x y : Host.Outcome State Fault Refusal} {c : Prop} [Decidable c] (h : Answers
    M a x) (k : Answers M a y) :
    Answers M a (if c then x else y) := by
  split <;> assumption
end Sys2Proof.Machine
end

