-- ==== Sys2Proof/Laws/KeepsOps.lean ====
section
/-! SUPPORT. One lemma for each operation and each meaning of the shared operations over registers, cells, queues, the pair and the regions:
it leaves the variant, device time and the queue of commands alone and keeps the canonical form of the memory; a meaning always answers
a next state. -/

namespace Sys2Proof.Machine

/-! ### Regs -/

theorem wr_keeps {M : List Host.Cell → Prop} {a s : State} {key : Nat} {w : Word64} (k : Keeps M a s) : Keeps M a (wr s key w) := by
  unfold wr; dsimp only
  split
  · exact k
  · split <;> exact k

theorem wrF_keeps {M : List Host.Cell → Prop} {z₀ : State} (s : State) (key : Nat) (f : Fld) (v : Nat) (k₀ : Keeps M z₀ s) : Keeps M z₀
    (wrF s key f v) := by
  unfold wrF
  repeat' (first
    | with_reducible assumption | with_reducible apply keeps_ite | with_reducible apply wr_keeps | (intros; with_reducible assumption)
    | (intro t x ht) | (intro t ht) | split | dsimp only | with_reducible apply keeps_mk)

theorem wrB_keeps {M : List Host.Cell → Prop} {z₀ : State} (s : State) (key : Nat) (f : Fld) (b : Bool) (k₀ : Keeps M z₀ s) : Keeps M z₀
    (wrB s key f b) := by
  unfold wrB
  repeat' (first
    | with_reducible assumption | with_reducible apply keeps_ite | with_reducible apply wrF_keeps | (intros; with_reducible assumption)
    | (intro t x ht) | (intro t ht) | split | dsimp only | with_reducible apply keeps_mk)

theorem wrBeside_keeps {M : List Host.Cell → Prop} {z₀ : State} (s : State) (key : Nat) (f : Fld) (v : Nat) (k₀ : Keeps M z₀ s) : Keeps M
    z₀ (wrBeside s key f v) := by
  unfold wrBeside
  repeat' (first
    | with_reducible assumption | with_reducible apply keeps_ite | (intros; with_reducible assumption) | (intro t x ht) | (intro t ht)
    | split | dsimp only | with_reducible apply keeps_mk)

theorem addSat_keeps {M : List Host.Cell → Prop} {z₀ : State} (s : State) (key : Nat) (f : Fld) (n : Nat) (k₀ : Keeps M z₀ s) : Keeps M z₀
    (addSat s key f n) := by
  unfold addSat
  repeat' (first
    | with_reducible assumption | with_reducible apply keeps_ite | with_reducible apply wrF_keeps | (intros; with_reducible assumption)
    | (intro t x ht) | (intro t ht) | split | dsimp only | with_reducible apply keeps_mk)

theorem addWrap_keeps {M : List Host.Cell → Prop} {z₀ : State} (s : State) (key : Nat) (f : Fld) (n : Nat) (k₀ : Keeps M z₀ s) : Keeps M z₀
    (addWrap s key f n) := by
  unfold addWrap
  repeat' (first
    | with_reducible assumption | with_reducible apply keeps_ite | with_reducible apply wrF_keeps | (intros; with_reducible assumption)
    | (intro t x ht) | (intro t ht) | split | dsimp only | with_reducible apply keeps_mk)

theorem plainWrite_keeps {M : List Host.Cell → Prop} {a s : State} {key : Nat} {v : Word64} (k : Keeps M a s) : Keeps M a (plainWrite s key v) := by
  unfold plainWrite
  generalize findRow key = r
  cases r with
  | none => exact k
  | some r => exact keeps_ite k (wr_keeps k)

theorem noteBefore_keeps {M : List Host.Cell → Prop} {z₀ : State} (s : State) (key : Nat) (k₀ : Keeps M z₀ s) : Keeps M z₀ (noteBefore s
    key) := by
  unfold noteBefore
  repeat' (first
    | with_reducible assumption | with_reducible apply keeps_ite | (intros; with_reducible assumption) | (intro t x ht) | (intro t ht)
    | split | dsimp only | with_reducible apply keeps_mk)

/-! ### Ops -/

theorem setBank_keeps {M : List Host.Cell → Prop} {z₀ : State} (s : State) (b : Nat) (v : Bank) (k₀ : Keeps M z₀ s) : Keeps M z₀ (setBank s
    b v) := by
  unfold setBank
  repeat' (first
    | with_reducible assumption | with_reducible apply keeps_ite | (intros; with_reducible assumption) | (intro t x ht) | (intro t ht)
    | split | dsimp only | with_reducible apply keeps_mk)

theorem setLink_keeps {M : List Host.Cell → Prop} {z₀ : State} (s : State) (p : Nat) (v : Link) (k₀ : Keeps M z₀ s) : Keeps M z₀ (setLink s
    p v) := by
  unfold setLink
  repeat' (first
    | with_reducible assumption | with_reducible apply keeps_ite | (intros; with_reducible assumption) | (intro t x ht) | (intro t ht)
    | split | dsimp only | with_reducible apply keeps_mk)

theorem setPhy_keeps {M : List Host.Cell → Prop} {z₀ : State} (s : State) (p : Nat) (v : Phy) (k₀ : Keeps M z₀ s) : Keeps M z₀ (setPhy s p
    v) := by
  unfold setPhy
  repeat' (first
    | with_reducible assumption | with_reducible apply keeps_ite | (intros; with_reducible assumption) | (intro t x ht) | (intro t ht)
    | split | dsimp only | with_reducible apply keeps_mk)

theorem setLane_keeps {M : List Host.Cell → Prop} {z₀ : State} (s : State) (p j : Nat) (v : LaneDyn) (k₀ : Keeps M z₀ s) : Keeps M z₀
    (setLane s p j v) := by
  unfold setLane
  repeat' (first
    | with_reducible assumption | with_reducible apply keeps_ite | (intros; with_reducible assumption) | (intro t x ht) | (intro t ht)
    | split | dsimp only | with_reducible apply keeps_mk)

theorem setQueue_keeps {M : List Host.Cell → Prop} {z₀ : State} (s : State) (e q : Nat) (v : Queue) (k₀ : Keeps M z₀ s) : Keeps M z₀
    (setQueue s e q v) := by
  unfold setQueue
  repeat' (first
    | with_reducible assumption | with_reducible apply keeps_ite | (intros; with_reducible assumption) | (intro t x ht) | (intro t ht)
    | split | dsimp only | with_reducible apply keeps_mk)

theorem setEngine_keeps {M : List Host.Cell → Prop} {z₀ : State} (s : State) (e : Nat) (v : Engine) (k₀ : Keeps M z₀ s) : Keeps M z₀
    (setEngine s e v) := by
  unfold setEngine
  repeat' (first
    | with_reducible assumption | with_reducible apply keeps_ite | (intros; with_reducible assumption) | (intro t x ht) | (intro t ht)
    | split | dsimp only | with_reducible apply keeps_mk)

theorem takeUid_keeps {M : List Host.Cell → Prop} {z₀ : State} (s : State) (k₀ : Keeps M z₀ s) : Keeps M z₀ (takeUid s).2 := by
  unfold takeUid
  repeat' (first
    | with_reducible assumption | with_reducible apply keeps_ite | (intros; with_reducible assumption) | (intro t x ht) | (intro t ht)
    | split | dsimp only | with_reducible apply keeps_mk)

theorem emit_keeps {M : List Host.Cell → Prop} {z₀ : State} (s : State) (o : Out) (k₀ : Keeps M z₀ s) : Keeps M z₀ (emit s o) := by
  unfold emit
  repeat' (first
    | with_reducible assumption | with_reducible apply keeps_ite | (intros; with_reducible assumption) | (intro t x ht) | (intro t ht)
    | split | dsimp only | with_reducible apply keeps_mk)

theorem raiseSource_keeps {M : List Host.Cell → Prop} {z₀ : State} (s : State) (n : Nat) (k₀ : Keeps M z₀ s) : Keeps M z₀ (raiseSource s n)
    := by
  unfold raiseSource
  repeat' (first
    | with_reducible assumption | with_reducible apply keeps_ite | (intros; with_reducible assumption) | (intro t x ht) | (intro t ht)
    | split | dsimp only | with_reducible apply keeps_mk)

theorem occurN_keeps {M : List Host.Cell → Prop} {z₀ : State} (s : State) (ev n : Nat) (k₀ : Keeps M z₀ s) : Keeps M z₀ (occurN s ev n) :=
    by
  unfold occurN
  repeat' (first
    | with_reducible assumption | with_reducible apply keeps_ite | (intros; with_reducible assumption) | (intro t x ht) | (intro t ht)
    | split | dsimp only | with_reducible apply keeps_mk)

theorem occur_keeps {M : List Host.Cell → Prop} {z₀ : State} (s : State) (ev : Nat) (k₀ : Keeps M z₀ s) : Keeps M z₀ (occur s ev) := by
  unfold occur
  repeat' (first
    | with_reducible assumption | with_reducible apply keeps_ite | with_reducible apply occurN_keeps | (intros; with_reducible assumption)
    | (intro t x ht) | (intro t ht) | split | dsimp only | with_reducible apply keeps_mk)

theorem settleFences_keeps {M : List Host.Cell → Prop} {z₀ : State} (s : State) (k₀ : Keeps M z₀ s) : Keeps M z₀ (settleFences s) := by
  unfold settleFences
  repeat' (first
    | with_reducible assumption | with_reducible apply keeps_ite | with_reducible apply keeps_foldl | (intros; with_reducible assumption)
    | (intro t x ht) | (intro t ht) | split | dsimp only | with_reducible apply keeps_mk)

theorem mapTxn_keeps {M : List Host.Cell → Prop} {z₀ : State} (s : State) (uid : Nat) (f : Txn → Txn) (k₀ : Keeps M z₀ s) : Keeps M z₀
    (mapTxn s uid f) := by
  unfold mapTxn
  repeat' (first
    | with_reducible assumption | with_reducible apply keeps_ite | with_reducible apply settleFences_keeps
    | (intros; with_reducible assumption) | (intro t x ht) | (intro t ht) | split | dsimp only | with_reducible apply keeps_mk)

theorem mapAcc_keeps {M : List Host.Cell → Prop} {z₀ : State} (s : State) (e q uid : Nat) (f : EngAcc → EngAcc) (k₀ : Keeps M z₀ s) : Keeps
    M z₀ (mapAcc s e q uid f) := by
  unfold mapAcc
  repeat' (first
    | with_reducible assumption | with_reducible apply keeps_ite | with_reducible apply setQueue_keeps
    | (intros; with_reducible assumption) | (intro t x ht) | (intro t ht) | split | dsimp only | with_reducible apply keeps_mk)

theorem mapSc_keeps {M : List Host.Cell → Prop} {z₀ : State} (s : State) (uid : Nat) (f : EngAcc → EngAcc) (k₀ : Keeps M z₀ s) : Keeps M z₀
    (mapSc s uid f) := by
  unfold mapSc
  repeat' (first
    | with_reducible assumption | with_reducible apply keeps_ite | (intros; with_reducible assumption) | (intro t x ht) | (intro t ht)
    | split | dsimp only | with_reducible apply keeps_mk)

theorem answerPart_keeps {M : List Host.Cell → Prop} {z₀ : State} (s : State) (who : Who) (uid half : Nat) (st : Status) (ce sup : Bool)
    (data : List Byte) (waits : Nat) (k₀ : Keeps M z₀ s) : Keeps M z₀ (answerPart s who uid half st ce sup data waits) := by
  unfold answerPart
  repeat' (first
    | with_reducible assumption | with_reducible apply keeps_ite | with_reducible apply mapTxn_keeps | with_reducible apply mapAcc_keeps
    | with_reducible apply mapSc_keeps | (intros; with_reducible assumption) | (intro t x ht) | (intro t ht) | split | dsimp only
    | with_reducible apply keeps_mk)

theorem releaseWait_keeps {M : List Host.Cell → Prop} {z₀ : State} (s : State) (who : Who) (uid : Nat) (k₀ : Keeps M z₀ s) : Keeps M z₀
    (releaseWait s who uid) := by
  unfold releaseWait
  repeat' (first
    | with_reducible assumption | with_reducible apply keeps_ite | with_reducible apply mapTxn_keeps | with_reducible apply mapAcc_keeps
    | with_reducible apply mapSc_keeps | (intros; with_reducible assumption) | (intro t x ht) | (intro t ht) | split | dsimp only
    | with_reducible apply keeps_mk)

theorem samplePoint_keeps {M : List Host.Cell → Prop} {z₀ : State} (s : State) (who : Who) (uid dest bank gsize gpos : Nat) (k₀ : Keeps M
    z₀ s) : Keeps M z₀ (samplePoint s who uid dest bank gsize gpos) := by
  unfold samplePoint
  repeat' (first
    | with_reducible assumption | with_reducible apply keeps_ite | with_reducible apply mapTxn_keeps | (intros; with_reducible assumption)
    | (intro t x ht) | (intro t ht) | split | dsimp only | with_reducible apply keeps_mk)

theorem sampleQueued_keeps {M : List Host.Cell → Prop} {z₀ : State} (s : State) (who : Who) (uid dest bank depth : Nat) (k₀ : Keeps M z₀ s)
    : Keeps M z₀ (sampleQueued s who uid dest bank depth) := by
  unfold sampleQueued
  repeat' (first
    | with_reducible assumption | with_reducible apply keeps_ite | with_reducible apply mapTxn_keeps | (intros; with_reducible assumption)
    | (intro t x ht) | (intro t ht) | split | dsimp only | with_reducible apply keeps_mk)

theorem sampleHeld_keeps {M : List Host.Cell → Prop} {z₀ : State} (s : State) (who : Who) (uid : Nat) (k₀ : Keeps M z₀ s) : Keeps M z₀
    (sampleHeld s who uid) := by
  unfold sampleHeld
  repeat' (first
    | with_reducible assumption | with_reducible apply keeps_ite | with_reducible apply mapTxn_keeps | (intros; with_reducible assumption)
    | (intro t x ht) | (intro t ht) | split | dsimp only | with_reducible apply keeps_mk)

theorem trace_keeps {M : List Host.Cell → Prop} {z₀ : State} (s : State) (t : TraceInfo) (k₀ : Keeps M z₀ s) : Keeps M z₀ (trace s t) := by
  unfold trace
  repeat' (first
    | with_reducible assumption | with_reducible apply keeps_ite | (intros; with_reducible assumption) | (intro t x ht) | (intro t ht)
    | split | dsimp only | with_reducible apply keeps_mk)

/-! ### Cells -/

theorem setCellByte_keeps {M : CellProp} {a s : State} {key : Nat} {b : Byte} (k : Keeps M.holds a s) : Keeps M.holds a (setCellByte s key b) :=
  ⟨k.1, k.2.1, k.2.2.1, M.set _ _ _ k.2.2.2⟩

theorem setCellBytes_keeps {M : CellProp} {a s : State} {key : Nat} {x : List Byte} (k : Keeps M.holds a s) : Keeps M.holds a (setCellBytes
    s key x) := by
  induction x generalizing s key with
  | nil => exact k
  | cons b x ih => exact ih (setCellByte_keeps k)

theorem writeCw_keeps {M : CellProp} {z₀ : State} (s : State) (unit line cw : Nat) (c : Cw) (k₀ : Keeps M.holds z₀ s) : Keeps M.holds z₀
    (writeCw s unit line cw c) := by
  unfold writeCw
  repeat' (first
    | with_reducible assumption | with_reducible apply keeps_ite | with_reducible apply setCellBytes_keeps
    | (intros; with_reducible assumption) | (intro t x ht) | (intro t ht) | split | dsimp only | with_reducible apply keeps_mk)

theorem bumpFree_keeps {M : List Host.Cell → Prop} {z₀ : State} (s : State) (unit : Nat) (k₀ : Keeps M z₀ s) : Keeps M z₀ (bumpFree s unit)
    := by
  unfold bumpFree
  repeat' (first
    | with_reducible assumption | with_reducible apply keeps_ite | (intros; with_reducible assumption) | (intro t x ht) | (intro t ht)
    | split | dsimp only | with_reducible apply keeps_mk)

theorem recountFree_keeps {M : List Host.Cell → Prop} {z₀ : State} (s : State) (k₀ : Keeps M z₀ s) : Keeps M z₀ (recountFree s) := by
  unfold recountFree
  repeat' (first
    | with_reducible assumption | with_reducible apply keeps_ite | with_reducible apply wrF_keeps | (intros; with_reducible assumption)
    | (intro t x ht) | (intro t ht) | split | dsimp only | with_reducible apply keeps_mk)

theorem setSpare_keeps {M : List Host.Cell → Prop} {z₀ : State} (s : State) (i bank state line : Nat) (k₀ : Keeps M z₀ s) : Keeps M z₀
    (setSpare s i bank state line) := by
  unfold setSpare
  repeat' (first
    | with_reducible assumption | with_reducible apply keeps_ite | with_reducible apply wr_keeps | with_reducible apply recountFree_keeps
    | (intros; with_reducible assumption) | (intro t x ht) | (intro t ht) | split | dsimp only | with_reducible apply keeps_mk)

theorem setSpareState_keeps {M : List Host.Cell → Prop} {z₀ : State} (s : State) (i state : Nat) (k₀ : Keeps M z₀ s) : Keeps M z₀
    (setSpareState s i state) := by
  unfold setSpareState
  repeat' (first
    | with_reducible assumption | with_reducible apply keeps_ite | with_reducible apply wr_keeps | with_reducible apply recountFree_keeps
    | (intros; with_reducible assumption) | (intro t x ht) | (intro t ht) | split | dsimp only | with_reducible apply keeps_mk)

theorem countSat_keeps {M : List Host.Cell → Prop} {z₀ : State} (s : State) (block key : Nat) (f : Fld) (n : Nat) (k₀ : Keeps M z₀ s) :
    Keeps M z₀ (countSat s block key f n) := by
  unfold countSat
  repeat' (first
    | with_reducible assumption | with_reducible apply keeps_ite | with_reducible apply addSat_keeps | (intros; with_reducible assumption)
    | (intro t x ht) | (intro t ht) | split | dsimp only | with_reducible apply keeps_mk)

theorem countWrap_keeps {M : List Host.Cell → Prop} {z₀ : State} (s : State) (block key : Nat) (f : Fld) (n : Nat) (k₀ : Keeps M z₀ s) :
    Keeps M z₀ (countWrap s block key f n) := by
  unfold countWrap
  repeat' (first
    | with_reducible assumption | with_reducible apply keeps_ite | with_reducible apply addWrap_keeps | (intros; with_reducible assumption)
    | (intro t x ht) | (intro t ht) | split | dsimp only | with_reducible apply keeps_mk)

theorem countUnit_keeps {M : List Host.Cell → Prop} {z₀ : State} (s : State) (unit : Nat) (f : Fld) (k₀ : Keeps M z₀ s) : Keeps M z₀
    (countUnit s unit f) := by
  unfold countUnit
  repeat' (first
    | with_reducible assumption | with_reducible apply keeps_ite | with_reducible apply wrBeside_keeps
    | (intros; with_reducible assumption) | (intro t x ht) | (intro t ht) | split | dsimp only | with_reducible apply keeps_mk)

theorem noteCleared_keeps {M : List Host.Cell → Prop} {z₀ : State} (s : State) (block : Nat) (k₀ : Keeps M z₀ s) : Keeps M z₀ (noteCleared
    s block) := by
  unfold noteCleared
  repeat' (first
    | with_reducible assumption | with_reducible apply keeps_ite | (intros; with_reducible assumption) | (intro t x ht) | (intro t ht)
    | split | dsimp only | with_reducible apply keeps_mk)

theorem setIntStat_keeps {M : List Host.Cell → Prop} {z₀ : State} (s : State) (f : Fld) (src : Option Nat) (k₀ : Keeps M z₀ s) : Keeps M z₀
    (setIntStat s f src) := by
  unfold setIntStat
  repeat' (first
    | with_reducible assumption | with_reducible apply keeps_ite | with_reducible apply wrB_keeps | with_reducible apply raiseSource_keeps
    | (intros; with_reducible assumption) | (intro t x ht) | (intro t ht) | split | dsimp only | with_reducible apply keeps_mk)

theorem countFinding_keeps {M : List Host.Cell → Prop} {z₀ : State} (s : State) (unit : Nat) (corrected : Bool) (k₀ : Keeps M z₀ s) : Keeps
    M z₀ (countFinding s unit corrected) := by
  unfold countFinding
  repeat' (first
    | with_reducible assumption | with_reducible apply keeps_ite | with_reducible apply occur_keeps | with_reducible apply countSat_keeps
    | with_reducible apply countUnit_keeps | (intros; with_reducible assumption) | (intro t x ht) | (intro t ht) | split | dsimp only
    | with_reducible apply keeps_mk)

theorem logIntake_keeps {M : List Host.Cell → Prop} {z₀ : State} (s : State) (e : LogEntry) (k₀ : Keeps M z₀ s) : Keeps M z₀ (logIntake s
    e) := by
  unfold logIntake
  repeat' (first
    | with_reducible assumption | with_reducible apply keeps_ite | with_reducible apply addSat_keeps | (intros; with_reducible assumption)
    | (intro t x ht) | (intro t ht) | split | dsimp only | with_reducible apply keeps_mk)

theorem noteLine_keeps {M : List Host.Cell → Prop} {z₀ : State} (s : State) (unit pline : Nat) (k₀ : Keeps M z₀ s) : Keeps M z₀ (noteLine s
    unit pline).2 := by
  unfold noteLine
  repeat' (first
    | with_reducible assumption | with_reducible apply keeps_ite | (intros; with_reducible assumption) | (intro t x ht) | (intro t ht)
    | split | dsimp only | with_reducible apply keeps_mk)

theorem startRemap_keeps {M : List Host.Cell → Prop} {z₀ : State} (s : State) (unit line : Nat) (ordered : Bool) (k₀ : Keeps M z₀ s) :
    Keeps M z₀ (startRemap s unit line ordered) := by
  unfold startRemap
  repeat' (first
    | with_reducible assumption | with_reducible apply keeps_ite | with_reducible apply wr_keeps | with_reducible apply wrF_keeps
    | with_reducible apply wrB_keeps | with_reducible apply addSat_keeps | with_reducible apply setIntStat_keeps
    | (intros; with_reducible assumption) | (intro t x ht) | (intro t ht) | split | dsimp only | with_reducible apply keeps_mk)

theorem hardFault_keeps {M : List Host.Cell → Prop} {z₀ : State} (s : State) (unit pline addr : Nat) (k₀ : Keeps M z₀ s) : Keeps M z₀
    (hardFault s unit pline addr) := by
  unfold hardFault
  repeat' (first
    | with_reducible assumption | with_reducible apply keeps_ite | with_reducible apply wr_keeps | with_reducible apply countSat_keeps
    | with_reducible apply setIntStat_keeps | with_reducible apply startRemap_keeps | (intros; with_reducible assumption)
    | (intro t x ht) | (intro t ht) | split | dsimp only | with_reducible apply keeps_mk)

theorem bankFindings_keeps {M : List Host.Cell → Prop} {z₀ : State} (s : State) (unit pline addr : Nat) (remapped : Bool) (fs : List
    Finding) (k₀ : Keeps M z₀ s) : Keeps M z₀ (bankFindings s unit pline addr remapped fs) := by
  unfold bankFindings
  repeat' (first
    | with_reducible assumption | with_reducible apply keeps_ite | with_reducible apply countFinding_keeps
    | with_reducible apply logIntake_keeps | with_reducible apply noteLine_keeps | with_reducible apply hardFault_keeps
    | with_reducible apply keeps_foldl | (intros; with_reducible assumption) | (intro t x ht) | (intro t ht) | split | dsimp only
    | with_reducible apply keeps_mk)

theorem storeFinding_keeps {M : List Host.Cell → Prop} {z₀ : State} (s : State) (unit line addr : Nat) (f : Finding) (k₀ : Keeps M z₀ s) :
    Keeps M z₀ (storeFinding s unit line addr f) := by
  unfold storeFinding
  repeat' (first
    | with_reducible assumption | with_reducible apply keeps_ite | with_reducible apply countFinding_keeps
    | with_reducible apply logIntake_keeps | (intros; with_reducible assumption) | (intro t x ht) | (intro t ht) | split | dsimp only
    | with_reducible apply keeps_mk)

theorem bankWriteCw_keeps {M : CellProp} {z₀ : State} (s : State) (who : Who) (unit pline addr cw : Nat) (c : Cw) (k₀ : Keeps M.holds z₀ s)
    : Keeps M.holds z₀ (bankWriteCw s who unit pline addr cw c) := by
  unfold bankWriteCw
  repeat' (first
    | with_reducible assumption | with_reducible apply keeps_ite | with_reducible apply wrB_keeps | with_reducible apply writeCw_keeps
    | with_reducible apply keeps_foldl | (intros; with_reducible assumption) | (intro t x ht) | (intro t ht) | split | dsimp only
    | with_reducible apply keeps_mk)

theorem bankWriteLine_keeps {M : CellProp} {z₀ : State} (s : State) (who : Who) (unit pline addr : Nat) (bs : List Byte) (k₀ : Keeps
    M.holds z₀ s) : Keeps M.holds z₀ (bankWriteLine s who unit pline addr bs) := by
  unfold bankWriteLine
  repeat' (first
    | with_reducible assumption | with_reducible apply keeps_ite | with_reducible apply bankWriteCw_keeps
    | (intros; with_reducible assumption) | (intro t x ht) | (intro t ht) | split | dsimp only | with_reducible apply keeps_mk)

/-! ### QueueOps -/

theorem setQState_keeps {M : List Host.Cell → Prop} {z₀ : State} (s : State) (e q v : Nat) (k₀ : Keeps M z₀ s) : Keeps M z₀ (setQState s e
    q v) := by
  unfold setQState
  repeat' (first
    | with_reducible assumption | with_reducible apply keeps_ite | with_reducible apply wrF_keeps | (intros; with_reducible assumption)
    | (intro t x ht) | (intro t ht) | split | dsimp only | with_reducible apply keeps_mk)

theorem runOrIdle_keeps {M : List Host.Cell → Prop} {z₀ : State} (s : State) (e q : Nat) (k₀ : Keeps M z₀ s) : Keeps M z₀ (runOrIdle s e q)
    := by
  unfold runOrIdle
  repeat' (first
    | with_reducible assumption | with_reducible apply keeps_ite | with_reducible apply setQState_keeps
    | (intros; with_reducible assumption) | (intro t x ht) | (intro t ht) | split | dsimp only | with_reducible apply keeps_mk)

theorem setEngBit_keeps {M : List Host.Cell → Prop} {z₀ : State} (s : State) (e : Nat) (f : Fld) (i : Nat) (k₀ : Keeps M z₀ s) : Keeps M z₀
    (setEngBit s e f i) := by
  unfold setEngBit
  repeat' (first
    | with_reducible assumption | with_reducible apply keeps_ite | with_reducible apply wrF_keeps | with_reducible apply raiseSource_keeps
    | (intros; with_reducible assumption) | (intro t x ht) | (intro t ht) | split | dsimp only | with_reducible apply keeps_mk)

theorem startEvent_keeps {M : List Host.Cell → Prop} {z₀ : State} (s : State) (e q v : Nat) (k₀ : Keeps M z₀ s) : Keeps M z₀ (startEvent s
    e q v) := by
  unfold startEvent
  repeat' (first
    | with_reducible assumption | with_reducible apply keeps_ite | with_reducible apply wrF_keeps | with_reducible apply addSat_keeps
    | with_reducible apply addWrap_keeps | with_reducible apply runOrIdle_keeps | with_reducible apply setEngBit_keeps
    | (intros; with_reducible assumption) | (intro t x ht) | (intro t ht) | split | dsimp only | with_reducible apply keeps_mk)

theorem recheckRuns_keeps {M : List Host.Cell → Prop} {z₀ : State} (s : State) (p : Run → Bool) (k₀ : Keeps M z₀ s) : Keeps M z₀
    (recheckRuns s p) := by
  unfold recheckRuns
  repeat' (first
    | with_reducible assumption | with_reducible apply keeps_ite | (intros; with_reducible assumption) | (intro t x ht) | (intro t ht)
    | split | dsimp only | with_reducible apply keeps_mk)

theorem vatEvent_keeps {M : List Host.Cell → Prop} {z₀ : State} (s : State) (vat : Nat) (v : VatView) (k₀ : Keeps M z₀ s) : Keeps M z₀
    (vatEvent s vat v) := by
  unfold vatEvent
  repeat' (first
    | with_reducible assumption | with_reducible apply keeps_ite | (intros; with_reducible assumption) | (intro t x ht) | (intro t ht)
    | split | dsimp only | with_reducible apply keeps_mk)

theorem semFreeEvent_keeps {M : List Host.Cell → Prop} {z₀ : State} (s : State) (sem : Nat) (k₀ : Keeps M z₀ s) : Keeps M z₀ (semFreeEvent
    s sem) := by
  unfold semFreeEvent
  repeat' (first
    | with_reducible assumption | with_reducible apply keeps_ite | with_reducible apply recheckRuns_keeps
    | (intros; with_reducible assumption) | (intro t x ht) | (intro t ht) | split | dsimp only | with_reducible apply keeps_mk)

/-! ### PairOps -/

theorem sendOn_keeps {M : List Host.Cell → Prop} {z₀ : State} (s : State) (p vc : Nat) (bytes : List Byte) (k₀ : Keeps M z₀ s) : Keeps M z₀
    (sendOn s p vc bytes) := by
  unfold sendOn
  repeat' (first
    | with_reducible assumption | with_reducible apply keeps_ite | with_reducible apply setLink_keeps | (intros; with_reducible assumption)
    | (intro t x ht) | (intro t ht) | split | dsimp only | with_reducible apply keeps_mk)

theorem markSegment_keeps {M : List Host.Cell → Prop} {z₀ : State} (s : State) (g : Nat) (k₀ : Keeps M z₀ s) : Keeps M z₀ (markSegment s g)
    := by
  unfold markSegment
  repeat' (first
    | with_reducible assumption | with_reducible apply keeps_ite | with_reducible apply wr_keeps | with_reducible apply addWrap_keeps
    | (intros; with_reducible assumption) | (intro t x ht) | (intro t ht) | split | dsimp only | with_reducible apply keeps_mk)

theorem clearSegment_keeps {M : List Host.Cell → Prop} {z₀ : State} (s : State) (g : Nat) (k₀ : Keeps M z₀ s) : Keeps M z₀ (clearSegment s
    g) := by
  unfold clearSegment
  repeat' (first
    | with_reducible assumption | with_reducible apply keeps_ite | with_reducible apply wr_keeps | with_reducible apply wrF_keeps
    | (intros; with_reducible assumption) | (intro t x ht) | (intro t ht) | split | dsimp only | with_reducible apply keeps_mk)

theorem doorbellEvent_keeps {M : List Host.Cell → Prop} {z₀ : State} (s : State) (m value b : Nat) (k₀ : Keeps M z₀ s) : Keeps M z₀
    (doorbellEvent s m value b) := by
  unfold doorbellEvent
  repeat' (first
    | with_reducible assumption | with_reducible apply keeps_ite | with_reducible apply raiseSource_keeps
    | with_reducible apply startEvent_keeps | (intros; with_reducible assumption) | (intro t x ht) | (intro t ht) | split | dsimp only
    | with_reducible apply keeps_mk)

theorem mbxEnter_keeps {M : List Host.Cell → Prop} {z₀ : State} (s : State) (o : StoreOp) (k₀ : Keeps M z₀ s) : Keeps M z₀ (mbxEnter s o)
    := by
  unfold mbxEnter
  repeat' (first
    | with_reducible assumption | with_reducible apply keeps_ite | (intros; with_reducible assumption) | (intro t x ht) | (intro t ht)
    | split | dsimp only | with_reducible apply keeps_mk)

theorem semEnter_keeps {M : List Host.Cell → Prop} {z₀ : State} (s : State) (o : StoreOp) (k₀ : Keeps M z₀ s) : Keeps M z₀ (semEnter s o)
    := by
  unfold semEnter
  repeat' (first
    | with_reducible assumption | with_reducible apply keeps_ite | (intros; with_reducible assumption) | (intro t x ht) | (intro t ht)
    | split | dsimp only | with_reducible apply keeps_mk)

theorem runDeferred_keeps {M : List Host.Cell → Prop} {z₀ : State} (s : State) (x : Deferred) (k₀ : Keeps M z₀ s) : Keeps M z₀ (runDeferred
    s x) := by
  unfold runDeferred
  repeat' (first
    | with_reducible assumption | with_reducible apply keeps_ite | with_reducible apply releaseWait_keeps
    | with_reducible apply vatEvent_keeps | with_reducible apply semFreeEvent_keeps | with_reducible apply doorbellEvent_keeps
    | with_reducible apply mbxEnter_keeps | (intros; with_reducible assumption) | (intro t x ht) | (intro t ht) | split | dsimp only
    | with_reducible apply keeps_mk)

theorem runAllDeferred_keeps {M : List Host.Cell → Prop} {z₀ : State} (s : State) (ds : List Deferred) (k₀ : Keeps M z₀ s) : Keeps M z₀
    (runAllDeferred s ds) := by
  unfold runAllDeferred
  repeat' (first
    | with_reducible assumption | with_reducible apply keeps_ite | with_reducible apply runDeferred_keeps
    | with_reducible apply keeps_foldl | (intros; with_reducible assumption) | (intro t x ht) | (intro t ht) | split | dsimp only
    | with_reducible apply keeps_mk)

theorem pairForward_keeps {M : List Host.Cell → Prop} {z₀ : State} (s : State) (p : Nat) (mk : Nat → List Byte) (segment : Option Nat) (ds
    : List Deferred) (k₀ : Keeps M z₀ s) : Keeps M z₀ (pairForward s p mk segment ds) := by
  unfold pairForward
  repeat' (first
    | with_reducible assumption | with_reducible apply keeps_ite | with_reducible apply addWrap_keeps | with_reducible apply emit_keeps
    | with_reducible apply occur_keeps | with_reducible apply sendOn_keeps | with_reducible apply markSegment_keeps
    | with_reducible apply runAllDeferred_keeps | (intros; with_reducible assumption) | (intro t x ht) | (intro t ht) | split
    | dsimp only | with_reducible apply keeps_mk)

theorem forwardLine_keeps {M : List Host.Cell → Prop} {z₀ : State} (s : State) (addr : Nat) (bs : List Byte) (ds : List Deferred) (k₀ :
    Keeps M z₀ s) : Keeps M z₀ (forwardLine s addr bs ds) := by
  unfold forwardLine
  repeat' (first
    | with_reducible assumption | with_reducible apply keeps_ite | with_reducible apply runAllDeferred_keeps
    | with_reducible apply pairForward_keeps | (intros; with_reducible assumption) | (intro t x ht) | (intro t ht) | split | dsimp only
    | with_reducible apply keeps_mk)

theorem healSend_keeps {M : List Host.Cell → Prop} {z₀ : State} (s : State) (addr : Nat) (k₀ : Keeps M z₀ s) : Keeps M z₀ (healSend s addr)
    := by
  unfold healSend
  repeat' (first
    | with_reducible assumption | with_reducible apply keeps_ite | with_reducible apply emit_keeps | with_reducible apply sendOn_keeps
    | (intros; with_reducible assumption) | (intro t x ht) | (intro t ht) | split | dsimp only | with_reducible apply keeps_mk)

theorem settleHeals_keeps {M : List Host.Cell → Prop} {z₀ : State} (s : State) (k₀ : Keeps M z₀ s) : Keeps M z₀ (settleHeals s) := by
  unfold settleHeals
  repeat' (first
    | with_reducible assumption | with_reducible apply keeps_ite | with_reducible apply healSend_keeps | with_reducible apply keeps_foldl
    | (intros; with_reducible assumption) | (intro t x ht) | (intro t ht) | split | dsimp only | with_reducible apply keeps_mk)

theorem healLine_keeps {M : List Host.Cell → Prop} {z₀ : State} (s : State) (addr : Nat) (k₀ : Keeps M z₀ s) : Keeps M z₀ (healLine s addr)
    := by
  unfold healLine
  repeat' (first
    | with_reducible assumption | with_reducible apply keeps_ite | with_reducible apply healSend_keeps
    | (intros; with_reducible assumption) | (intro t x ht) | (intro t ht) | split | dsimp only | with_reducible apply keeps_mk)

theorem resendUnit_keeps {M : List Host.Cell → Prop} {z₀ : State} (s : State) (u : PairUnit) (k₀ : Keeps M z₀ s) : Keeps M z₀ (resendUnit s
    u) := by
  unfold resendUnit
  repeat' (first
    | with_reducible assumption | with_reducible apply keeps_ite | with_reducible apply emit_keeps | with_reducible apply sendOn_keeps
    | (intros; with_reducible assumption) | (intro t x ht) | (intro t ht) | split | dsimp only | with_reducible apply keeps_mk)

theorem settleTags_keeps {M : List Host.Cell → Prop} {z₀ : State} (s : State) (k₀ : Keeps M z₀ s) : Keeps M z₀ (settleTags s) := by
  unfold settleTags
  repeat' (first
    | with_reducible assumption | with_reducible apply keeps_ite | with_reducible apply settleHeals_keeps
    | with_reducible apply resendUnit_keeps | with_reducible apply keeps_foldl | (intros; with_reducible assumption) | (intro t x ht)
    | (intro t ht) | split | dsimp only | with_reducible apply keeps_mk)

theorem forwardVat_keeps {M : List Host.Cell → Prop} {z₀ : State} (s : State) (n : Nat) (ds : List Deferred) (k₀ : Keeps M z₀ s) : Keeps M
    z₀ (forwardVat s n ds) := by
  unfold forwardVat
  repeat' (first
    | with_reducible assumption | with_reducible apply keeps_ite | with_reducible apply pairForward_keeps
    | (intros; with_reducible assumption) | (intro t x ht) | (intro t ht) | split | dsimp only | with_reducible apply keeps_mk)

/-! ### Region -/

theorem setRegionState_keeps {M : List Host.Cell → Prop} {z₀ : State} (s : State) (h v : Nat) (k₀ : Keeps M z₀ s) : Keeps M z₀
    (setRegionState s h v) := by
  unfold setRegionState
  repeat' (first
    | with_reducible assumption | with_reducible apply keeps_ite | with_reducible apply wrF_keeps | (intros; with_reducible assumption)
    | (intro t x ht) | (intro t ht) | split | dsimp only | with_reducible apply keeps_mk)

theorem wakeRegion_keeps {M : List Host.Cell → Prop} {z₀ : State} (s : State) (h : Nat) (k₀ : Keeps M z₀ s) : Keeps M z₀ (wakeRegion s h)
    := by
  unfold wakeRegion
  repeat' (first
    | with_reducible assumption | with_reducible apply keeps_ite | with_reducible apply addSat_keeps
    | with_reducible apply setRegionState_keeps | (intros; with_reducible assumption) | (intro t x ht) | (intro t ht) | split
    | dsimp only | with_reducible apply keeps_mk)

theorem touchRegion_keeps {M : List Host.Cell → Prop} {z₀ : State} (s : State) (h : Nat) (k₀ : Keeps M z₀ s) : Keeps M z₀ (touchRegion s h)
    := by
  unfold touchRegion
  repeat' (first
    | with_reducible assumption | with_reducible apply keeps_ite | with_reducible apply wakeRegion_keeps
    | (intros; with_reducible assumption) | (intro t x ht) | (intro t ht) | split | dsimp only | with_reducible apply keeps_mk)

theorem beginOffWake_keeps {M : List Host.Cell → Prop} {z₀ : State} (s : State) (h : Nat) (k₀ : Keeps M z₀ s) : Keeps M z₀ (beginOffWake s
    h) := by
  unfold beginOffWake
  repeat' (first
    | with_reducible assumption | with_reducible apply keeps_ite | with_reducible apply setRegionState_keeps
    | (intros; with_reducible assumption) | (intro t x ht) | (intro t ht) | split | dsimp only | with_reducible apply keeps_mk)

theorem regionDrained_keeps {M : List Host.Cell → Prop} {z₀ : State} (s : State) (h : Nat) (k₀ : Keeps M z₀ s) : Keeps M z₀ (regionDrained
    s h) := by
  unfold regionDrained
  repeat' (first
    | with_reducible assumption | with_reducible apply keeps_ite | with_reducible apply setRegionState_keeps
    | with_reducible apply beginOffWake_keeps | (intros; with_reducible assumption) | (intro t x ht) | (intro t ht) | split | dsimp only
    | with_reducible apply keeps_mk)

theorem beginOff_keeps {M : List Host.Cell → Prop} {z₀ : State} (s : State) (h : Nat) (k₀ : Keeps M z₀ s) : Keeps M z₀ (beginOff s h) := by
  unfold beginOff
  repeat' (first
    | with_reducible assumption | with_reducible apply keeps_ite | with_reducible apply setRegionState_keeps
    | with_reducible apply regionDrained_keeps | (intros; with_reducible assumption) | (intro t x ht) | (intro t ht) | split | dsimp only
    | with_reducible apply keeps_mk)

theorem followTarget_keeps {M : List Host.Cell → Prop} {z₀ : State} (s : State) (h : Nat) (k₀ : Keeps M z₀ s) : Keeps M z₀ (followTarget s
    h) := by
  unfold followTarget
  repeat' (first
    | with_reducible assumption | with_reducible apply keeps_ite | with_reducible apply setRegionState_keeps
    | with_reducible apply beginOff_keeps | (intros; with_reducible assumption) | (intro t x ht) | (intro t ht) | split | dsimp only
    | with_reducible apply keeps_mk)

theorem followOrDefer_keeps {M : List Host.Cell → Prop} {z₀ : State} (s : State) (h : Nat) (k₀ : Keeps M z₀ s) : Keeps M z₀ (followOrDefer
    s h) := by
  unfold followOrDefer
  repeat' (first
    | with_reducible assumption | with_reducible apply keeps_ite | with_reducible apply setRegionState_keeps
    | with_reducible apply followTarget_keeps | (intros; with_reducible assumption) | (intro t x ht) | (intro t ht) | split | dsimp only
    | with_reducible apply keeps_mk)

theorem deferChange_keeps {M : List Host.Cell → Prop} {z₀ : State} (s : State) (h : Nat) (k₀ : Keeps M z₀ s) : Keeps M z₀ (deferChange s h)
    := by
  unfold deferChange
  repeat' (first
    | with_reducible assumption | with_reducible apply keeps_ite | with_reducible apply addSat_keeps
    | with_reducible apply setRegionState_keeps | (intros; with_reducible assumption) | (intro t x ht) | (intro t ht) | split
    | dsimp only | with_reducible apply keeps_mk)

theorem applyTarget_keeps {M : List Host.Cell → Prop} {z₀ : State} (s : State) (h : Nat) (k₀ : Keeps M z₀ s) : Keeps M z₀ (applyTarget s h)
    := by
  unfold applyTarget
  repeat' (first
    | with_reducible assumption | with_reducible apply keeps_ite | with_reducible apply wakeRegion_keeps
    | with_reducible apply beginOffWake_keeps | with_reducible apply beginOff_keeps | with_reducible apply followOrDefer_keeps
    | with_reducible apply deferChange_keeps | (intros; with_reducible assumption) | (intro t x ht) | (intro t ht) | split | dsimp only
    | with_reducible apply keeps_mk)

theorem settleDeferred_keeps {M : List Host.Cell → Prop} {z₀ : State} (s : State) (h : Nat) (k₀ : Keeps M z₀ s) : Keeps M z₀
    (settleDeferred s h) := by
  unfold settleDeferred
  repeat' (first
    | with_reducible assumption | with_reducible apply keeps_ite | with_reducible apply followTarget_keeps
    | (intros; with_reducible assumption) | (intro t x ht) | (intro t ht) | split | dsimp only | with_reducible apply keeps_mk)

theorem clearUnit_keeps {M : CellProp} {a s : State} {unit : Nat} (k : Keeps M.holds a s) : Keeps M.holds a (clearUnit s unit) :=
  ⟨k.1, k.2.1, k.2.2.1, M.clear _ _ k.2.2.2⟩

end Sys2Proof.Machine
end

