-- ==== Sys2Proof/Laws/KeepsMemory.lean ====
section
/-! SUPPORT. One lemma for each operation and each meaning of the banks, the stores, the tables, integrity and the tests:
it leaves the variant, device time and the queue of commands alone and keeps the canonical form of the memory; a meaning always answers
a next state. -/

namespace Sys2Proof.Machine

/-! ### March -/

theorem lineFails_keeps {M : List Host.Cell → Prop} {z₀ : State} (s : State) (unit line cell : Nat) (fg : Bool) (k₀ : Keeps M z₀ s) : Keeps
    M z₀ (lineFails s unit line cell fg) := by
  unfold lineFails
  repeat' (first
    | with_reducible assumption | with_reducible apply keeps_ite | with_reducible apply wr_keeps | with_reducible apply wrF_keeps
    | with_reducible apply addSat_keeps | with_reducible apply hardFault_keeps | (intros; with_reducible assumption) | (intro t x ht)
    | (intro t ht) | split | dsimp only | with_reducible apply keeps_mk)

theorem restoreLine_keeps {M : CellProp} {z₀ : State} (s : State) (unit line : Nat) (buf : List (Nat × Cw)) (k₀ : Keeps M.holds z₀ s) :
    Keeps M.holds z₀ (restoreLine s unit line buf) := by
  unfold restoreLine
  repeat' (first
    | with_reducible assumption | with_reducible apply keeps_ite | with_reducible apply writeCw_keeps | (intros; with_reducible assumption)
    | (intro t x ht) | (intro t ht) | split | dsimp only | with_reducible apply keeps_mk)

theorem marchFill_keeps {M : CellProp} {z₀ : State} (s : State) (unit bg line : Nat) (one : Bool) (k₀ : Keeps M.holds z₀ s) : Keeps M.holds
    z₀ (marchFill s unit bg line one) := by
  unfold marchFill
  repeat' (first
    | with_reducible assumption | with_reducible apply keeps_ite | with_reducible apply writeCw_keeps | with_reducible apply keeps_foldl
    | (intros; with_reducible assumption) | (intro t x ht) | (intro t ht) | split | dsimp only | with_reducible apply keeps_mk)

theorem marchLine_keeps {M : CellProp} {z₀ : State} (s : State) (unit bg el line : Nat) (k₀ : Keeps M.holds z₀ s) : Keeps M.holds z₀
    (marchLine s unit bg el line).1 := by
  unfold marchLine
  repeat' (first
    | with_reducible assumption | with_reducible apply keeps_ite | with_reducible apply marchFill_keeps
    | (intros; with_reducible assumption) | (intro t x ht) | (intro t ht) | split | dsimp only | with_reducible apply keeps_mk)

theorem runAccess_keeps {M : CellProp} {z₀ : State} (s : State) (r : TestRun) (k₀ : Keeps M.holds z₀ s) : Keeps M.holds z₀ (runAccess s
    r).1 := by
  unfold runAccess
  repeat' (first
    | with_reducible assumption | with_reducible apply keeps_ite | with_reducible apply lineFails_keeps
    | with_reducible apply restoreLine_keeps | with_reducible apply marchFill_keeps | with_reducible apply marchLine_keeps
    | with_reducible apply keeps_foldl | (intros; with_reducible assumption) | (intro t x ht) | (intro t ht) | split | dsimp only
    | with_reducible apply keeps_mk)

theorem borrowGroup_keeps {M : List Host.Cell → Prop} {z₀ : State} (s : State) (b unit group algo : Nat) (foreground destructive : Bool)
    (k₀ : Keeps M z₀ s) : Keeps M z₀ (borrowGroup s b unit group algo foreground destructive) := by
  unfold borrowGroup
  repeat' (first
    | with_reducible assumption | with_reducible apply keeps_ite | with_reducible apply setBank_keeps | (intros; with_reducible assumption)
    | (intro t x ht) | (intro t ht) | split | dsimp only | with_reducible apply keeps_mk)

theorem yieldGroup_keeps {M : List Host.Cell → Prop} {z₀ : State} (s : State) (b : Nat) (k₀ : Keeps M z₀ s) : Keeps M z₀ (yieldGroup s b)
    := by
  unfold yieldGroup
  repeat' (first
    | with_reducible assumption | with_reducible apply keeps_ite | with_reducible apply setBank_keeps
    | with_reducible apply settleDeferred_keeps | (intros; with_reducible assumption) | (intro t x ht) | (intro t ht) | split
    | dsimp only | with_reducible apply keeps_mk)

theorem fgBeginGroup_keeps {M : List Host.Cell → Prop} {z₀ : State} (s : State) (b : Nat) (k₀ : Keeps M z₀ s) : Keeps M z₀ (fgBeginGroup s
    b) := by
  unfold fgBeginGroup
  repeat' (first
    | with_reducible assumption | with_reducible apply keeps_ite | with_reducible apply borrowGroup_keeps
    | (intros; with_reducible assumption) | (intro t x ht) | (intro t ht) | split | dsimp only | with_reducible apply keeps_mk)

theorem startRack_keeps {M : List Host.Cell → Prop} {z₀ : State} (s : State) (b spare e line : Nat) (k₀ : Keeps M z₀ s) : Keeps M z₀
    (startRack s b spare e line) := by
  unfold startRack
  repeat' (first
    | with_reducible assumption | with_reducible apply keeps_ite | with_reducible apply wr_keeps | with_reducible apply wrB_keeps
    | with_reducible apply setSpare_keeps | (intros; with_reducible assumption) | (intro t x ht) | (intro t ht) | split | dsimp only
    | with_reducible apply keeps_mk)

theorem rackResume_keeps {M : List Host.Cell → Prop} {z₀ : State} (s : State) (k₀ : Keeps M z₀ s) : Keeps M z₀ (rackResume s) := by
  unfold rackResume
  repeat' (first
    | with_reducible assumption | with_reducible apply keeps_ite | with_reducible apply startRack_keeps
    | (intros; with_reducible assumption) | (intro t x ht) | (intro t ht) | split | dsimp only | with_reducible apply keeps_mk)

theorem retireStart_keeps {M : List Host.Cell → Prop} {z₀ : State} (s : State) (k₀ : Keeps M z₀ s) : Keeps M z₀ (retireStart s) := by
  unfold retireStart
  repeat' (first
    | with_reducible assumption | with_reducible apply keeps_ite | with_reducible apply yieldGroup_keeps
    | with_reducible apply startRack_keeps | (intros; with_reducible assumption) | (intro t x ht) | (intro t ht) | split | dsimp only
    | with_reducible apply keeps_mk)

theorem groupDone_keeps {M : List Host.Cell → Prop} {z₀ : State} (s : State) (unit : Nat) (k₀ : Keeps M z₀ s) : Keeps M z₀ (groupDone s
    unit) := by
  unfold groupDone
  repeat' (first
    | with_reducible assumption | with_reducible apply keeps_ite | with_reducible apply wrF_keeps | with_reducible apply addWrap_keeps
    | (intros; with_reducible assumption) | (intro t x ht) | (intro t ht) | split | dsimp only | with_reducible apply keeps_mk)

theorem fgGroupDone_keeps {M : List Host.Cell → Prop} {z₀ : State} (s : State) (k₀ : Keeps M z₀ s) : Keeps M z₀ (fgGroupDone s) := by
  unfold fgGroupDone
  repeat' (first
    | with_reducible assumption | with_reducible apply keeps_ite | with_reducible apply addWrap_keeps | (intros; with_reducible assumption)
    | (intro t x ht) | (intro t ht) | split | dsimp only | with_reducible apply keeps_mk)

theorem releaseGroup_keeps {M : List Host.Cell → Prop} {z₀ : State} (s : State) (b : Nat) (r : TestRun) (k₀ : Keeps M z₀ s) : Keeps M z₀
    (releaseGroup s b r) := by
  unfold releaseGroup
  repeat' (first
    | with_reducible assumption | with_reducible apply keeps_ite | with_reducible apply setBank_keeps | with_reducible apply countSat_keeps
    | with_reducible apply settleDeferred_keeps | with_reducible apply fgBeginGroup_keeps | with_reducible apply retireStart_keeps
    | with_reducible apply groupDone_keeps | with_reducible apply fgGroupDone_keeps | (intros; with_reducible assumption)
    | (intro t x ht) | (intro t ht) | split | dsimp only | with_reducible apply keeps_mk)

theorem traceCopy_keeps {M : List Host.Cell → Prop} {z₀ : State} (s : State) (b addr req opcode : Nat) (k₀ : Keeps M z₀ s) : Keeps M z₀
    (traceCopy s b addr req opcode) := by
  unfold traceCopy
  repeat' (first
    | with_reducible assumption | with_reducible apply keeps_ite | with_reducible apply trace_keeps | (intros; with_reducible assumption)
    | (intro t x ht) | (intro t ht) | split | dsimp only | with_reducible apply keeps_mk)

theorem testSlot_keeps {M : CellProp} {z₀ : State} (s : State) (b : Nat) (r : TestRun) (k₀ : Keeps M.holds z₀ s) : Keeps M.holds z₀
    (testSlot s b r) := by
  unfold testSlot
  repeat' (first
    | with_reducible assumption | with_reducible apply keeps_ite | with_reducible apply setBank_keeps | with_reducible apply occur_keeps
    | with_reducible apply runAccess_keeps | with_reducible apply releaseGroup_keeps | with_reducible apply traceCopy_keeps
    | (intros; with_reducible assumption) | (intro t x ht) | (intro t ht) | split | dsimp only | with_reducible apply keeps_mk)

/-! ### Copies -/

theorem scrubDue_keeps {M : List Host.Cell → Prop} {z₀ : State} (s : State) (due : Nat) (k₀ : Keeps M z₀ s) : Keeps M z₀ (scrubDue s due)
    := by
  unfold scrubDue
  repeat' (first
    | with_reducible assumption | with_reducible apply keeps_ite | (intros; with_reducible assumption) | (intro t x ht) | (intro t ht)
    | split | dsimp only | with_reducible apply keeps_mk)

theorem keeps_integ {M : List Host.Cell → Prop} {z₀ s : State} {g : Integ} (k : Keeps M z₀ s) : Keeps M z₀ { s with integ := g } := k

theorem scrubPassEnd_keeps {M : List Host.Cell → Prop} {z₀ : State} (s : State) (due : Nat) (k₀ : Keeps M z₀ s) : Keeps M z₀ (scrubPassEnd
    s due) := by
  unfold scrubPassEnd
  dsimp only
  exact keeps_integ (wrF_keeps _ _ _ _ (wrF_keeps _ _ _ _ (wrF_keeps _ _ _ _ (addWrap_keeps _ _ _ _
    (keeps_ite (addSat_keeps _ _ _ _ k₀) k₀)))))

theorem scrubToLine_keeps {M : List Host.Cell → Prop} {z₀ : State} (s : State) (line bank : Nat) (k₀ : Keeps M z₀ s) : Keeps M z₀
    (scrubToLine s line bank) := by
  unfold scrubToLine
  repeat' (first
    | with_reducible assumption | with_reducible apply keeps_ite | with_reducible apply wrF_keeps | (intros; with_reducible assumption)
    | (intro t x ht) | (intro t ht) | split | dsimp only | with_reducible apply keeps_mk)

theorem scrubToStores_keeps {M : List Host.Cell → Prop} {z₀ : State} (s : State) (k₀ : Keeps M z₀ s) : Keeps M z₀ (scrubToStores s) := by
  unfold scrubToStores
  repeat' (first
    | with_reducible assumption | with_reducible apply keeps_ite | with_reducible apply wrF_keeps | (intros; with_reducible assumption)
    | (intro t x ht) | (intro t ht) | split | dsimp only | with_reducible apply keeps_mk)

theorem scrubNextStore_keeps {M : List Host.Cell → Prop} {z₀ : State} (s : State) (k₀ : Keeps M z₀ s) : Keeps M z₀ (scrubNextStore s) := by
  unfold scrubNextStore
  repeat' (first
    | with_reducible assumption | with_reducible apply keeps_ite | (intros; with_reducible assumption) | (intro t x ht) | (intro t ht)
    | split | dsimp only | with_reducible apply keeps_mk)

theorem scrubAdvance_keeps {M : List Host.Cell → Prop} {z₀ : State} (s : State) (k₀ : Keeps M z₀ s) : Keeps M z₀ (scrubAdvance s) := by
  unfold scrubAdvance
  dsimp only
  generalize s.integ.nextVisit + _ = d
  apply keeps_ite (scrubPassEnd_keeps _ _ (scrubDue_keeps _ _ k₀))
  apply keeps_ite (scrubToLine_keeps _ _ _ (scrubDue_keeps _ _ k₀))
  exact keeps_ite (scrubToStores_keeps _ (scrubDue_keeps _ _ k₀)) (scrubNextStore_keeps _ (scrubDue_keeps _ _ k₀))

theorem scrubSkip_keeps {M : List Host.Cell → Prop} {z₀ : State} (s : State) (k₀ : Keeps M z₀ s) : Keeps M z₀ (scrubSkip s) := by
  unfold scrubSkip
  repeat' (first
    | with_reducible assumption | with_reducible apply keeps_ite | with_reducible apply countSat_keeps
    | with_reducible apply scrubAdvance_keeps | (intros; with_reducible assumption) | (intro t x ht) | (intro t ht) | split | dsimp only
    | with_reducible apply keeps_mk)

theorem scrubLine_keeps {M : CellProp} {z₀ : State} (s : State) (b line : Nat) (k₀ : Keeps M.holds z₀ s) : Keeps M.holds z₀ (scrubLine s b
    line) := by
  unfold scrubLine
  repeat' (first
    | with_reducible assumption | with_reducible apply keeps_ite | with_reducible apply occur_keeps | with_reducible apply writeCw_keeps
    | with_reducible apply bumpFree_keeps | with_reducible apply countSat_keeps | with_reducible apply setIntStat_keeps
    | with_reducible apply bankFindings_keeps | with_reducible apply healLine_keeps | with_reducible apply traceCopy_keeps
    | (intros; with_reducible assumption) | (intro t x ht) | (intro t ht) | split | dsimp only | with_reducible apply keeps_mk)

theorem remapDone_keeps {M : List Host.Cell → Prop} {z₀ : State} (s : State) (j : RemapJob) (src : Nat) (old : Option Nat) (k₀ : Keeps M z₀
    s) : Keeps M z₀ (remapDone s j src old) := by
  unfold remapDone
  repeat' (first
    | with_reducible assumption | with_reducible apply keeps_ite | with_reducible apply wrF_keeps | with_reducible apply wrB_keeps
    | with_reducible apply countSat_keeps | with_reducible apply setIntStat_keeps | (intros; with_reducible assumption) | (intro t x ht)
    | (intro t ht) | split | dsimp only | with_reducible apply keeps_mk)

theorem remapCopyNow_keeps {M : CellProp} {z₀ : State} (s : State) (j : RemapJob) (addr : Nat) (k₀ : Keeps M.holds z₀ s) : Keeps M.holds z₀
    (remapCopyNow s j addr) := by
  unfold remapCopyNow
  repeat' (first
    | with_reducible assumption | with_reducible apply keeps_ite | with_reducible apply bumpFree_keeps
    | with_reducible apply bankFindings_keeps | with_reducible apply bankWriteCw_keeps | with_reducible apply traceCopy_keeps
    | with_reducible apply remapDone_keeps | (intros; with_reducible assumption) | (intro t x ht) | (intro t ht) | split | dsimp only
    | with_reducible apply keeps_mk)

theorem remapServe_keeps {M : CellProp} {z₀ : State} (s : State) (b line : Nat) (k₀ : Keeps M.holds z₀ s) : Keeps M.holds z₀ (remapServe s
    b line) := by
  unfold remapServe
  repeat' (first
    | with_reducible assumption | with_reducible apply keeps_ite | with_reducible apply remapCopyNow_keeps
    | (intros; with_reducible assumption) | (intro t x ht) | (intro t ht) | split | dsimp only | with_reducible apply keeps_mk)

theorem rackDone_keeps {M : List Host.Cell → Prop} {z₀ : State} (s : State) (e b i : Nat) (k₀ : Keeps M z₀ s) : Keeps M z₀ (rackDone s e b
    i) := by
  unfold rackDone
  repeat' (first
    | with_reducible assumption | with_reducible apply keeps_ite | with_reducible apply wrB_keeps
    | with_reducible apply setSpareState_keeps | with_reducible apply setEngBit_keeps | with_reducible apply settleDeferred_keeps
    | with_reducible apply rackResume_keeps | (intros; with_reducible assumption) | (intro t x ht) | (intro t ht) | split | dsimp only
    | with_reducible apply keeps_mk)

theorem rackLine_keeps {M : CellProp} {z₀ : State} (s : State) (e b i line : Nat) (k₀ : Keeps M.holds z₀ s) : Keeps M.holds z₀ (rackLine s
    e b i line) := by
  unfold rackLine
  repeat' (first
    | with_reducible assumption | with_reducible apply keeps_ite | with_reducible apply wrF_keeps | with_reducible apply addSat_keeps
    | with_reducible apply bumpFree_keeps | with_reducible apply setSpare_keeps | with_reducible apply bankFindings_keeps
    | with_reducible apply bankWriteCw_keeps | with_reducible apply traceCopy_keeps | with_reducible apply rackDone_keeps
    | (intros; with_reducible assumption) | (intro t x ht) | (intro t ht) | split | dsimp only | with_reducible apply keeps_mk)

theorem rackServe_keeps {M : CellProp} {z₀ : State} (s : State) (e b line : Nat) (k₀ : Keeps M.holds z₀ s) : Keeps M.holds z₀ (rackServe s
    e b line) := by
  unfold rackServe
  repeat' (first
    | with_reducible assumption | with_reducible apply keeps_ite | with_reducible apply rackLine_keeps
    | (intros; with_reducible assumption) | (intro t x ht) | (intro t ht) | split | dsimp only | with_reducible apply keeps_mk)

theorem syncNext_keeps {M : List Host.Cell → Prop} {z₀ : State} (s : State) (k₀ : Keeps M z₀ s) : Keeps M z₀ (syncNext s) := by
  unfold syncNext
  repeat' (first
    | with_reducible assumption | with_reducible apply keeps_ite | (intros; with_reducible assumption) | (intro t x ht) | (intro t ht)
    | split | dsimp only | with_reducible apply keeps_mk)

theorem syncStop_keeps {M : List Host.Cell → Prop} {z₀ : State} (s : State) (e code addr : Nat) (k₀ : Keeps M z₀ s) : Keeps M z₀ (syncStop
    s e code addr) := by
  unfold syncStop
  repeat' (first
    | with_reducible assumption | with_reducible apply keeps_ite | (intros; with_reducible assumption) | (intro t x ht) | (intro t ht)
    | split | dsimp only | with_reducible apply keeps_mk)

theorem syncServe_keeps {M : List Host.Cell → Prop} {z₀ : State} (s : State) (e b addr : Nat) (k₀ : Keeps M z₀ s) : Keeps M z₀ (syncServe s
    e b addr) := by
  unfold syncServe
  repeat' (first
    | with_reducible assumption | with_reducible apply keeps_ite | with_reducible apply bumpFree_keeps
    | with_reducible apply bankFindings_keeps | with_reducible apply pairForward_keeps | with_reducible apply syncNext_keeps
    | with_reducible apply syncStop_keeps | (intros; with_reducible assumption) | (intro t x ht) | (intro t ht) | split | dsimp only
    | with_reducible apply keeps_mk)

/-! ### Bank -/

theorem vatNote_keeps {M : List Host.Cell → Prop} {z₀ : State} (s : State) (n : Nat) (c : AccCounts) (k₀ : Keeps M z₀ s) : Keeps M z₀
    (vatNote s n c) := by
  unfold vatNote
  repeat' (first
    | with_reducible assumption | with_reducible apply keeps_ite | with_reducible apply wrB_keeps | with_reducible apply addSat_keeps
    | (intros; with_reducible assumption) | (intro t x ht) | (intro t ht) | split | dsimp only | with_reducible apply keeps_mk)

theorem answerMember_keeps {M : List Host.Cell → Prop} {z₀ : State} (s : State) (b gsize gpos rot : Nat) (a : Answer) (data : List Byte)
    (waits : Nat) (k₀ : Keeps M z₀ s) : Keeps M z₀ (answerMember s b gsize gpos rot a data waits) := by
  unfold answerMember
  repeat' (first
    | with_reducible assumption | with_reducible apply keeps_ite | with_reducible apply answerPart_keeps
    | with_reducible apply samplePoint_keeps | with_reducible apply trace_keeps | (intros; with_reducible assumption) | (intro t x ht)
    | (intro t ht) | split | dsimp only | with_reducible apply keeps_mk)

theorem healAnswers_keeps {M : List Host.Cell → Prop} {z₀ : State} (s : State) (as : List Answer) (k₀ : Keeps M z₀ s) : Keeps M z₀
    (healAnswers s as) := by
  unfold healAnswers
  repeat' (first
    | with_reducible assumption | with_reducible apply keeps_ite | with_reducible apply healLine_keeps | with_reducible apply keeps_foldl
    | (intros; with_reducible assumption) | (intro t x ht) | (intro t ht) | split | dsimp only | with_reducible apply keeps_mk)

theorem refill_keeps {M : List Host.Cell → Prop} {z₀ : State} (s : State) (b : Nat) (k₀ : Keeps M z₀ s) : Keeps M z₀ (refill s b) := by
  unfold refill
  repeat' (first
    | with_reducible assumption | with_reducible apply keeps_ite | with_reducible apply setBank_keeps | with_reducible apply keeps_foldl
    | (intros; with_reducible assumption) | (intro t x ht) | (intro t ht) | split | dsimp only | with_reducible apply keeps_mk)

theorem enterBank_keeps {M : List Host.Cell → Prop} {z₀ : State} (s : State) (r : BReq) (k₀ : Keeps M z₀ s) : Keeps M z₀ (enterBank s r) :=
    by
  unfold enterBank
  repeat' (first
    | with_reducible assumption | with_reducible apply keeps_ite | with_reducible apply setBank_keeps
    | with_reducible apply touchRegion_keeps | (intros; with_reducible assumption) | (intro t x ht) | (intro t ht) | split | dsimp only
    | with_reducible apply keeps_mk)

theorem pairLine_keeps {M : List Host.Cell → Prop} {z₀ : State} (s : State) (uid addr code : Nat) (op : Op) (data : List Byte) (k₀ : Keeps
    M z₀ s) : Keeps M z₀ (pairLine s uid addr code op data) := by
  unfold pairLine
  repeat' (first
    | with_reducible assumption | with_reducible apply keeps_ite | with_reducible apply enterBank_keeps
    | (intros; with_reducible assumption) | (intro t x ht) | (intro t ht) | split | dsimp only | with_reducible apply keeps_mk)

theorem putVat_keeps {M : List Host.Cell → Prop} {z₀ : State} (s : State) (n : Nat) (entry : List Byte) (k₀ : Keeps M z₀ s) : Keeps M z₀
    (putVat s n entry) := by
  unfold putVat
  repeat' (first
    | with_reducible assumption | with_reducible apply keeps_ite | with_reducible apply wr_keeps | with_reducible apply trace_keeps
    | with_reducible apply keeps_foldl | (intros; with_reducible assumption) | (intro t x ht) | (intro t ht) | split | dsimp only
    | with_reducible apply keeps_mk)

theorem rxBegin_keeps {M : List Host.Cell → Prop} {z₀ : State} (s : State) (u : RxUnit) (k₀ : Keeps M z₀ s) : Keeps M z₀ (rxBegin s u) :=
    by
  unfold rxBegin
  repeat' (first
    | with_reducible assumption | with_reducible apply keeps_ite | with_reducible apply mbxEnter_keeps
    | with_reducible apply semEnter_keeps | with_reducible apply pairLine_keeps | with_reducible apply putVat_keeps
    | with_reducible apply keeps_foldl | (intros; with_reducible assumption) | (intro t x ht) | (intro t ht) | split | dsimp only
    | with_reducible apply keeps_mk)

theorem rxMap_keeps {M : List Host.Cell → Prop} {z₀ : State} (s : State) (num : Nat) (f : RxUnit → RxUnit) (k₀ : Keeps M z₀ s) : Keeps M z₀
    (rxMap s num f) := by
  unfold rxMap
  repeat' (first
    | with_reducible assumption | with_reducible apply keeps_ite | (intros; with_reducible assumption) | (intro t x ht) | (intro t ht)
    | split | dsimp only | with_reducible apply keeps_mk)

theorem rxAccept_keeps {M : List Host.Cell → Prop} {z₀ : State} (s : State) (u : RxUnit) (k₀ : Keeps M z₀ s) : Keeps M z₀ (rxAccept s u) :=
    by
  unfold rxAccept
  repeat' (first
    | with_reducible assumption | with_reducible apply keeps_ite | with_reducible apply sendOn_keeps | (intros; with_reducible assumption)
    | (intro t x ht) | (intro t ht) | split | dsimp only | with_reducible apply keeps_mk)

theorem rxRun_keeps {M : List Host.Cell → Prop} {z₀ : State} (s : State) (p n : Nat) (k₀ : Keeps M z₀ s) : Keeps M z₀ (rxRun s p n) := by
  induction n generalizing s with
  | zero => exact k₀
  | succ n ih =>
    unfold rxRun
    split
    · exact k₀
    · rename_i u hu
      have h := rxMap_keeps _ u.num (fun x => { x with begun := true, left := rxSteps u.body }) (rxBegin_keeps s u k₀)
      dsimp only
      split
      · exact ih _ (rxAccept_keeps _ u h)
      · exact h

theorem rxAdvance_keeps {M : List Host.Cell → Prop} {z₀ : State} (s : State) (p : Nat) (k₀ : Keeps M z₀ s) : Keeps M z₀ (rxAdvance s p) :=
    by
  unfold rxAdvance
  repeat' (first
    | with_reducible assumption | with_reducible apply keeps_ite | with_reducible apply rxRun_keeps | (intros; with_reducible assumption)
    | (intro t x ht) | (intro t ht) | split | dsimp only | with_reducible apply keeps_mk)

theorem rxReceive_keeps {M : List Host.Cell → Prop} {z₀ : State} (s : State) (p utag : Nat) (body : RxBody) (k₀ : Keeps M z₀ s) : Keeps M
    z₀ (rxReceive s p utag body) := by
  unfold rxReceive
  repeat' (first
    | with_reducible assumption | with_reducible apply keeps_ite | with_reducible apply rxAdvance_keeps
    | (intros; with_reducible assumption) | (intro t x ht) | (intro t ht) | split | dsimp only | with_reducible apply keeps_mk)

theorem rxCommitted_keeps {M : List Host.Cell → Prop} {z₀ : State} (s : State) (num : Nat) (k₀ : Keeps M z₀ s) : Keeps M z₀ (rxCommitted s
    num) := by
  unfold rxCommitted
  repeat' (first
    | with_reducible assumption | with_reducible apply keeps_ite | with_reducible apply rxMap_keeps | with_reducible apply rxAccept_keeps
    | with_reducible apply rxAdvance_keeps | (intros; with_reducible assumption) | (intro t x ht) | (intro t ht) | split | dsimp only
    | with_reducible apply keeps_mk)

theorem healAnswer_keeps {M : List Host.Cell → Prop} {z₀ : State} (s : State) (a : Answer) (k₀ : Keeps M z₀ s) : Keeps M z₀ (healAnswer s
    a) := by
  unfold healAnswer
  repeat' (first
    | with_reducible assumption | with_reducible apply keeps_ite | with_reducible apply sendOn_keeps
    | with_reducible apply rxCommitted_keeps | (intros; with_reducible assumption) | (intro t x ht) | (intro t ht) | split | dsimp only
    | with_reducible apply keeps_mk)

theorem pairMember_keeps {M : List Host.Cell → Prop} {z₀ : State} (s : State) (a : Answer) (k₀ : Keeps M z₀ s) : Keeps M z₀ (pairMember s
    a) := by
  unfold pairMember
  repeat' (first
    | with_reducible assumption | with_reducible apply keeps_ite | with_reducible apply rxCommitted_keeps
    | with_reducible apply healAnswer_keeps | (intros; with_reducible assumption) | (intro t x ht) | (intro t ht) | split | dsimp only
    | with_reducible apply keeps_mk)

theorem cellarMark_keeps {M : List Host.Cell → Prop} {z₀ : State} (s : State) (addr : Nat) (as : List Answer) (k₀ : Keeps M z₀ s) : Keeps M
    z₀ (cellarMark s addr as) := by
  unfold cellarMark
  repeat' (first
    | with_reducible assumption | with_reducible apply keeps_ite | with_reducible apply markSegment_keeps
    | (intros; with_reducible assumption) | (intro t x ht) | (intro t ht) | split | dsimp only | with_reducible apply keeps_mk)

theorem serveGroup_keeps {M : CellProp} {z₀ : State} (s : State) (b : Nat) (ms : List BReq) (k₀ : Keeps M.holds z₀ s) : Keeps M.holds z₀
    (serveGroup s b ms) := by
  unfold serveGroup
  repeat' (first
    | with_reducible assumption | with_reducible apply keeps_ite | with_reducible apply occur_keeps | with_reducible apply bumpFree_keeps
    | with_reducible apply countSat_keeps | with_reducible apply bankFindings_keeps | with_reducible apply bankWriteLine_keeps
    | with_reducible apply runAllDeferred_keeps | with_reducible apply forwardLine_keeps | with_reducible apply answerMember_keeps
    | with_reducible apply healAnswers_keeps | with_reducible apply pairMember_keeps | with_reducible apply cellarMark_keeps
    | with_reducible apply keeps_foldl | (intros; with_reducible assumption) | (intro t x ht) | (intro t ht) | split | dsimp only
    | with_reducible apply keeps_mk)

theorem markNoStore_keeps {M : List Host.Cell → Prop} {z₀ : State} (s : State) (who : Who) (uid : Nat) (k₀ : Keeps M z₀ s) : Keeps M z₀
    (markNoStore s who uid) := by
  unfold markNoStore
  repeat' (first
    | with_reducible assumption | with_reducible apply keeps_ite | with_reducible apply mapTxn_keeps | (intros; with_reducible assumption)
    | (intro t x ht) | (intro t ht) | split | dsimp only | with_reducible apply keeps_mk)

theorem serveAtomic_keeps {M : CellProp} {z₀ : State} (s : State) (b : Nat) (k : AtomicKind) (r : BReq) (k₀ : Keeps M.holds z₀ s) : Keeps
    M.holds z₀ (serveAtomic s b k r) := by
  unfold serveAtomic
  repeat' (first
    | with_reducible assumption | with_reducible apply keeps_ite | with_reducible apply bumpFree_keeps
    | with_reducible apply bankFindings_keeps | with_reducible apply bankWriteLine_keeps | with_reducible apply forwardLine_keeps
    | with_reducible apply answerMember_keeps | with_reducible apply healAnswers_keeps | with_reducible apply markNoStore_keeps
    | (intros; with_reducible assumption) | (intro t x ht) | (intro t ht) | split | dsimp only | with_reducible apply keeps_mk)

theorem serveAcc_keeps {M : CellProp} {z₀ : State} (s : State) (b : Nat) (r : BReq) (k₀ : Keeps M.holds z₀ s) : Keeps M.holds z₀ (serveAcc
    s b r) := by
  unfold serveAcc
  repeat' (first
    | with_reducible assumption | with_reducible apply keeps_ite | with_reducible apply setBank_keeps | with_reducible apply occur_keeps
    | with_reducible apply bumpFree_keeps | with_reducible apply bankFindings_keeps | with_reducible apply bankWriteLine_keeps
    | with_reducible apply forwardLine_keeps | with_reducible apply forwardVat_keeps | with_reducible apply vatNote_keeps
    | with_reducible apply answerMember_keeps | with_reducible apply healAnswers_keeps | (intros; with_reducible assumption)
    | (intro t x ht) | (intro t ht) | split | dsimp only | with_reducible apply keeps_mk)

theorem serveHeal_keeps {M : CellProp} {z₀ : State} (s : State) (b : Nat) (r : BReq) (k₀ : Keeps M.holds z₀ s) : Keeps M.holds z₀
    (serveHeal s b r) := by
  unfold serveHeal
  repeat' (first
    | with_reducible assumption | with_reducible apply keeps_ite | with_reducible apply addSat_keeps
    | with_reducible apply bankWriteLine_keeps | with_reducible apply answerMember_keeps | (intros; with_reducible assumption)
    | (intro t x ht) | (intro t ht) | split | dsimp only | with_reducible apply keeps_mk)

theorem serveCopy_keeps {M : CellProp} {z₀ : State} (s : State) (b : Nat) (r : BReq) (k₀ : Keeps M.holds z₀ s) : Keeps M.holds z₀
    (serveCopy s b r) := by
  unfold serveCopy
  repeat' (first
    | with_reducible assumption | with_reducible apply keeps_ite | with_reducible apply scrubAdvance_keeps
    | with_reducible apply scrubLine_keeps | with_reducible apply remapServe_keeps | with_reducible apply rackServe_keeps
    | with_reducible apply syncServe_keeps | (intros; with_reducible assumption) | (intro t x ht) | (intro t ht) | split | dsimp only
    | with_reducible apply keeps_mk)

theorem serveWinner_keeps {M : CellProp} {z₀ : State} (s : State) (b : Nat) (w : BReq) (k₀ : Keeps M.holds z₀ s) : Keeps M.holds z₀
    (serveWinner s b w) := by
  unfold serveWinner
  repeat' (first
    | with_reducible assumption | with_reducible apply keeps_ite | with_reducible apply setBank_keeps | with_reducible apply occur_keeps
    | with_reducible apply touchRegion_keeps | with_reducible apply regionDrained_keeps | with_reducible apply refill_keeps
    | with_reducible apply serveGroup_keeps | with_reducible apply serveAtomic_keeps | with_reducible apply serveAcc_keeps
    | with_reducible apply serveHeal_keeps | with_reducible apply serveCopy_keeps | (intros; with_reducible assumption) | (intro t x ht)
    | (intro t ht) | split | dsimp only | with_reducible apply keeps_mk)

theorem dropBReq_keeps {M : List Host.Cell → Prop} {z₀ : State} (s : State) (b : Nat) (r : BReq) (k₀ : Keeps M z₀ s) : Keeps M z₀ (dropBReq
    s b r) := by
  unfold dropBReq
  repeat' (first
    | with_reducible assumption | with_reducible apply keeps_ite | with_reducible apply setBank_keeps | with_reducible apply refill_keeps
    | (intros; with_reducible assumption) | (intro t x ht) | (intro t ht) | split | dsimp only | with_reducible apply keeps_mk)

theorem mapBReq_keeps {M : List Host.Cell → Prop} {z₀ : State} (s : State) (b : Nat) (r : BReq) (f : BReq → BReq) (k₀ : Keeps M z₀ s) :
    Keeps M z₀ (mapBReq s b r f) := by
  unfold mapBReq
  repeat' (first
    | with_reducible assumption | with_reducible apply keeps_ite | with_reducible apply setBank_keeps | (intros; with_reducible assumption)
    | (intro t x ht) | (intro t ht) | split | dsimp only | with_reducible apply keeps_mk)

theorem answerBusy_keeps {M : List Host.Cell → Prop} {z₀ : State} (s : State) (b : Nat) (r : BReq) (k₀ : Keeps M z₀ s) : Keeps M z₀
    (answerBusy s b r) := by
  unfold answerBusy
  repeat' (first
    | with_reducible assumption | with_reducible apply keeps_ite | with_reducible apply answerPart_keeps
    | with_reducible apply scrubSkip_keeps | with_reducible apply dropBReq_keeps | (intros; with_reducible assumption) | (intro t x ht)
    | (intro t ht) | split | dsimp only | with_reducible apply keeps_mk)

theorem setAside_keeps {M : List Host.Cell → Prop} {z₀ : State} (s : State) (b : Nat) (r : BReq) (k₀ : Keeps M z₀ s) : Keeps M z₀ (setAside
    s b r) := by
  unfold setAside
  repeat' (first
    | with_reducible assumption | with_reducible apply keeps_ite | with_reducible apply occur_keeps | with_reducible apply sampleHeld_keeps
    | with_reducible apply countSat_keeps | with_reducible apply yieldGroup_keeps | with_reducible apply mapBReq_keeps
    | (intros; with_reducible assumption) | (intro t x ht) | (intro t ht) | split | dsimp only | with_reducible apply keeps_mk)

theorem settleHolds_keeps {M : List Host.Cell → Prop} {z₀ : State} (s : State) (b : Nat) (k₀ : Keeps M z₀ s) : Keeps M z₀ (settleHolds s b)
    := by
  unfold settleHolds
  repeat' (first
    | with_reducible assumption | with_reducible apply keeps_ite | with_reducible apply answerBusy_keeps
    | with_reducible apply setAside_keeps | with_reducible apply keeps_foldl | (intros; with_reducible assumption) | (intro t x ht)
    | (intro t ht) | split | dsimp only | with_reducible apply keeps_mk)

theorem closeSlot_keeps {M : List Host.Cell → Prop} {z₀ : State} (s : State) (b : Nat) (busy waiting : Bool) (k₀ : Keeps M z₀ s) : Keeps M
    z₀ (closeSlot s b busy waiting) := by
  unfold closeSlot
  repeat' (first
    | with_reducible assumption | with_reducible apply keeps_ite | with_reducible apply setBank_keeps | with_reducible apply occur_keeps
    | (intros; with_reducible assumption) | (intro t x ht) | (intro t ht) | split | dsimp only | with_reducible apply keeps_mk)

theorem bankCycle_keeps {M : CellProp} {z₀ : State} (s0 : State) (b : Nat) (k₀ : Keeps M.holds z₀ s0) : Keeps M.holds z₀ (bankCycle s0 b)
    := by
  unfold bankCycle
  repeat' (first
    | with_reducible assumption | with_reducible apply keeps_ite | with_reducible apply setBank_keeps | with_reducible apply testSlot_keeps
    | with_reducible apply serveWinner_keeps | with_reducible apply settleHolds_keeps | with_reducible apply closeSlot_keeps
    | (intros; with_reducible assumption) | (intro t x ht) | (intro t ht) | split | dsimp only | with_reducible apply keeps_mk)

theorem copyAccess_keeps {M : CellProp} {z₀ : State} (s : State) (b : Nat) (who : Who) (code addr : Nat) (k₀ : Keeps M.holds z₀ s) : Keeps
    M.holds z₀ (copyAccess s b who code addr) := by
  unfold copyAccess
  repeat' (first
    | with_reducible assumption | with_reducible apply keeps_ite | with_reducible apply enterBank_keeps
    | with_reducible apply bankCycle_keeps | (intros; with_reducible assumption) | (intro t x ht) | (intro t ht) | split | dsimp only
    | with_reducible apply keeps_mk)

theorem holdEnds_keeps {M : List Host.Cell → Prop} {z₀ : State} (s : State) (b : Nat) (r : BReq) (k₀ : Keeps M z₀ s) : Keeps M z₀ (holdEnds
    s b r) := by
  unfold holdEnds
  repeat' (first
    | with_reducible assumption | with_reducible apply keeps_ite | with_reducible apply countSat_keeps | with_reducible apply mapBReq_keeps
    | with_reducible apply answerBusy_keeps | with_reducible apply setAside_keeps | (intros; with_reducible assumption) | (intro t x ht)
    | (intro t ht) | split | dsimp only | with_reducible apply keeps_mk)

theorem execHoldTimeout_keeps {M : List Host.Cell → Prop} {z₀ : State} (bank : BitVec 6) (s : State) (k₀ : Keeps M z₀ s) : Answers M z₀
    (execHoldTimeout bank s) := by
  unfold execHoldTimeout
  repeat' (first
    | with_reducible assumption | with_reducible apply answers_next | with_reducible apply answers_ite | with_reducible apply keeps_ite
    | with_reducible apply holdEnds_keeps | with_reducible apply keeps_foldl | (intros; with_reducible assumption) | (intro t x ht)
    | (intro t ht) | split | dsimp only | with_reducible apply keeps_mk)

theorem execArbitrationSettingApply_keeps {M : List Host.Cell → Prop} {z₀ : State} (s : State) (k₀ : Keeps M z₀ s) : Answers M z₀
    (execArbitrationSettingApply s) := by
  unfold execArbitrationSettingApply
  repeat' (first
    | with_reducible assumption | with_reducible apply answers_next | with_reducible apply answers_ite | with_reducible apply keeps_ite
    | with_reducible apply setBank_keeps | with_reducible apply keeps_foldl | (intros; with_reducible assumption) | (intro t x ht)
    | (intro t ht) | split | dsimp only | with_reducible apply keeps_mk)

/-! ### Sem -/

theorem semStore_keeps {M : CellProp} {z₀ : State} (s : State) (n w b : Nat) (k₀ : Keeps M.holds z₀ s) : Keeps M.holds z₀ (semStore s n w
    b) := by
  unfold semStore
  repeat' (first
    | with_reducible assumption | with_reducible apply keeps_ite | with_reducible apply writeCw_keeps | (intros; with_reducible assumption)
    | (intro t x ht) | (intro t ht) | split | dsimp only | with_reducible apply keeps_mk)

theorem semCount_keeps {M : List Host.Cell → Prop} {z₀ : State} (s : State) (o : StoreOp) (w : Nat) (x : SemEffect) (k₀ : Keeps M z₀ s) :
    Keeps M z₀ (semCount s o w x) := by
  unfold semCount
  repeat' (first
    | with_reducible assumption | with_reducible apply keeps_ite | with_reducible apply wr_keeps | with_reducible apply countSat_keeps
    | (intros; with_reducible assumption) | (intro t x ht) | (intro t ht) | split | dsimp only | with_reducible apply keeps_mk)

theorem traceStore_keeps {M : List Host.Cell → Prop} {z₀ : State} (s : State) (o : StoreOp) (addr unit dest : Nat) (st : Status) (ce :
    Bool) (data : List Byte) (k₀ : Keeps M z₀ s) : Keeps M z₀ (traceStore s o addr unit dest st ce data) := by
  unfold traceStore
  repeat' (first
    | with_reducible assumption | with_reducible apply keeps_ite | with_reducible apply trace_keeps | (intros; with_reducible assumption)
    | (intro t x ht) | (intro t ht) | split | dsimp only | with_reducible apply keeps_mk)

theorem semRefill_keeps {M : List Host.Cell → Prop} {z₀ : State} (s : State) (k₀ : Keeps M z₀ s) : Keeps M z₀ (semRefill s) := by
  unfold semRefill
  repeat' (first
    | with_reducible assumption | with_reducible apply keeps_ite | with_reducible apply semEnter_keeps | with_reducible apply keeps_foldl
    | (intros; with_reducible assumption) | (intro t x ht) | (intro t ht) | split | dsimp only | with_reducible apply keeps_mk)

theorem semUnitServe_keeps {M : CellProp} {z₀ : State} (s : State) (o : StoreOp) (k₀ : Keeps M.holds z₀ s) : Keeps M.holds z₀ (semUnitServe
    s o) := by
  unfold semUnitServe
  repeat' (first
    | with_reducible assumption | with_reducible apply keeps_ite | with_reducible apply bumpFree_keeps
    | with_reducible apply rxCommitted_keeps | with_reducible apply semStore_keeps | with_reducible apply traceStore_keeps
    | with_reducible apply semRefill_keeps | (intros; with_reducible assumption) | (intro t x ht) | (intro t ht) | split | dsimp only
    | with_reducible apply keeps_mk)

theorem semServeOp_keeps {M : CellProp} {z₀ : State} (s : State) (o : StoreOp) (k₀ : Keeps M.holds z₀ s) : Keeps M.holds z₀ (semServeOp s
    o) := by
  unfold semServeOp
  repeat' (first
    | with_reducible assumption | with_reducible apply keeps_ite | with_reducible apply occur_keeps | with_reducible apply answerPart_keeps
    | with_reducible apply samplePoint_keeps | with_reducible apply bumpFree_keeps | with_reducible apply storeFinding_keeps
    | with_reducible apply pairForward_keeps | with_reducible apply semStore_keeps | with_reducible apply semCount_keeps
    | with_reducible apply traceStore_keeps | with_reducible apply semRefill_keeps | (intros; with_reducible assumption) | (intro t x ht)
    | (intro t ht) | split | dsimp only | with_reducible apply keeps_mk)

theorem semServeKind_keeps {M : CellProp} {z₀ : State} (s : State) (k : StoreKind) (k₀ : Keeps M.holds z₀ s) : Keeps M.holds z₀
    (semServeKind s k) := by
  unfold semServeKind
  repeat' (first
    | with_reducible assumption | with_reducible apply keeps_ite | with_reducible apply semServeOp_keeps
    | (intros; with_reducible assumption) | (intro t x ht) | (intro t ht) | split | dsimp only | with_reducible apply keeps_mk)

theorem semCopyServe_keeps {M : List Host.Cell → Prop} {z₀ : State} (s : State) (o : StoreOp) (k₀ : Keeps M z₀ s) : Keeps M z₀
    (semCopyServe s o) := by
  unfold semCopyServe
  repeat' (first
    | with_reducible assumption | with_reducible apply keeps_ite | with_reducible apply bumpFree_keeps
    | with_reducible apply storeFinding_keeps | with_reducible apply pairForward_keeps | with_reducible apply syncNext_keeps
    | with_reducible apply syncStop_keeps | with_reducible apply semRefill_keeps | with_reducible apply keeps_foldl
    | (intros; with_reducible assumption) | (intro t x ht) | (intro t ht) | split | dsimp only | with_reducible apply keeps_mk)

theorem semUnitTurn_keeps {M : CellProp} {z₀ : State} (s : State) (k₀ : Keeps M.holds z₀ s) : Keeps M.holds z₀ (semUnitTurn s) := by
  unfold semUnitTurn
  repeat' (first
    | with_reducible assumption | with_reducible apply keeps_ite | with_reducible apply semUnitServe_keeps
    | with_reducible apply semCopyServe_keeps | (intros; with_reducible assumption) | (intro t x ht) | (intro t ht) | split | dsimp only
    | with_reducible apply keeps_mk)

theorem execSemTry_keeps {M : CellProp} {z₀ : State} (s : State) (k₀ : Keeps M.holds z₀ s) : Answers M.holds z₀ (execSemTry s) := by
  unfold execSemTry
  repeat' (first
    | with_reducible assumption | with_reducible apply answers_next | with_reducible apply answers_ite | with_reducible apply keeps_ite
    | with_reducible apply semServeKind_keeps | (intros; with_reducible assumption) | (intro t x ht) | (intro t ht) | split | dsimp only
    | with_reducible apply keeps_mk)

theorem execSemRelease_keeps {M : CellProp} {z₀ : State} (s : State) (k₀ : Keeps M.holds z₀ s) : Answers M.holds z₀ (execSemRelease s) :=
    by
  unfold execSemRelease
  repeat' (first
    | with_reducible assumption | with_reducible apply answers_next | with_reducible apply answers_ite | with_reducible apply keeps_ite
    | with_reducible apply semServeKind_keeps | (intros; with_reducible assumption) | (intro t x ht) | (intro t ht) | split | dsimp only
    | with_reducible apply keeps_mk)

theorem execSemTicket_keeps {M : CellProp} {z₀ : State} (s : State) (k₀ : Keeps M.holds z₀ s) : Answers M.holds z₀ (execSemTicket s) := by
  unfold execSemTicket
  repeat' (first
    | with_reducible assumption | with_reducible apply answers_next | with_reducible apply answers_ite | with_reducible apply keeps_ite
    | with_reducible apply semServeKind_keeps | (intros; with_reducible assumption) | (intro t x ht) | (intro t ht) | split | dsimp only
    | with_reducible apply keeps_mk)

theorem execSemServe_keeps {M : CellProp} {z₀ : State} (s : State) (k₀ : Keeps M.holds z₀ s) : Answers M.holds z₀ (execSemServe s) := by
  unfold execSemServe
  repeat' (first
    | with_reducible assumption | with_reducible apply answers_next | with_reducible apply answers_ite | with_reducible apply keeps_ite
    | with_reducible apply semServeKind_keeps | (intros; with_reducible assumption) | (intro t x ht) | (intro t ht) | split | dsimp only
    | with_reducible apply keeps_mk)

theorem execSemPeek_keeps {M : CellProp} {z₀ : State} (s : State) (k₀ : Keeps M.holds z₀ s) : Answers M.holds z₀ (execSemPeek s) := by
  unfold execSemPeek
  repeat' (first
    | with_reducible assumption | with_reducible apply answers_next | with_reducible apply answers_ite | with_reducible apply keeps_ite
    | with_reducible apply semServeKind_keeps | (intros; with_reducible assumption) | (intro t x ht) | (intro t ht) | split | dsimp only
    | with_reducible apply keeps_mk)

theorem execStateWrite_keeps {M : CellProp} {z₀ : State} (s : State) (k₀ : Keeps M.holds z₀ s) : Answers M.holds z₀ (execStateWrite s) :=
    by
  unfold execStateWrite
  repeat' (first
    | with_reducible assumption | with_reducible apply answers_next | with_reducible apply answers_ite | with_reducible apply keeps_ite
    | with_reducible apply semServeKind_keeps | (intros; with_reducible assumption) | (intro t x ht) | (intro t ht) | split | dsimp only
    | with_reducible apply keeps_mk)

theorem execNotifyRead_keeps {M : CellProp} {z₀ : State} (s : State) (k₀ : Keeps M.holds z₀ s) : Answers M.holds z₀ (execNotifyRead s) :=
    by
  unfold execNotifyRead
  repeat' (first
    | with_reducible assumption | with_reducible apply answers_next | with_reducible apply answers_ite | with_reducible apply keeps_ite
    | with_reducible apply semServeKind_keeps | (intros; with_reducible assumption) | (intro t x ht) | (intro t ht) | split | dsimp only
    | with_reducible apply keeps_mk)

theorem execNotifyWrite_keeps {M : CellProp} {z₀ : State} (s : State) (k₀ : Keeps M.holds z₀ s) : Answers M.holds z₀ (execNotifyWrite s) :=
    by
  unfold execNotifyWrite
  repeat' (first
    | with_reducible assumption | with_reducible apply answers_next | with_reducible apply answers_ite | with_reducible apply keeps_ite
    | with_reducible apply semServeKind_keeps | (intros; with_reducible assumption) | (intro t x ht) | (intro t ht) | split | dsimp only
    | with_reducible apply keeps_mk)

theorem wrSemClear_keeps {M : List Host.Cell → Prop} {z₀ : State} (s : State) (v : Word64) (k₀ : Keeps M z₀ s) : Keeps M z₀ (wrSemClear s
    v) := by
  unfold wrSemClear
  repeat' (first
    | with_reducible assumption | with_reducible apply keeps_ite | with_reducible apply wrB_keeps | with_reducible apply plainWrite_keeps
    | (intros; with_reducible assumption) | (intro t x ht) | (intro t ht) | split | dsimp only | with_reducible apply keeps_mk)

theorem semClearOne_keeps {M : CellProp} {z₀ : State} (s : State) (n : Nat) (k₀ : Keeps M.holds z₀ s) : Keeps M.holds z₀ (semClearOne s n)
    := by
  unfold semClearOne
  repeat' (first
    | with_reducible assumption | with_reducible apply keeps_ite | with_reducible apply writeCw_keeps | with_reducible apply bumpFree_keeps
    | with_reducible apply pairForward_keeps | (intros; with_reducible assumption) | (intro t x ht) | (intro t ht) | split | dsimp only
    | with_reducible apply keeps_mk)

theorem execSemClearStep_keeps {M : CellProp} {z₀ : State} (s : State) (k₀ : Keeps M.holds z₀ s) : Answers M.holds z₀ (execSemClearStep s)
    := by
  unfold execSemClearStep
  repeat' (first
    | with_reducible assumption | with_reducible apply answers_next | with_reducible apply answers_ite | with_reducible apply keeps_ite
    | with_reducible apply wrB_keeps | with_reducible apply semClearOne_keeps | (intros; with_reducible assumption) | (intro t x ht)
    | (intro t ht) | split | dsimp only | with_reducible apply keeps_mk)

theorem wrSemCtl_keeps {M : List Host.Cell → Prop} {z₀ : State} (s : State) (v : Word64) (k₀ : Keeps M z₀ s) : Keeps M z₀ (wrSemCtl s v) :=
    by
  unfold wrSemCtl
  repeat' (first
    | with_reducible assumption | with_reducible apply keeps_ite | with_reducible apply wr_keeps | with_reducible apply noteCleared_keeps
    | with_reducible apply keeps_foldl | (intros; with_reducible assumption) | (intro t x ht) | (intro t ht) | split | dsimp only
    | with_reducible apply keeps_mk)

/-! ### Mbx -/

theorem mbxRefill_keeps {M : List Host.Cell → Prop} {z₀ : State} (s : State) (k₀ : Keeps M z₀ s) : Keeps M z₀ (mbxRefill s) := by
  unfold mbxRefill
  repeat' (first
    | with_reducible assumption | with_reducible apply keeps_ite | with_reducible apply mbxEnter_keeps | with_reducible apply keeps_foldl
    | (intros; with_reducible assumption) | (intro t x ht) | (intro t ht) | split | dsimp only | with_reducible apply keeps_mk)

theorem mbxPut_keeps {M : CellProp} {z₀ : State} (s : State) (n : Nat) (cws : List (Nat × List Byte)) (k₀ : Keeps M.holds z₀ s) : Keeps
    M.holds z₀ (mbxPut s n cws) := by
  unfold mbxPut
  repeat' (first
    | with_reducible assumption | with_reducible apply keeps_ite | with_reducible apply writeCw_keeps | with_reducible apply keeps_foldl
    | (intros; with_reducible assumption) | (intro t x ht) | (intro t ht) | split | dsimp only | with_reducible apply keeps_mk)

theorem mbxFindings_keeps {M : List Host.Cell → Prop} {z₀ : State} (s0 s : State) (o : StoreOp) (stored : List Nat) (k₀ : Keeps M z₀ s) :
    Keeps M z₀ (mbxFindings s0 s o stored) := by
  unfold mbxFindings
  refine keeps_foldl (fun t k ht => ?_) k₀
  extract_lets d log
  have hl : ∀ i, Keeps M z₀ (log i) := fun i => storeFinding_keeps _ _ _ _ _ ht
  split
  · exact hl _
  · exact hl _
  · exact ht

theorem doorbellCount_keeps {M : List Host.Cell → Prop} {z₀ : State} (s : State) (found : Nat) (k₀ : Keeps M z₀ s) : Keeps M z₀
    (doorbellCount s found) := by
  unfold doorbellCount
  repeat' (first
    | with_reducible assumption | with_reducible apply keeps_ite | with_reducible apply occur_keeps | with_reducible apply countSat_keeps
    | with_reducible apply countWrap_keeps | (intros; with_reducible assumption) | (intro t x ht) | (intro t ht) | split | dsimp only
    | with_reducible apply keeps_mk)

theorem mbxServeOp_keeps {M : CellProp} {z₀ : State} (s0 : State) (o : StoreOp) (k₀ : Keeps M.holds z₀ s0) : Keeps M.holds z₀ (mbxServeOp
    s0 o) := by
  unfold mbxServeOp
  repeat' (first
    | with_reducible assumption | with_reducible apply keeps_ite | with_reducible apply occur_keeps | with_reducible apply answerPart_keeps
    | with_reducible apply samplePoint_keeps | with_reducible apply bumpFree_keeps | with_reducible apply pairForward_keeps
    | with_reducible apply traceStore_keeps | with_reducible apply mbxRefill_keeps | with_reducible apply mbxPut_keeps
    | with_reducible apply mbxFindings_keeps | with_reducible apply doorbellCount_keeps | with_reducible apply keeps_foldl
    | (intros; with_reducible assumption) | (intro t x ht) | (intro t ht) | split | dsimp only | with_reducible apply keeps_mk)

theorem mbxUnitServe_keeps {M : CellProp} {z₀ : State} (s : State) (o : StoreOp) (k₀ : Keeps M.holds z₀ s) : Keeps M.holds z₀ (mbxUnitServe
    s o) := by
  unfold mbxUnitServe
  repeat' (first
    | with_reducible assumption | with_reducible apply keeps_ite | with_reducible apply wrB_keeps | with_reducible apply bumpFree_keeps
    | with_reducible apply traceStore_keeps | with_reducible apply mbxRefill_keeps | with_reducible apply mbxPut_keeps
    | (intros; with_reducible assumption) | (intro t x ht) | (intro t ht) | split | dsimp only | with_reducible apply keeps_mk)

theorem mbxCopyServe_keeps {M : List Host.Cell → Prop} {z₀ : State} (s : State) (o : StoreOp) (k₀ : Keeps M z₀ s) : Keeps M z₀
    (mbxCopyServe s o) := by
  unfold mbxCopyServe
  repeat' (first
    | with_reducible assumption | with_reducible apply keeps_ite | with_reducible apply bumpFree_keeps
    | with_reducible apply storeFinding_keeps | with_reducible apply pairForward_keeps | with_reducible apply syncNext_keeps
    | with_reducible apply syncStop_keeps | with_reducible apply mbxRefill_keeps | with_reducible apply keeps_foldl
    | (intros; with_reducible assumption) | (intro t x ht) | (intro t ht) | split | dsimp only | with_reducible apply keeps_mk)

theorem mbxUnitTurn_keeps {M : CellProp} {z₀ : State} (s : State) (k₀ : Keeps M.holds z₀ s) : Keeps M.holds z₀ (mbxUnitTurn s) := by
  unfold mbxUnitTurn
  repeat' (first
    | with_reducible assumption | with_reducible apply keeps_ite | with_reducible apply mbxUnitServe_keeps
    | with_reducible apply mbxCopyServe_keeps | (intros; with_reducible assumption) | (intro t x ht) | (intro t ht) | split | dsimp only
    | with_reducible apply keeps_mk)

theorem mbxServeKind_keeps {M : CellProp} {z₀ : State} (s : State) (k : StoreKind) (k₀ : Keeps M.holds z₀ s) : Keeps M.holds z₀
    (mbxServeKind s k) := by
  unfold mbxServeKind
  repeat' (first
    | with_reducible assumption | with_reducible apply keeps_ite | with_reducible apply mbxServeOp_keeps
    | (intros; with_reducible assumption) | (intro t x ht) | (intro t ht) | split | dsimp only | with_reducible apply keeps_mk)

theorem execPayloadWrite_keeps {M : CellProp} {z₀ : State} (s : State) (k₀ : Keeps M.holds z₀ s) : Answers M.holds z₀ (execPayloadWrite s)
    := by
  unfold execPayloadWrite
  repeat' (first
    | with_reducible assumption | with_reducible apply answers_next | with_reducible apply answers_ite | with_reducible apply keeps_ite
    | with_reducible apply mbxServeKind_keeps | (intros; with_reducible assumption) | (intro t x ht) | (intro t ht) | split | dsimp only
    | with_reducible apply keeps_mk)

theorem execMailboxRead_keeps {M : CellProp} {z₀ : State} (s : State) (k₀ : Keeps M.holds z₀ s) : Answers M.holds z₀ (execMailboxRead s) :=
    by
  unfold execMailboxRead
  repeat' (first
    | with_reducible assumption | with_reducible apply answers_next | with_reducible apply answers_ite | with_reducible apply keeps_ite
    | with_reducible apply mbxServeKind_keeps | (intros; with_reducible assumption) | (intro t x ht) | (intro t ht) | split | dsimp only
    | with_reducible apply keeps_mk)

theorem execDoorbell_keeps {M : CellProp} {z₀ : State} (s : State) (k₀ : Keeps M.holds z₀ s) : Answers M.holds z₀ (execDoorbell s) := by
  unfold execDoorbell
  repeat' (first
    | with_reducible assumption | with_reducible apply answers_next | with_reducible apply answers_ite | with_reducible apply keeps_ite
    | with_reducible apply mbxServeKind_keeps | (intros; with_reducible assumption) | (intro t x ht) | (intro t ht) | split | dsimp only
    | with_reducible apply keeps_mk)

theorem execMailboxClaim_keeps {M : CellProp} {z₀ : State} (s : State) (k₀ : Keeps M.holds z₀ s) : Answers M.holds z₀ (execMailboxClaim s)
    := by
  unfold execMailboxClaim
  repeat' (first
    | with_reducible assumption | with_reducible apply answers_next | with_reducible apply answers_ite | with_reducible apply keeps_ite
    | with_reducible apply mbxServeKind_keeps | (intros; with_reducible assumption) | (intro t x ht) | (intro t ht) | split | dsimp only
    | with_reducible apply keeps_mk)

theorem execBindingWrite_keeps {M : CellProp} {z₀ : State} (s : State) (k₀ : Keeps M.holds z₀ s) : Answers M.holds z₀ (execBindingWrite s)
    := by
  unfold execBindingWrite
  repeat' (first
    | with_reducible assumption | with_reducible apply answers_next | with_reducible apply answers_ite | with_reducible apply keeps_ite
    | with_reducible apply mbxServeKind_keeps | (intros; with_reducible assumption) | (intro t x ht) | (intro t ht) | split | dsimp only
    | with_reducible apply keeps_mk)

theorem deferOn_keeps {M : List Host.Cell → Prop} {z₀ : State} (s : State) (num : Nat) (d : Deferred) (k₀ : Keeps M z₀ s) : Keeps M z₀
    (deferOn s num d) := by
  unfold deferOn
  repeat' (first
    | with_reducible assumption | with_reducible apply keeps_ite | (intros; with_reducible assumption) | (intro t x ht) | (intro t ht)
    | split | dsimp only | with_reducible apply keeps_mk)

theorem commitEvent_keeps {M : List Host.Cell → Prop} {z₀ : State} (s : State) (c : MbxCommit) (k₀ : Keeps M z₀ s) : Keeps M z₀
    (commitEvent s c) := by
  unfold commitEvent
  repeat' (first
    | with_reducible assumption | with_reducible apply keeps_ite | with_reducible apply doorbellEvent_keeps
    | with_reducible apply deferOn_keeps | (intros; with_reducible assumption) | (intro t x ht) | (intro t ht) | split | dsimp only
    | with_reducible apply keeps_mk)

theorem commitEffect_keeps {M : List Host.Cell → Prop} {z₀ : State} (s : State) (c : MbxCommit) (k₀ : Keeps M z₀ s) : Keeps M z₀
    (commitEffect s c) := by
  unfold commitEffect
  repeat' (first
    | with_reducible assumption | with_reducible apply keeps_ite | with_reducible apply releaseWait_keeps
    | with_reducible apply rxCommitted_keeps | with_reducible apply commitEvent_keeps | (intros; with_reducible assumption)
    | (intro t x ht) | (intro t ht) | split | dsimp only | with_reducible apply keeps_mk)

theorem execMailboxCommit_keeps {M : List Host.Cell → Prop} {z₀ : State} (s : State) (k₀ : Keeps M z₀ s) : Answers M z₀ (execMailboxCommit
    s) := by
  unfold execMailboxCommit
  repeat' (first
    | with_reducible assumption | with_reducible apply answers_next | with_reducible apply answers_ite | with_reducible apply keeps_ite
    | with_reducible apply commitEffect_keeps | (intros; with_reducible assumption) | (intro t x ht) | (intro t ht) | split | dsimp only
    | with_reducible apply keeps_mk)

theorem wrMbxClear_keeps {M : List Host.Cell → Prop} {z₀ : State} (s : State) (v : Word64) (k₀ : Keeps M z₀ s) : Keeps M z₀ (wrMbxClear s
    v) := by
  unfold wrMbxClear
  repeat' (first
    | with_reducible assumption | with_reducible apply keeps_ite | with_reducible apply wrB_keeps | with_reducible apply plainWrite_keeps
    | (intros; with_reducible assumption) | (intro t x ht) | (intro t ht) | split | dsimp only | with_reducible apply keeps_mk)

theorem mbxClearOne_keeps {M : CellProp} {z₀ : State} (s : State) (n : Nat) (k₀ : Keeps M.holds z₀ s) : Keeps M.holds z₀ (mbxClearOne s n)
    := by
  unfold mbxClearOne
  repeat' (first
    | with_reducible assumption | with_reducible apply keeps_ite | with_reducible apply wrB_keeps | with_reducible apply bumpFree_keeps
    | with_reducible apply pairForward_keeps | with_reducible apply mbxPut_keeps | (intros; with_reducible assumption) | (intro t x ht)
    | (intro t ht) | split | dsimp only | with_reducible apply keeps_mk)

theorem execMbxClearStep_keeps {M : CellProp} {z₀ : State} (s : State) (k₀ : Keeps M.holds z₀ s) : Answers M.holds z₀ (execMbxClearStep s)
    := by
  unfold execMbxClearStep
  repeat' (first
    | with_reducible assumption | with_reducible apply answers_next | with_reducible apply answers_ite | with_reducible apply keeps_ite
    | with_reducible apply wrB_keeps | with_reducible apply mbxClearOne_keeps | (intros; with_reducible assumption) | (intro t x ht)
    | (intro t ht) | split | dsimp only | with_reducible apply keeps_mk)

theorem wrMbxGctl_keeps {M : List Host.Cell → Prop} {z₀ : State} (s : State) (v : Word64) (k₀ : Keeps M z₀ s) : Keeps M z₀ (wrMbxGctl s v)
    := by
  unfold wrMbxGctl
  repeat' (first
    | with_reducible assumption | with_reducible apply keeps_ite | with_reducible apply wr_keeps | with_reducible apply noteCleared_keeps
    | with_reducible apply keeps_foldl | (intros; with_reducible assumption) | (intro t x ht) | (intro t ht) | split | dsimp only
    | with_reducible apply keeps_mk)

/-! ### Vat -/

theorem completeVat_keeps {M : List Host.Cell → Prop} {z₀ : State} (s : State) (n : Nat) (k₀ : Keeps M z₀ s) : Keeps M z₀ (completeVat s
    n).1 := by
  unfold completeVat
  repeat' (first
    | with_reducible assumption | with_reducible apply keeps_ite | with_reducible apply wrF_keeps | with_reducible apply wrB_keeps
    | with_reducible apply addWrap_keeps | with_reducible apply occur_keeps | (intros; with_reducible assumption) | (intro t x ht)
    | (intro t ht) | split | dsimp only | with_reducible apply keeps_mk)

theorem completeIfReached_keeps {M : List Host.Cell → Prop} {z₀ : State} (s : State) (n : Nat) (k₀ : Keeps M z₀ s) : Keeps M z₀
    (completeIfReached s n).1 := by
  unfold completeIfReached
  repeat' (first
    | with_reducible assumption | with_reducible apply keeps_ite | with_reducible apply completeVat_keeps
    | (intros; with_reducible assumption) | (intro t x ht) | (intro t ht) | split | dsimp only | with_reducible apply keeps_mk)

theorem tallyVat_keeps {M : List Host.Cell → Prop} {z₀ : State} (s : State) (n : Nat) (k₀ : Keeps M z₀ s) : Keeps M z₀ (tallyVat s n).1 :=
    by
  unfold tallyVat
  repeat' (first
    | with_reducible assumption | with_reducible apply keeps_ite | with_reducible apply addSat_keeps | with_reducible apply addWrap_keeps
    | with_reducible apply occur_keeps | with_reducible apply completeIfReached_keeps | (intros; with_reducible assumption)
    | (intro t x ht) | (intro t ht) | split | dsimp only | with_reducible apply keeps_mk)

theorem execTallyStep_keeps {M : List Host.Cell → Prop} {z₀ : State} (s : State) (k₀ : Keeps M z₀ s) : Answers M z₀ (execTallyStep s) := by
  unfold execTallyStep
  repeat' (first
    | with_reducible assumption | with_reducible apply answers_next | with_reducible apply answers_ite | with_reducible apply keeps_ite
    | with_reducible apply releaseWait_keeps | with_reducible apply vatEvent_keeps | with_reducible apply forwardVat_keeps
    | with_reducible apply tallyVat_keeps | (intros; with_reducible assumption) | (intro t x ht) | (intro t ht) | split | dsimp only
    | with_reducible apply keeps_mk)

theorem accepted_keeps {M : List Host.Cell → Prop} {z₀ : State} (s : State) (k₀ : Keeps M z₀ s) : Keeps M z₀ (accepted s).state := by
  unfold accepted
  repeat' (first
    | with_reducible assumption | with_reducible apply keeps_ite | (intros; with_reducible assumption) | (intro t x ht) | (intro t ht)
    | split | dsimp only | with_reducible apply keeps_mk)

theorem refusedWith_keeps {M : List Host.Cell → Prop} {z₀ : State} (s : State) (st : Status) (k₀ : Keeps M z₀ s) : Keeps M z₀ (refusedWith
    s st).state := by
  unfold refusedWith
  repeat' (first
    | with_reducible assumption | with_reducible apply keeps_ite | (intros; with_reducible assumption) | (intro t x ht) | (intro t ht)
    | split | dsimp only | with_reducible apply keeps_mk)

theorem vatRefuse_keeps {M : List Host.Cell → Prop} {z₀ : State} (s : State) (n code other : Nat) (k₀ : Keeps M z₀ s) : Keeps M z₀
    (vatRefuse s n code other).state := by
  unfold vatRefuse
  repeat' (first
    | with_reducible assumption | with_reducible apply keeps_ite | with_reducible apply wr_keeps | (intros; with_reducible assumption)
    | (intro t x ht) | (intro t ht) | split | dsimp only | with_reducible apply keeps_mk)

theorem vatAccept_keeps {M : List Host.Cell → Prop} {z₀ : State} (s : State) (n : Nat) (ds : List Deferred) (k₀ : Keeps M z₀ s) : Keeps M
    z₀ (vatAccept s n ds).state := by
  unfold vatAccept
  repeat' (first
    | with_reducible assumption | with_reducible apply keeps_ite | with_reducible apply wr_keeps | (intros; with_reducible assumption)
    | (intro t x ht) | (intro t ht) | split | dsimp only | with_reducible apply keeps_mk)

theorem vatStatClear_keeps {M : List Host.Cell → Prop} {z₀ : State} (s : State) (n : Nat) (k₀ : Keeps M z₀ s) : Keeps M z₀ (vatStatClear s
    n) := by
  unfold vatStatClear
  repeat' (first
    | with_reducible assumption | with_reducible apply keeps_ite | with_reducible apply wr_keeps | with_reducible apply wrF_keeps
    | with_reducible apply wrB_keeps | (intros; with_reducible assumption) | (intro t x ht) | (intro t ht) | split | dsimp only
    | with_reducible apply keeps_mk)

theorem vatRearmStep_keeps {M : List Host.Cell → Prop} {z₀ : State} (s : State) (n : Nat) (k₀ : Keeps M z₀ s) : Keeps M z₀ (vatRearmStep s
    n).1 := by
  unfold vatRearmStep
  repeat' (first
    | with_reducible assumption | with_reducible apply keeps_ite | with_reducible apply wrF_keeps | with_reducible apply wrB_keeps
    | with_reducible apply completeIfReached_keeps | (intros; with_reducible assumption) | (intro t x ht) | (intro t ht) | split
    | dsimp only | with_reducible apply keeps_mk)

theorem vatCtlApply_keeps {M : List Host.Cell → Prop} {z₀ : State} (s : State) (n : Nat) (v : Word64) (k₀ : Keeps M z₀ s) : Keeps M z₀
    (vatCtlApply s n v).state := by
  unfold vatCtlApply
  repeat' (first
    | with_reducible assumption | with_reducible apply keeps_ite | with_reducible apply plainWrite_keeps
    | with_reducible apply noteBefore_keeps | with_reducible apply vatEvent_keeps | with_reducible apply vatAccept_keeps
    | with_reducible apply vatStatClear_keeps | with_reducible apply vatRearmStep_keeps | (intros; with_reducible assumption)
    | (intro t x ht) | (intro t ht) | split | dsimp only | with_reducible apply keeps_mk)

theorem wrVatCtl_keeps {M : List Host.Cell → Prop} {z₀ : State} (s : State) (n : Nat) (v : Word64) (k₀ : Keeps M z₀ s) : Keeps M z₀
    (wrVatCtl s n v).state := by
  unfold wrVatCtl
  have h : ∀ w, vatValidCheck s n v = some w → Keeps M z₀ w.state := by
    intro w hw
    unfold vatValidCheck at hw
    dsimp only at hw
    split at hw
    · simp only [Option.some.injEq] at hw; subst hw; exact vatRefuse_keeps _ _ _ _ k₀
    · split at hw
      · simp only [Option.some.injEq] at hw; subst hw; exact vatRefuse_keeps _ _ _ _ k₀
      · split at hw
        · simp only [Option.some.injEq] at hw; subst hw; exact vatRefuse_keeps _ _ _ _ k₀
        · simp at hw
  generalize vatValidCheck s n v = o at h
  split
  · exact refusedWith_keeps _ _ k₀
  · split
    · split
      · exact vatRefuse_keeps _ _ _ _ k₀
      · exact vatCtlApply_keeps _ _ _ k₀
    · split
      · cases o with
        | none => exact vatCtlApply_keeps _ _ _ k₀
        | some w => exact h w rfl
      · exact vatCtlApply_keeps _ _ _ k₀

theorem wrVatOther_keeps {M : List Host.Cell → Prop} {z₀ : State} (s : State) (key : Nat) (v : Word64) (k₀ : Keeps M z₀ s) : Keeps M z₀
    (wrVatOther s key v).state := by
  unfold wrVatOther
  repeat' (first
    | with_reducible assumption | with_reducible apply keeps_ite | with_reducible apply plainWrite_keeps
    | with_reducible apply refusedWith_keeps | with_reducible apply vatRefuse_keeps | with_reducible apply vatAccept_keeps
    | (intros; with_reducible assumption) | (intro t x ht) | (intro t ht) | split | dsimp only | with_reducible apply keeps_mk)

/-! ### Integrity -/

theorem scrubStoreFound_keeps {M : CellProp} {z₀ : State} (s : State) (unit i addr : Nat) (d : Decoded) (k₀ : Keeps M.holds z₀ s) : Keeps
    M.holds z₀ (scrubStoreFound s unit i addr d) := by
  unfold scrubStoreFound
  repeat' (first
    | with_reducible assumption | with_reducible apply keeps_ite | with_reducible apply writeCw_keeps
    | with_reducible apply setIntStat_keeps | with_reducible apply storeFinding_keeps | (intros; with_reducible assumption)
    | (intro t x ht) | (intro t ht) | split | dsimp only | with_reducible apply keeps_mk)

theorem scrubStore_keeps {M : CellProp} {z₀ : State} (s : State) (unit i addr : Nat) (k₀ : Keeps M.holds z₀ s) : Keeps M.holds z₀
    (scrubStore s unit i addr) := by
  unfold scrubStore
  repeat' (first
    | with_reducible assumption | with_reducible apply keeps_ite | with_reducible apply occur_keeps | with_reducible apply trace_keeps
    | with_reducible apply bumpFree_keeps | with_reducible apply scrubStoreFound_keeps | (intros; with_reducible assumption)
    | (intro t x ht) | (intro t ht) | split | dsimp only | with_reducible apply keeps_mk)

theorem scrubLineVisit_keeps {M : CellProp} {z₀ : State} (s : State) (b line : Nat) (k₀ : Keeps M.holds z₀ s) : Keeps M.holds z₀
    (scrubLineVisit s b line) := by
  unfold scrubLineVisit
  repeat' (first
    | with_reducible assumption | with_reducible apply keeps_ite | with_reducible apply scrubAdvance_keeps
    | with_reducible apply copyAccess_keeps | (intros; with_reducible assumption) | (intro t x ht) | (intro t ht) | split | dsimp only
    | with_reducible apply keeps_mk)

theorem scrubStoreVisit_keeps {M : CellProp} {z₀ : State} (s : State) (k₀ : Keeps M.holds z₀ s) : Keeps M.holds z₀ (scrubStoreVisit s) :=
    by
  unfold scrubStoreVisit
  repeat' (first
    | with_reducible assumption | with_reducible apply keeps_ite | with_reducible apply scrubAdvance_keeps
    | with_reducible apply scrubStore_keeps | (intros; with_reducible assumption) | (intro t x ht) | (intro t ht) | split | dsimp only
    | with_reducible apply keeps_mk)

theorem execScrubVisit_keeps {M : CellProp} {z₀ : State} (s : State) (k₀ : Keeps M.holds z₀ s) : Answers M.holds z₀ (execScrubVisit s) :=
    by
  unfold execScrubVisit
  repeat' (first
    | with_reducible assumption | with_reducible apply answers_next | with_reducible apply answers_ite | with_reducible apply keeps_ite
    | with_reducible apply scrubLineVisit_keeps | with_reducible apply scrubStoreVisit_keeps | (intros; with_reducible assumption)
    | (intro t x ht) | (intro t ht) | split | dsimp only | with_reducible apply keeps_mk)

theorem logPut_keeps {M : List Host.Cell → Prop} {z₀ : State} (s : State) (key : Nat → Nat) (e : LogEntry) (seq : Nat) (k₀ : Keeps M z₀ s)
    : Keeps M z₀ (logPut s key e seq) := by
  unfold logPut
  repeat' (first
    | with_reducible assumption | with_reducible apply keeps_ite | with_reducible apply wr_keeps | with_reducible apply keeps_foldl
    | (intros; with_reducible assumption) | (intro t x ht) | (intro t ht) | split | dsimp only | with_reducible apply keeps_mk)

theorem leesPlace_keeps {M : List Host.Cell → Prop} {z₀ : State} (s : State) (e : LogEntry) (k₀ : Keeps M z₀ s) : Keeps M z₀ (leesPlace s
    e) := by
  unfold leesPlace
  repeat' (first
    | with_reducible assumption | with_reducible apply keeps_ite | with_reducible apply wrF_keeps | with_reducible apply addSat_keeps
    | with_reducible apply setIntStat_keeps | with_reducible apply logPut_keeps | (intros; with_reducible assumption) | (intro t x ht)
    | (intro t ht) | split | dsimp only | with_reducible apply keeps_mk)

theorem uePlace_keeps {M : List Host.Cell → Prop} {z₀ : State} (s : State) (e : LogEntry) (k₀ : Keeps M z₀ s) : Keeps M z₀ (uePlace s e) :=
    by
  unfold uePlace
  repeat' (first
    | with_reducible assumption | with_reducible apply keeps_ite | with_reducible apply wrF_keeps | with_reducible apply addSat_keeps
    | with_reducible apply logPut_keeps | (intros; with_reducible assumption) | (intro t x ht) | (intro t ht) | split | dsimp only
    | with_reducible apply keeps_mk)

theorem logPlace_keeps {M : List Host.Cell → Prop} {z₀ : State} (s : State) (lees ue : List LogEntry) (k₀ : Keeps M z₀ s) : Keeps M z₀
    (logPlace s lees ue) := by
  unfold logPlace
  repeat' (first
    | with_reducible assumption | with_reducible apply keeps_ite | with_reducible apply leesPlace_keeps
    | with_reducible apply uePlace_keeps | with_reducible apply keeps_foldl | (intros; with_reducible assumption) | (intro t x ht)
    | (intro t ht) | split | dsimp only | with_reducible apply keeps_mk)

theorem logTakeBack_keeps {M : List Host.Cell → Prop} {z₀ : State} (s : State) (u : LogUndo) (k₀ : Keeps M z₀ s) : Keeps M z₀ (logTakeBack
    s u) := by
  unfold logTakeBack
  repeat' (first
    | with_reducible assumption | with_reducible apply keeps_ite | with_reducible apply wr_keeps | with_reducible apply wrF_keeps
    | with_reducible apply wrB_keeps | with_reducible apply keeps_foldl | (intros; with_reducible assumption) | (intro t x ht)
    | (intro t ht) | split | dsimp only | with_reducible apply keeps_mk)

theorem execLogWrite_keeps {M : List Host.Cell → Prop} {z₀ : State} (s : State) (k₀ : Keeps M z₀ s) : Answers M z₀ (execLogWrite s) := by
  unfold execLogWrite
  repeat' (first
    | with_reducible assumption | with_reducible apply answers_next | with_reducible apply answers_ite | with_reducible apply keeps_ite
    | with_reducible apply logPlace_keeps | (intros; with_reducible assumption) | (intro t x ht) | (intro t ht) | split | dsimp only
    | with_reducible apply keeps_mk)

theorem execRemapCopy_keeps {M : CellProp} {z₀ : State} (s : State) (k₀ : Keeps M.holds z₀ s) : Answers M.holds z₀ (execRemapCopy s) := by
  unfold execRemapCopy
  repeat' (first
    | with_reducible assumption | with_reducible apply answers_next | with_reducible apply answers_ite | with_reducible apply keeps_ite
    | with_reducible apply remapCopyNow_keeps | with_reducible apply copyAccess_keeps | (intros; with_reducible assumption)
    | (intro t x ht) | (intro t ht) | split | dsimp only | with_reducible apply keeps_mk)

theorem logClearStep_keeps {M : List Host.Cell → Prop} {z₀ : State} (s : State) (k₀ : Keeps M z₀ s) : Keeps M z₀ (logClearStep s) := by
  unfold logClearStep
  repeat' (first
    | with_reducible assumption | with_reducible apply keeps_ite | with_reducible apply wrF_keeps | (intros; with_reducible assumption)
    | (intro t x ht) | (intro t ht) | split | dsimp only | with_reducible apply keeps_mk)

theorem intStatClearStep_keeps {M : List Host.Cell → Prop} {z₀ : State} (s : State) (k₀ : Keeps M z₀ s) : Keeps M z₀ (intStatClearStep s)
    := by
  unfold intStatClearStep
  repeat' (first
    | with_reducible assumption | with_reducible apply keeps_ite | with_reducible apply wr_keeps | with_reducible apply wrF_keeps
    | with_reducible apply wrBeside_keeps | with_reducible apply noteCleared_keeps | with_reducible apply keeps_foldl
    | (intros; with_reducible assumption) | (intro t x ht) | (intro t ht) | split | dsimp only | with_reducible apply keeps_mk)

theorem intCtlApply_keeps {M : List Host.Cell → Prop} {z₀ : State} (s : State) (v : Word64) (k₀ : Keeps M z₀ s) : Keeps M z₀ (intCtlApply s
    v) := by
  unfold intCtlApply
  repeat' (first
    | with_reducible assumption | with_reducible apply keeps_ite | with_reducible apply plainWrite_keeps
    | with_reducible apply logClearStep_keeps | (intros; with_reducible assumption) | (intro t x ht) | (intro t ht) | split | dsimp only
    | with_reducible apply keeps_mk)

theorem wrIntCtl_keeps {M : List Host.Cell → Prop} {z₀ : State} (s : State) (v : Word64) (k₀ : Keeps M z₀ s) : Keeps M z₀ (wrIntCtl s v) :=
    by
  unfold wrIntCtl
  repeat' (first
    | with_reducible assumption | with_reducible apply keeps_ite | with_reducible apply logPlace_keeps
    | with_reducible apply logTakeBack_keeps | with_reducible apply intStatClearStep_keeps | with_reducible apply intCtlApply_keeps
    | (intros; with_reducible assumption) | (intro t x ht) | (intro t ht) | split | dsimp only | with_reducible apply keeps_mk)

theorem wrIntInject_keeps {M : List Host.Cell → Prop} {z₀ : State} (s : State) (v : Word64) (k₀ : Keeps M z₀ s) : Keeps M z₀ (wrIntInject s
    v).state := by
  unfold wrIntInject
  repeat' (first
    | with_reducible assumption | with_reducible apply keeps_ite | with_reducible apply plainWrite_keeps
    | with_reducible apply accepted_keeps | with_reducible apply refusedWith_keeps | (intros; with_reducible assumption) | (intro t x ht)
    | (intro t ht) | split | dsimp only | with_reducible apply keeps_mk)

theorem wrIntScrubCfg_keeps {M : List Host.Cell → Prop} {z₀ : State} (s : State) (v : Word64) (k₀ : Keeps M z₀ s) : Keeps M z₀
    (wrIntScrubCfg s v).state := by
  unfold wrIntScrubCfg
  repeat' (first
    | with_reducible assumption | with_reducible apply keeps_ite | with_reducible apply plainWrite_keeps
    | with_reducible apply accepted_keeps | with_reducible apply refusedWith_keeps | (intros; with_reducible assumption) | (intro t x ht)
    | (intro t ht) | split | dsimp only | with_reducible apply keeps_mk)

theorem wrIntHfCfg_keeps {M : List Host.Cell → Prop} {z₀ : State} (s : State) (v : Word64) (k₀ : Keeps M z₀ s) : Keeps M z₀ (wrIntHfCfg s
    v).state := by
  unfold wrIntHfCfg
  repeat' (first
    | with_reducible assumption | with_reducible apply keeps_ite | with_reducible apply plainWrite_keeps
    | with_reducible apply accepted_keeps | with_reducible apply refusedWith_keeps | (intros; with_reducible assumption) | (intro t x ht)
    | (intro t ht) | split | dsimp only | with_reducible apply keeps_mk)

/-! ### TestRepair -/

theorem bgGroupBegin_keeps {M : List Host.Cell → Prop} {z₀ : State} (s : State) (b : Nat) (k₀ : Keeps M z₀ s) : Keeps M z₀ (bgGroupBegin s
    b) := by
  unfold bgGroupBegin
  repeat' (first
    | with_reducible assumption | with_reducible apply keeps_ite | with_reducible apply borrowGroup_keeps
    | with_reducible apply fgBeginGroup_keeps | (intros; with_reducible assumption) | (intro t x ht) | (intro t ht) | split | dsimp only
    | with_reducible apply keeps_mk)

theorem execBgGroupBegin_keeps {M : List Host.Cell → Prop} {z₀ : State} (bank : BitVec 6) (s : State) (k₀ : Keeps M z₀ s) : Answers M z₀
    (execBgGroupBegin bank s) := by
  unfold execBgGroupBegin
  repeat' (first
    | with_reducible assumption | with_reducible apply answers_next | with_reducible apply answers_ite | with_reducible apply keeps_ite
    | with_reducible apply bgGroupBegin_keeps | (intros; with_reducible assumption) | (intro t x ht) | (intro t ht) | split | dsimp only
    | with_reducible apply keeps_mk)

theorem marchFinds_keeps {M : List Host.Cell → Prop} {z₀ : State} (s : State) (unit : Nat) (ls : List (Nat × Nat)) (k₀ : Keeps M z₀ s) :
    Keeps M z₀ (marchFinds s unit ls) := by
  unfold marchFinds
  repeat' (first
    | with_reducible assumption | with_reducible apply keeps_ite | with_reducible apply lineFails_keeps | with_reducible apply keeps_foldl
    | (intros; with_reducible assumption) | (intro t x ht) | (intro t ht) | split | dsimp only | with_reducible apply keeps_mk)

theorem dropAgent_keeps {M : List Host.Cell → Prop} {z₀ : State} (s : State) (u : Nat) (k₀ : Keeps M z₀ s) : Keeps M z₀ (dropAgent s u) :=
    by
  unfold dropAgent
  repeat' (first
    | with_reducible assumption | with_reducible apply keeps_ite | (intros; with_reducible assumption) | (intro t x ht) | (intro t ht)
    | split | dsimp only | with_reducible apply keeps_mk)

theorem addAgent_keeps {M : List Host.Cell → Prop} {z₀ : State} (s : State) (r : TestRun) (k₀ : Keeps M z₀ s) : Keeps M z₀ (addAgent s r)
    := by
  unfold addAgent
  repeat' (first
    | with_reducible assumption | with_reducible apply keeps_ite | (intros; with_reducible assumption) | (intro t x ht) | (intro t ht)
    | split | dsimp only | with_reducible apply keeps_mk)

theorem execSpareTestPassBegin_keeps {M : List Host.Cell → Prop} {z₀ : State} (spare : BitVec 1) (s : State) (k₀ : Keeps M z₀ s) : Answers
    M z₀ (execSpareTestPassBegin spare s) := by
  unfold execSpareTestPassBegin
  repeat' (first
    | with_reducible assumption | with_reducible apply answers_next | with_reducible apply answers_ite | with_reducible apply keeps_ite
    | with_reducible apply addAgent_keeps | (intros; with_reducible assumption) | (intro t x ht) | (intro t ht) | split | dsimp only
    | with_reducible apply keeps_mk)

theorem spareDone_keeps {M : CellProp} {z₀ : State} (s : State) (r : TestRun) (k₀ : Keeps M.holds z₀ s) : Keeps M.holds z₀ (spareDone s r)
    := by
  unfold spareDone
  repeat' (first
    | with_reducible assumption | with_reducible apply keeps_ite | with_reducible apply addWrap_keeps
    | with_reducible apply setSpareState_keeps | with_reducible apply clearUnit_keeps | with_reducible apply dropAgent_keeps
    | (intros; with_reducible assumption) | (intro t x ht) | (intro t ht) | split | dsimp only | with_reducible apply keeps_mk)

theorem agentNext_keeps {M : CellProp} {z₀ : State} (s : State) (r : TestRun) (k₀ : Keeps M.holds z₀ s) : Keeps M.holds z₀ (agentNext s r)
    := by
  unfold agentNext
  repeat' (first
    | with_reducible assumption | with_reducible apply keeps_ite | with_reducible apply fgGroupDone_keeps
    | with_reducible apply dropAgent_keeps | with_reducible apply addAgent_keeps | with_reducible apply spareDone_keeps
    | (intros; with_reducible assumption) | (intro t x ht) | (intro t ht) | split | dsimp only | with_reducible apply keeps_mk)

theorem agentStep_keeps {M : CellProp} {z₀ : State} (s : State) (r : TestRun) (k₀ : Keeps M.holds z₀ s) : Keeps M.holds z₀ (agentStep s r)
    := by
  unfold agentStep
  repeat' (first
    | with_reducible assumption | with_reducible apply keeps_ite | with_reducible apply occur_keeps | with_reducible apply runAccess_keeps
    | with_reducible apply agentNext_keeps | (intros; with_reducible assumption) | (intro t x ht) | (intro t ht) | split | dsimp only
    | with_reducible apply keeps_mk)

theorem agentsCycle_keeps {M : CellProp} {z₀ : State} (s : State) (k₀ : Keeps M.holds z₀ s) : Keeps M.holds z₀ (agentsCycle s) := by
  unfold agentsCycle
  repeat' (first
    | with_reducible assumption | with_reducible apply keeps_ite | with_reducible apply agentStep_keeps | with_reducible apply keeps_foldl
    | (intros; with_reducible assumption) | (intro t x ht) | (intro t ht) | split | dsimp only | with_reducible apply keeps_mk)

theorem yieldBackground_keeps {M : List Host.Cell → Prop} {z₀ : State} (s : State) (k₀ : Keeps M z₀ s) : Keeps M z₀ (yieldBackground s) :=
    by
  unfold yieldBackground
  repeat' (first
    | with_reducible assumption | with_reducible apply keeps_ite | with_reducible apply yieldGroup_keeps | with_reducible apply keeps_foldl
    | (intros; with_reducible assumption) | (intro t x ht) | (intro t ht) | split | dsimp only | with_reducible apply keeps_mk)

theorem wrTstBg_keeps {M : List Host.Cell → Prop} {z₀ : State} (s : State) (v : Word64) (k₀ : Keeps M z₀ s) : Keeps M z₀ (wrTstBg s v) :=
    by
  unfold wrTstBg
  repeat' (first
    | with_reducible assumption | with_reducible apply keeps_ite | with_reducible apply plainWrite_keeps
    | with_reducible apply yieldBackground_keeps | (intros; with_reducible assumption) | (intro t x ht) | (intro t ht) | split
    | dsimp only | with_reducible apply keeps_mk)

theorem fgBegin_keeps {M : List Host.Cell → Prop} {z₀ : State} (s : State) (u : Nat) (k₀ : Keeps M z₀ s) : Keeps M z₀ (fgBegin s u) := by
  unfold fgBegin
  repeat' (first
    | with_reducible assumption | with_reducible apply keeps_ite | with_reducible apply yieldGroup_keeps
    | with_reducible apply fgBeginGroup_keeps | with_reducible apply addAgent_keeps | (intros; with_reducible assumption)
    | (intro t x ht) | (intro t ht) | split | dsimp only | with_reducible apply keeps_mk)

theorem wrTstCmd_keeps {M : List Host.Cell → Prop} {z₀ : State} (s : State) (v : Word64) (k₀ : Keeps M z₀ s) : Keeps M z₀ (wrTstCmd s
    v).state := by
  unfold wrTstCmd
  repeat' (first
    | with_reducible assumption | with_reducible apply keeps_ite | with_reducible apply wr_keeps | with_reducible apply wrF_keeps
    | with_reducible apply plainWrite_keeps | with_reducible apply accepted_keeps | with_reducible apply refusedWith_keeps
    | with_reducible apply fgBegin_keeps | (intros; with_reducible assumption) | (intro t x ht) | (intro t ht) | split | dsimp only
    | with_reducible apply keeps_mk)

theorem clearSemStore_keeps {M : CellProp} {z₀ : State} (s : State) (k₀ : Keeps M.holds z₀ s) : Keeps M.holds z₀ (clearSemStore s) := by
  unfold clearSemStore
  repeat' (first
    | with_reducible assumption | with_reducible apply keeps_ite | with_reducible apply clearUnit_keeps
    | (intros; with_reducible assumption) | (intro t x ht) | (intro t ht) | split | dsimp only | with_reducible apply keeps_mk)

theorem clearMbxStore_keeps {M : CellProp} {z₀ : State} (s : State) (k₀ : Keeps M.holds z₀ s) : Keeps M.holds z₀ (clearMbxStore s) := by
  unfold clearMbxStore
  repeat' (first
    | with_reducible assumption | with_reducible apply keeps_ite | with_reducible apply wrB_keeps | with_reducible apply clearUnit_keeps
    | with_reducible apply mbxPut_keeps | with_reducible apply keeps_foldl | (intros; with_reducible assumption) | (intro t x ht)
    | (intro t ht) | split | dsimp only | with_reducible apply keeps_mk)

theorem fgFinish_keeps {M : List Host.Cell → Prop} {z₀ : State} (s : State) (u : Nat) (k₀ : Keeps M z₀ s) : Keeps M z₀ (fgFinish s u) := by
  unfold fgFinish
  repeat' (first
    | with_reducible assumption | with_reducible apply keeps_ite | with_reducible apply wrF_keeps
    | with_reducible apply settleDeferred_keeps | with_reducible apply retireStart_keeps | (intros; with_reducible assumption)
    | (intro t x ht) | (intro t ht) | split | dsimp only | with_reducible apply keeps_mk)

theorem fgClear_keeps {M : CellProp} {z₀ : State} (s : State) (u : Nat) (k₀ : Keeps M.holds z₀ s) : Keeps M.holds z₀ (fgClear s u) := by
  unfold fgClear
  repeat' (first
    | with_reducible assumption | with_reducible apply keeps_ite | with_reducible apply clearUnit_keeps
    | with_reducible apply clearSemStore_keeps | with_reducible apply clearMbxStore_keeps | (intros; with_reducible assumption)
    | (intro t x ht) | (intro t ht) | split | dsimp only | with_reducible apply keeps_mk)

theorem fgDropRun_keeps {M : List Host.Cell → Prop} {z₀ : State} (s : State) (u : Nat) (k₀ : Keeps M z₀ s) : Keeps M z₀ (fgDropRun s u) :=
    by
  unfold fgDropRun
  repeat' (first
    | with_reducible assumption | with_reducible apply keeps_ite | with_reducible apply setBank_keeps
    | with_reducible apply dropAgent_keeps | (intros; with_reducible assumption) | (intro t x ht) | (intro t ht) | split | dsimp only
    | with_reducible apply keeps_mk)

theorem fgDestroyed_keeps {M : CellProp} {z₀ : State} (s : State) (u : Nat) (k₀ : Keeps M.holds z₀ s) : Keeps M.holds z₀ (fgDestroyed s u)
    := by
  unfold fgDestroyed
  repeat' (first
    | with_reducible assumption | with_reducible apply keeps_ite | with_reducible apply wrF_keeps
    | with_reducible apply setSpareState_keeps | with_reducible apply fgClear_keeps | with_reducible apply fgDropRun_keeps
    | (intros; with_reducible assumption) | (intro t x ht) | (intro t ht) | split | dsimp only | with_reducible apply keeps_mk)

theorem execForegroundTestEnd_keeps {M : CellProp} {z₀ : State} (s : State) (k₀ : Keeps M.holds z₀ s) : Answers M.holds z₀
    (execForegroundTestEnd s) := by
  unfold execForegroundTestEnd
  repeat' (first
    | with_reducible assumption | with_reducible apply answers_next | with_reducible apply answers_ite | with_reducible apply keeps_ite
    | with_reducible apply fgFinish_keeps | with_reducible apply fgDestroyed_keeps | (intros; with_reducible assumption) | (intro t x ht)
    | (intro t ht) | split | dsimp only | with_reducible apply keeps_mk)

theorem abortStep_keeps {M : List Host.Cell → Prop} {z₀ : State} (s : State) (k₀ : Keeps M z₀ s) : Keeps M z₀ (abortStep s) := by
  unfold abortStep
  repeat' (first
    | with_reducible assumption | with_reducible apply keeps_ite | with_reducible apply yieldGroup_keeps
    | with_reducible apply dropAgent_keeps | with_reducible apply addAgent_keeps | with_reducible apply fgFinish_keeps
    | with_reducible apply fgDropRun_keeps | (intros; with_reducible assumption) | (intro t x ht) | (intro t ht) | split | dsimp only
    | with_reducible apply keeps_mk)

theorem wrTstCtl_keeps {M : List Host.Cell → Prop} {z₀ : State} (s : State) (v : Word64) (k₀ : Keeps M z₀ s) : Keeps M z₀ (wrTstCtl s v) :=
    by
  unfold wrTstCtl
  repeat' (first
    | with_reducible assumption | with_reducible apply keeps_ite | with_reducible apply wr_keeps | with_reducible apply noteCleared_keeps
    | with_reducible apply abortStep_keeps | (intros; with_reducible assumption) | (intro t x ht) | (intro t ht) | split | dsimp only
    | with_reducible apply keeps_mk)

theorem wrTstResult_keeps {M : List Host.Cell → Prop} {z₀ : State} (s : State) (v : Word64) (k₀ : Keeps M z₀ s) : Keeps M z₀ (wrTstResult s
    v) := by
  unfold wrTstResult
  repeat' (first
    | with_reducible assumption | with_reducible apply keeps_ite | with_reducible apply wrF_keeps | with_reducible apply wrB_keeps
    | (intros; with_reducible assumption) | (intro t x ht) | (intro t ht) | split | dsimp only | with_reducible apply keeps_mk)

theorem wrRmpCmd_keeps {M : List Host.Cell → Prop} {z₀ : State} (s : State) (v : Word64) (k₀ : Keeps M z₀ s) : Keeps M z₀ (wrRmpCmd s
    v).state := by
  unfold wrRmpCmd
  repeat' (first
    | with_reducible assumption | with_reducible apply keeps_ite | with_reducible apply wr_keeps | with_reducible apply wrF_keeps
    | with_reducible apply plainWrite_keeps | with_reducible apply startRemap_keeps | with_reducible apply accepted_keeps
    | with_reducible apply refusedWith_keeps | (intros; with_reducible assumption) | (intro t x ht) | (intro t ht) | split | dsimp only
    | with_reducible apply keeps_mk)

theorem retireRequest_keeps {M : List Host.Cell → Prop} {z₀ : State} (s : State) (b : Nat) (sel : Option Nat) (k₀ : Keeps M z₀ s) : Keeps M
    z₀ (retireRequest s b sel) := by
  unfold retireRequest
  repeat' (first
    | with_reducible assumption | with_reducible apply keeps_ite | with_reducible apply wrB_keeps | with_reducible apply retireStart_keeps
    | (intros; with_reducible assumption) | (intro t x ht) | (intro t ht) | split | dsimp only | with_reducible apply keeps_mk)

theorem wrRetCmd_keeps {M : List Host.Cell → Prop} {z₀ : State} (s : State) (v : Word64) (k₀ : Keeps M z₀ s) : Keeps M z₀ (wrRetCmd s
    v).state := by
  unfold wrRetCmd
  repeat' (first
    | with_reducible assumption | with_reducible apply keeps_ite | with_reducible apply wrF_keeps | with_reducible apply plainWrite_keeps
    | with_reducible apply accepted_keeps | with_reducible apply refusedWith_keeps | with_reducible apply retireRequest_keeps
    | (intros; with_reducible assumption) | (intro t x ht) | (intro t ht) | split | dsimp only | with_reducible apply keeps_mk)

theorem execScRepairPolicy_keeps {M : List Host.Cell → Prop} {z₀ : State} (bank : BitVec 6) (s : State) (k₀ : Keeps M z₀ s) : Answers M z₀
    (execScRepairPolicy bank s) := by
  unfold execScRepairPolicy
  repeat' (first
    | with_reducible assumption | with_reducible apply answers_next | with_reducible apply answers_ite | with_reducible apply keeps_ite
    | with_reducible apply retireRequest_keeps | (intros; with_reducible assumption) | (intro t x ht) | (intro t ht) | split | dsimp only
    | with_reducible apply keeps_mk)

theorem wrTstEng_keeps {M : List Host.Cell → Prop} {z₀ : State} (s : State) (v : Word64) (k₀ : Keeps M z₀ s) : Keeps M z₀ (wrTstEng s
    v).state := by
  unfold wrTstEng
  repeat' (first
    | with_reducible assumption | with_reducible apply keeps_ite | with_reducible apply wrF_keeps | with_reducible apply plainWrite_keeps
    | with_reducible apply accepted_keeps | with_reducible apply refusedWith_keeps | (intros; with_reducible assumption) | (intro t x ht)
    | (intro t ht) | split | dsimp only | with_reducible apply keeps_mk)

end Sys2Proof.Machine
end

