-- ==== Sys2Proof/Laws/KeepsEngines.lean ====
section
/-! SUPPORT. One lemma for each operation and each meaning of the engines, the observation blocks and the interrupt controller:
it leaves the variant, device time and the queue of commands alone and keeps the canonical form of the memory; a meaning always answers
a next state. -/

namespace Sys2Proof.Machine

/-! ### Access -/

theorem countDenied_keeps {M : List Host.Cell → Prop} {z₀ : State} (s : State) (r : Req) (k₀ : Keeps M z₀ s) : Keeps M z₀ (countDenied s r)
    := by
  unfold countDenied
  repeat' (first
    | with_reducible assumption | with_reducible apply keeps_ite | with_reducible apply addSat_keeps | with_reducible apply countSat_keeps
    | (intros; with_reducible assumption) | (intro t x ht) | (intro t ht) | split | dsimp only | with_reducible apply keeps_mk)

theorem traceRefused_keeps {M : List Host.Cell → Prop} {z₀ : State} (s : State) (r : Req) (half2 : Bool) (st : Status) (k₀ : Keeps M z₀ s)
    : Keeps M z₀ (traceRefused s r half2 st) := by
  unfold traceRefused
  repeat' (first
    | with_reducible assumption | with_reducible apply keeps_ite | with_reducible apply trace_keeps | (intros; with_reducible assumption)
    | (intro t x ht) | (intro t ht) | split | dsimp only | with_reducible apply keeps_mk)

theorem refuse_keeps {M : List Host.Cell → Prop} {z₀ : State} (s : State) (r : Req) (uid halves : Nat) (st : Status) (k₀ : Keeps M z₀ s) :
    Keeps M z₀ (refuse s r uid halves st) := by
  unfold refuse
  repeat' (first
    | with_reducible assumption | with_reducible apply keeps_ite | with_reducible apply answerPart_keeps
    | with_reducible apply traceRefused_keeps | with_reducible apply keeps_foldl | (intros; with_reducible assumption) | (intro t x ht)
    | (intro t ht) | split | dsimp only | with_reducible apply keeps_mk)

theorem toBanks_keeps {M : List Host.Cell → Prop} {z₀ : State} (s : State) (r : Req) (uid : Nat) (vat : Option Nat) (k₀ : Keeps M z₀ s) :
    Keeps M z₀ (toBanks s r uid vat) := by
  unfold toBanks
  repeat' (first
    | with_reducible assumption | with_reducible apply keeps_ite | with_reducible apply answerPart_keeps
    | with_reducible apply sampleQueued_keeps | with_reducible apply enterBank_keeps | with_reducible apply setAside_keeps
    | with_reducible apply traceRefused_keeps | with_reducible apply keeps_foldl | (intros; with_reducible assumption) | (intro t x ht)
    | (intro t ht) | split | dsimp only | with_reducible apply keeps_mk)

theorem vatMismatch_keeps {M : List Host.Cell → Prop} {z₀ : State} (s : State) (r : Req) (uid n : Nat) (k₀ : Keeps M z₀ s) : Keeps M z₀
    (vatMismatch s r uid n) := by
  unfold vatMismatch
  repeat' (first
    | with_reducible assumption | with_reducible apply keeps_ite | with_reducible apply addSat_keeps
    | with_reducible apply answerPart_keeps | with_reducible apply forwardVat_keeps | with_reducible apply traceRefused_keeps
    | (intros; with_reducible assumption) | (intro t x ht) | (intro t ht) | split | dsimp only | with_reducible apply keeps_mk)

theorem toVat_keeps {M : List Host.Cell → Prop} {z₀ : State} (s : State) (r : Req) (uid : Nat) (k₀ : Keeps M z₀ s) : Keeps M z₀ (toVat s r
    uid) := by
  unfold toVat
  repeat' (first
    | with_reducible assumption | with_reducible apply keeps_ite | with_reducible apply refuse_keeps | with_reducible apply toBanks_keeps
    | with_reducible apply vatMismatch_keeps | (intros; with_reducible assumption) | (intro t x ht) | (intro t ht) | split | dsimp only
    | with_reducible apply keeps_mk)

theorem deliver_keeps {M : List Host.Cell → Prop} {z₀ : State} (s : State) (r : Req) (uid : Nat) (k₀ : Keeps M z₀ s) : Keeps M z₀ (deliver
    s r uid) := by
  unfold deliver
  repeat' (first
    | with_reducible assumption | with_reducible apply keeps_ite | with_reducible apply occur_keeps
    | with_reducible apply sampleQueued_keeps | with_reducible apply countWrap_keeps | with_reducible apply mbxEnter_keeps
    | with_reducible apply semEnter_keeps | with_reducible apply toBanks_keeps | with_reducible apply toVat_keeps
    | (intros; with_reducible assumption) | (intro t x ht) | (intro t ht) | split | dsimp only | with_reducible apply keeps_mk)

theorem submitAccess_keeps {M : List Host.Cell → Prop} {z₀ : State} (s : State) (r : Req) (uid : Nat) (retry : Bool) (k₀ : Keeps M z₀ s) :
    Keeps M z₀ (submitAccess s r uid retry) := by
  unfold submitAccess
  repeat' (first
    | with_reducible assumption | with_reducible apply keeps_ite | with_reducible apply countDenied_keeps
    | with_reducible apply refuse_keeps | with_reducible apply deliver_keeps | (intros; with_reducible assumption) | (intro t x ht)
    | (intro t ht) | split | dsimp only | with_reducible apply keeps_mk)

/-! ### EngineBase -/

theorem setEngState_keeps {M : List Host.Cell → Prop} {z₀ : State} (s : State) (e v : Nat) (k₀ : Keeps M z₀ s) : Keeps M z₀ (setEngState s
    e v) := by
  unfold setEngState
  repeat' (first
    | with_reducible assumption | with_reducible apply keeps_ite | with_reducible apply wrF_keeps | (intros; with_reducible assumption)
    | (intro t x ht) | (intro t ht) | split | dsimp only | with_reducible apply keeps_mk)

theorem toRunOrIdle_keeps {M : List Host.Cell → Prop} {z₀ : State} (s : State) (e q : Nat) (k₀ : Keeps M z₀ s) : Keeps M z₀ (toRunOrIdle s
    e q) := by
  unfold toRunOrIdle
  repeat' (first
    | with_reducible assumption | with_reducible apply keeps_ite | with_reducible apply setQueue_keeps
    | with_reducible apply setQState_keeps | with_reducible apply runOrIdle_keeps | (intros; with_reducible assumption) | (intro t x ht)
    | (intro t ht) | split | dsimp only | with_reducible apply keeps_mk)

theorem mapRun_keeps {M : List Host.Cell → Prop} {z₀ : State} (s : State) (e q index : Nat) (f : Run → Run) (k₀ : Keeps M z₀ s) : Keeps M
    z₀ (mapRun s e q index f) := by
  unfold mapRun
  repeat' (first
    | with_reducible assumption | with_reducible apply keeps_ite | with_reducible apply setQueue_keeps
    | (intros; with_reducible assumption) | (intro t x ht) | (intro t ht) | split | dsimp only | with_reducible apply keeps_mk)

theorem useIssue_keeps {M : List Host.Cell → Prop} {z₀ : State} (s : State) (e : Nat) (k₀ : Keeps M z₀ s) : Keeps M z₀ (useIssue s e) := by
  unfold useIssue
  repeat' (first
    | with_reducible assumption | with_reducible apply keeps_ite | with_reducible apply addWrap_keeps
    | with_reducible apply setEngine_keeps | with_reducible apply occur_keeps | (intros; with_reducible assumption) | (intro t x ht)
    | (intro t ht) | split | dsimp only | with_reducible apply keeps_mk)

theorem useIssueFor_keeps {M : List Host.Cell → Prop} {z₀ : State} (s : State) (e q : Nat) (k₀ : Keeps M z₀ s) : Keeps M z₀ (useIssueFor s
    e q) := by
  unfold useIssueFor
  repeat' (first
    | with_reducible assumption | with_reducible apply keeps_ite | with_reducible apply setEngine_keeps
    | with_reducible apply useIssue_keeps | (intros; with_reducible assumption) | (intro t x ht) | (intro t ht) | split | dsimp only
    | with_reducible apply keeps_mk)

theorem issueAccess_keeps {M : List Host.Cell → Prop} {z₀ : State} (s : State) (e q index : Nat) (use : AccUse) (r : Req) (k₀ : Keeps M z₀
    s) : Keeps M z₀ (issueAccess s e q index use r) := by
  unfold issueAccess
  repeat' (first
    | with_reducible assumption | with_reducible apply keeps_ite | with_reducible apply setQueue_keeps | with_reducible apply takeUid_keeps
    | with_reducible apply submitAccess_keeps | with_reducible apply useIssueFor_keeps | (intros; with_reducible assumption)
    | (intro t x ht) | (intro t ht) | split | dsimp only | with_reducible apply keeps_mk)

theorem reissueAccess_keeps {M : List Host.Cell → Prop} {z₀ : State} (s : State) (e q : Nat) (a : EngAcc) (k₀ : Keeps M z₀ s) : Keeps M z₀
    (reissueAccess s e q a) := by
  unfold reissueAccess
  repeat' (first
    | with_reducible assumption | with_reducible apply keeps_ite | with_reducible apply mapAcc_keeps
    | with_reducible apply submitAccess_keeps | with_reducible apply useIssueFor_keeps | (intros; with_reducible assumption)
    | (intro t x ht) | (intro t ht) | split | dsimp only | with_reducible apply keeps_mk)

theorem dropPushes_keeps {M : List Host.Cell → Prop} {z₀ : State} (s : State) (gone : PushWait → Bool) (k₀ : Keeps M z₀ s) : Keeps M z₀
    (dropPushes s gone) := by
  unfold dropPushes
  repeat' (first
    | with_reducible assumption | with_reducible apply keeps_ite | (intros; with_reducible assumption) | (intro t x ht) | (intro t ht)
    | split | dsimp only | with_reducible apply keeps_mk)

theorem lockWaitCount_keeps {M : List Host.Cell → Prop} {z₀ : State} (s : State) (e q : Nat) (a : EngAcc) (k₀ : Keeps M z₀ s) : Keeps M z₀
    (lockWaitCount s e q a) := by
  unfold lockWaitCount
  repeat' (first
    | with_reducible assumption | with_reducible apply keeps_ite | with_reducible apply countSat_keeps | with_reducible apply mapRun_keeps
    | (intros; with_reducible assumption) | (intro t x ht) | (intro t ht) | split | dsimp only | with_reducible apply keeps_mk)

theorem takeAnswer_keeps {M : List Host.Cell → Prop} {z₀ : State} (s : State) (e q : Nat) (a : EngAcc) (k₀ : Keeps M z₀ s) : Keeps M z₀
    (takeAnswer s e q a) := by
  unfold takeAnswer
  repeat' (first
    | with_reducible assumption | with_reducible apply keeps_ite | with_reducible apply addSat_keeps | with_reducible apply setQueue_keeps
    | with_reducible apply countSat_keeps | with_reducible apply mapRun_keeps | with_reducible apply lockWaitCount_keeps
    | (intros; with_reducible assumption) | (intro t x ht) | (intro t ht) | split | dsimp only | with_reducible apply keeps_mk)

theorem collect_keeps {M : List Host.Cell → Prop} {z₀ : State} (s : State) (e q : Nat) (k₀ : Keeps M z₀ s) : Keeps M z₀ (collect s e q) :=
    by
  unfold collect
  repeat' (first
    | with_reducible assumption | with_reducible apply keeps_ite | with_reducible apply takeAnswer_keeps | with_reducible apply keeps_foldl
    | (intros; with_reducible assumption) | (intro t x ht) | (intro t ht) | split | dsimp only | with_reducible apply keeps_mk)

/-! ### Engine -/

theorem pushSend_keeps {M : List Host.Cell → Prop} {z₀ : State} (s : State) (e q index : Nat) (k₀ : Keeps M z₀ s) : Keeps M z₀ (pushSend s
    e q index) := by
  unfold pushSend
  repeat' (first
    | with_reducible assumption | with_reducible apply keeps_ite | with_reducible apply emit_keeps | with_reducible apply sendOn_keeps
    | with_reducible apply mapRun_keeps | (intros; with_reducible assumption) | (intro t x ht) | (intro t ht) | split | dsimp only
    | with_reducible apply keeps_mk)

theorem pushSettle_keeps {M : List Host.Cell → Prop} {z₀ : State} (s : State) (e q index : Nat) (k₀ : Keeps M z₀ s) : Keeps M z₀
    (pushSettle s e q index) := by
  unfold pushSettle
  repeat' (first
    | with_reducible assumption | with_reducible apply keeps_ite | with_reducible apply mapRun_keeps | with_reducible apply pushSend_keeps
    | with_reducible apply keeps_foldl | (intros; with_reducible assumption) | (intro t x ht) | (intro t ht) | split | dsimp only
    | with_reducible apply keeps_mk)

theorem pushAll_keeps {M : List Host.Cell → Prop} {z₀ : State} (s : State) (e q : Nat) (k₀ : Keeps M z₀ s) : Keeps M z₀ (pushAll s e q) :=
    by
  unfold pushAll
  repeat' (first
    | with_reducible assumption | with_reducible apply keeps_ite | with_reducible apply pushSettle_keeps | with_reducible apply keeps_foldl
    | (intros; with_reducible assumption) | (intro t x ht) | (intro t ht) | split | dsimp only | with_reducible apply keeps_mk)

theorem settleMatch_keeps {M : List Host.Cell → Prop} {z₀ : State} (s : State) (e q : Nat) (r : Run) (k₀ : Keeps M z₀ s) : Keeps M z₀
    (settleMatch s e q r) := by
  unfold settleMatch
  repeat' (first
    | with_reducible assumption | with_reducible apply keeps_ite | with_reducible apply countSat_keeps | with_reducible apply mapRun_keeps
    | (intros; with_reducible assumption) | (intro t x ht) | (intro t ht) | split | dsimp only | with_reducible apply keeps_mk)

theorem settleRun_keeps {M : List Host.Cell → Prop} {z₀ : State} (s : State) (e q index : Nat) (k₀ : Keeps M z₀ s) : Keeps M z₀ (settleRun
    s e q index) := by
  unfold settleRun
  repeat' (first
    | with_reducible assumption | with_reducible apply keeps_ite | with_reducible apply mapRun_keeps
    | with_reducible apply settleMatch_keeps | (intros; with_reducible assumption) | (intro t x ht) | (intro t ht) | split | dsimp only
    | with_reducible apply keeps_mk)

theorem refreshState_keeps {M : List Host.Cell → Prop} {z₀ : State} (s : State) (e q : Nat) (k₀ : Keeps M z₀ s) : Keeps M z₀ (refreshState
    s e q) := by
  unfold refreshState
  repeat' (first
    | with_reducible assumption | with_reducible apply keeps_ite | with_reducible apply setQueue_keeps
    | with_reducible apply setQState_keeps | with_reducible apply runOrIdle_keeps | (intros; with_reducible assumption) | (intro t x ht)
    | (intro t ht) | split | dsimp only | with_reducible apply keeps_mk)

theorem prepareQueue_keeps {M : List Host.Cell → Prop} {z₀ : State} (s : State) (e q : Nat) (k₀ : Keeps M z₀ s) : Keeps M z₀ (prepareQueue
    s e q) := by
  unfold prepareQueue
  repeat' (first
    | with_reducible assumption | with_reducible apply keeps_ite | with_reducible apply collect_keeps | with_reducible apply pushAll_keeps
    | with_reducible apply settleRun_keeps | with_reducible apply refreshState_keeps | with_reducible apply keeps_foldl
    | (intros; with_reducible assumption) | (intro t x ht) | (intro t ht) | split | dsimp only | with_reducible apply keeps_mk)

theorem beginDesc_keeps {M : List Host.Cell → Prop} {z₀ : State} (s : State) (e q : Nat) (want : List Byte → Bool) (start : State → Run →
    Run) (k₀ : Keeps M z₀ s) : Keeps M z₀ (beginDesc s e q want start) := by
  unfold beginDesc
  repeat' (first
    | with_reducible assumption | with_reducible apply keeps_ite | with_reducible apply setQueue_keeps
    | with_reducible apply refreshState_keeps | with_reducible apply prepareQueue_keeps | (intros; with_reducible assumption)
    | (intro t x ht) | (intro t ht) | split | dsimp only | with_reducible apply keeps_mk)

theorem actionSkip_keeps {M : List Host.Cell → Prop} {z₀ : State} (s : State) (e q : Nat) (k₀ : Keeps M z₀ s) : Keeps M z₀ (actionSkip s e
    q) := by
  unfold actionSkip
  repeat' (first
    | with_reducible assumption | with_reducible apply keeps_ite | with_reducible apply addSat_keeps | with_reducible apply mapRun_keeps
    | (intros; with_reducible assumption) | (intro t x ht) | (intro t ht) | split | dsimp only | with_reducible apply keeps_mk)

theorem enterFault_keeps {M : List Host.Cell → Prop} {z₀ : State} (s : State) (e q : Nat) (r : Run) (k₀ : Keeps M z₀ s) : Keeps M z₀
    (enterFault s e q r) := by
  unfold enterFault
  repeat' (first
    | with_reducible assumption | with_reducible apply keeps_ite | with_reducible apply wr_keeps | with_reducible apply setQueue_keeps
    | with_reducible apply setQState_keeps | with_reducible apply setEngBit_keeps | with_reducible apply dropPushes_keeps
    | (intros; with_reducible assumption) | (intro t x ht) | (intro t ht) | split | dsimp only | with_reducible apply keeps_mk)

theorem matchEnded_keeps {M : List Host.Cell → Prop} {z₀ : State} (s : State) (r : Run) (k₀ : Keeps M z₀ s) : Keeps M z₀ (matchEnded s r)
    := by
  unfold matchEnded
  repeat' (first
    | with_reducible assumption | with_reducible apply keeps_ite | with_reducible apply wrF_keeps | with_reducible apply occur_keeps
    | with_reducible apply countWrap_keeps | (intros; with_reducible assumption) | (intro t x ht) | (intro t ht) | split | dsimp only
    | with_reducible apply keeps_mk)

theorem retireHead_keeps {M : List Host.Cell → Prop} {z₀ : State} (s : State) (e q : Nat) (r : Run) (k₀ : Keeps M z₀ s) : Keeps M z₀
    (retireHead s e q r) := by
  unfold retireHead
  repeat' (first
    | with_reducible assumption | with_reducible apply keeps_ite | with_reducible apply wrF_keeps | with_reducible apply addSat_keeps
    | with_reducible apply addWrap_keeps | with_reducible apply setQueue_keeps | with_reducible apply occur_keeps
    | with_reducible apply dropPushes_keeps | with_reducible apply refreshState_keeps | with_reducible apply enterFault_keeps
    | with_reducible apply matchEnded_keeps | (intros; with_reducible assumption) | (intro t x ht) | (intro t ht) | split | dsimp only
    | with_reducible apply keeps_mk)

theorem retireStep_keeps {M : List Host.Cell → Prop} {z₀ : State} (s : State) (e q : Nat) (k₀ : Keeps M z₀ s) : Keeps M z₀ (retireStep s e
    q) := by
  unfold retireStep
  repeat' (first
    | with_reducible assumption | with_reducible apply keeps_ite | with_reducible apply prepareQueue_keeps
    | with_reducible apply actionSkip_keeps | with_reducible apply retireHead_keeps | (intros; with_reducible assumption)
    | (intro t x ht) | (intro t ht) | split | dsimp only | with_reducible apply keeps_mk)

theorem execDescriptorRetire_keeps {M : List Host.Cell → Prop} {z₀ : State} (e : BitVec 4) (q : BitVec 2) (s : State) (k₀ : Keeps M z₀ s) :
    Answers M z₀ (execDescriptorRetire e q s) := by
  unfold execDescriptorRetire
  repeat' (first
    | with_reducible assumption | with_reducible apply answers_next | with_reducible apply answers_ite | with_reducible apply keeps_ite
    | with_reducible apply retireStep_keeps | (intros; with_reducible assumption) | (intro t x ht) | (intro t ht) | split | dsimp only
    | with_reducible apply keeps_mk)

theorem issueReady_keeps {M : List Host.Cell → Prop} {z₀ : State} (s : State) (e q : Nat) (k₀ : Keeps M z₀ s) : Keeps M z₀ (issueReady s e
    q) := by
  unfold issueReady
  repeat' (first
    | with_reducible assumption | with_reducible apply keeps_ite | with_reducible apply mapRun_keeps
    | with_reducible apply issueAccess_keeps | with_reducible apply reissueAccess_keeps | (intros; with_reducible assumption)
    | (intro t x ht) | (intro t ht) | split | dsimp only | with_reducible apply keeps_mk)

theorem prepareEngine_keeps {M : List Host.Cell → Prop} {z₀ : State} (s : State) (e : Nat) (k₀ : Keeps M z₀ s) : Keeps M z₀ (prepareEngine
    s e) := by
  unfold prepareEngine
  repeat' (first
    | with_reducible assumption | with_reducible apply keeps_ite | with_reducible apply prepareQueue_keeps
    | with_reducible apply actionSkip_keeps | with_reducible apply keeps_foldl | (intros; with_reducible assumption) | (intro t x ht)
    | (intro t ht) | split | dsimp only | with_reducible apply keeps_mk)

/-! ### Descriptors -/

theorem mapRuns_keeps {M : List Host.Cell → Prop} {z₀ : State} (s : State) (e q : Nat) (f : Run → Run) (k₀ : Keeps M z₀ s) : Keeps M z₀
    (mapRuns s e q f) := by
  unfold mapRuns
  repeat' (first
    | with_reducible assumption | with_reducible apply keeps_ite | with_reducible apply setQueue_keeps
    | (intros; with_reducible assumption) | (intro t x ht) | (intro t ht) | split | dsimp only | with_reducible apply keeps_mk)

theorem execWaitReevaluate_keeps {M : List Host.Cell → Prop} {z₀ : State} (e : BitVec 4) (q : BitVec 2) (s : State) (k₀ : Keeps M z₀ s) :
    Answers M z₀ (execWaitReevaluate e q s) := by
  unfold execWaitReevaluate
  repeat' (first
    | with_reducible assumption | with_reducible apply answers_next | with_reducible apply answers_ite | with_reducible apply keeps_ite
    | with_reducible apply refreshState_keeps | with_reducible apply issueReady_keeps | with_reducible apply prepareEngine_keeps
    | with_reducible apply mapRuns_keeps | (intros; with_reducible assumption) | (intro t x ht) | (intro t ht) | split | dsimp only
    | with_reducible apply keeps_mk)

theorem execWaitTimeout_keeps {M : List Host.Cell → Prop} {z₀ : State} (e : BitVec 4) (q : BitVec 2) (s : State) (k₀ : Keeps M z₀ s) :
    Answers M z₀ (execWaitTimeout e q s) := by
  unfold execWaitTimeout
  repeat' (first
    | with_reducible assumption | with_reducible apply answers_next | with_reducible apply answers_ite | with_reducible apply keeps_ite
    | with_reducible apply refreshState_keeps | with_reducible apply prepareQueue_keeps | with_reducible apply mapRuns_keeps
    | (intros; with_reducible assumption) | (intro t x ht) | (intro t ht) | split | dsimp only | with_reducible apply keeps_mk)

theorem execNopDesc_keeps {M : List Host.Cell → Prop} {z₀ : State} (e : BitVec 4) (q : BitVec 2) (s : State) (k₀ : Keeps M z₀ s) : Answers
    M z₀ (execNopDesc e q s) := by
  unfold execNopDesc
  repeat' (first
    | with_reducible assumption | with_reducible apply answers_next | with_reducible apply answers_ite | with_reducible apply keeps_ite
    | with_reducible apply beginDesc_keeps | (intros; with_reducible assumption) | (intro t x ht) | (intro t ht) | split | dsimp only
    | with_reducible apply keeps_mk)

theorem execCopyDesc_keeps {M : List Host.Cell → Prop} {z₀ : State} (e : BitVec 4) (q : BitVec 2) (s : State) (k₀ : Keeps M z₀ s) : Answers
    M z₀ (execCopyDesc e q s) := by
  unfold execCopyDesc
  repeat' (first
    | with_reducible assumption | with_reducible apply answers_next | with_reducible apply answers_ite | with_reducible apply keeps_ite
    | with_reducible apply beginDesc_keeps | (intros; with_reducible assumption) | (intro t x ht) | (intro t ht) | split | dsimp only
    | with_reducible apply keeps_mk)

theorem execFillDesc_keeps {M : List Host.Cell → Prop} {z₀ : State} (e : BitVec 4) (q : BitVec 2) (s : State) (k₀ : Keeps M z₀ s) : Answers
    M z₀ (execFillDesc e q s) := by
  unfold execFillDesc
  repeat' (first
    | with_reducible assumption | with_reducible apply answers_next | with_reducible apply answers_ite | with_reducible apply keeps_ite
    | with_reducible apply beginDesc_keeps | (intros; with_reducible assumption) | (intro t x ht) | (intro t ht) | split | dsimp only
    | with_reducible apply keeps_mk)

theorem execGatherDesc_keeps {M : List Host.Cell → Prop} {z₀ : State} (e : BitVec 4) (q : BitVec 2) (s : State) (k₀ : Keeps M z₀ s) :
    Answers M z₀ (execGatherDesc e q s) := by
  unfold execGatherDesc
  repeat' (first
    | with_reducible assumption | with_reducible apply answers_next | with_reducible apply answers_ite | with_reducible apply keeps_ite
    | with_reducible apply beginDesc_keeps | (intros; with_reducible assumption) | (intro t x ht) | (intro t ht) | split | dsimp only
    | with_reducible apply keeps_mk)

theorem execScatterDesc_keeps {M : List Host.Cell → Prop} {z₀ : State} (e : BitVec 4) (q : BitVec 2) (s : State) (k₀ : Keeps M z₀ s) :
    Answers M z₀ (execScatterDesc e q s) := by
  unfold execScatterDesc
  repeat' (first
    | with_reducible assumption | with_reducible apply answers_next | with_reducible apply answers_ite | with_reducible apply keeps_ite
    | with_reducible apply beginDesc_keeps | (intros; with_reducible assumption) | (intro t x ht) | (intro t ht) | split | dsimp only
    | with_reducible apply keeps_mk)

theorem execAccumDesc_keeps {M : List Host.Cell → Prop} {z₀ : State} (e : BitVec 4) (q : BitVec 2) (s : State) (k₀ : Keeps M z₀ s) :
    Answers M z₀ (execAccumDesc e q s) := by
  unfold execAccumDesc
  repeat' (first
    | with_reducible assumption | with_reducible apply answers_next | with_reducible apply answers_ite | with_reducible apply keeps_ite
    | with_reducible apply beginDesc_keeps | (intros; with_reducible assumption) | (intro t x ht) | (intro t ht) | split | dsimp only
    | with_reducible apply keeps_mk)

theorem execCrcDesc_keeps {M : List Host.Cell → Prop} {z₀ : State} (e : BitVec 4) (q : BitVec 2) (s : State) (k₀ : Keeps M z₀ s) : Answers
    M z₀ (execCrcDesc e q s) := by
  unfold execCrcDesc
  repeat' (first
    | with_reducible assumption | with_reducible apply answers_next | with_reducible apply answers_ite | with_reducible apply keeps_ite
    | with_reducible apply beginDesc_keeps | (intros; with_reducible assumption) | (intro t x ht) | (intro t ht) | split | dsimp only
    | with_reducible apply keeps_mk)

theorem execCompareDesc_keeps {M : List Host.Cell → Prop} {z₀ : State} (e : BitVec 4) (q : BitVec 2) (s : State) (k₀ : Keeps M z₀ s) :
    Answers M z₀ (execCompareDesc e q s) := by
  unfold execCompareDesc
  repeat' (first
    | with_reducible assumption | with_reducible apply answers_next | with_reducible apply answers_ite | with_reducible apply keeps_ite
    | with_reducible apply beginDesc_keeps | (intros; with_reducible assumption) | (intro t x ht) | (intro t ht) | split | dsimp only
    | with_reducible apply keeps_mk)

theorem execSemaTry_keeps {M : List Host.Cell → Prop} {z₀ : State} (e : BitVec 4) (q : BitVec 2) (s : State) (k₀ : Keeps M z₀ s) : Answers
    M z₀ (execSemaTry e q s) := by
  unfold execSemaTry
  repeat' (first
    | with_reducible assumption | with_reducible apply answers_next | with_reducible apply answers_ite | with_reducible apply keeps_ite
    | with_reducible apply beginDesc_keeps | (intros; with_reducible assumption) | (intro t x ht) | (intro t ht) | split | dsimp only
    | with_reducible apply keeps_mk)

theorem execSemaRelease_keeps {M : List Host.Cell → Prop} {z₀ : State} (e : BitVec 4) (q : BitVec 2) (s : State) (k₀ : Keeps M z₀ s) :
    Answers M z₀ (execSemaRelease e q s) := by
  unfold execSemaRelease
  repeat' (first
    | with_reducible assumption | with_reducible apply answers_next | with_reducible apply answers_ite | with_reducible apply keeps_ite
    | with_reducible apply beginDesc_keeps | (intros; with_reducible assumption) | (intro t x ht) | (intro t ht) | split | dsimp only
    | with_reducible apply keeps_mk)

theorem execSemaTicket_keeps {M : List Host.Cell → Prop} {z₀ : State} (e : BitVec 4) (q : BitVec 2) (s : State) (k₀ : Keeps M z₀ s) :
    Answers M z₀ (execSemaTicket e q s) := by
  unfold execSemaTicket
  repeat' (first
    | with_reducible assumption | with_reducible apply answers_next | with_reducible apply answers_ite | with_reducible apply keeps_ite
    | with_reducible apply beginDesc_keeps | (intros; with_reducible assumption) | (intro t x ht) | (intro t ht) | split | dsimp only
    | with_reducible apply keeps_mk)

theorem execSemaServe_keeps {M : List Host.Cell → Prop} {z₀ : State} (e : BitVec 4) (q : BitVec 2) (s : State) (k₀ : Keeps M z₀ s) :
    Answers M z₀ (execSemaServe e q s) := by
  unfold execSemaServe
  repeat' (first
    | with_reducible assumption | with_reducible apply answers_next | with_reducible apply answers_ite | with_reducible apply keeps_ite
    | with_reducible apply beginDesc_keeps | (intros; with_reducible assumption) | (intro t x ht) | (intro t ht) | split | dsimp only
    | with_reducible apply keeps_mk)

theorem execSemaPeek_keeps {M : List Host.Cell → Prop} {z₀ : State} (e : BitVec 4) (q : BitVec 2) (s : State) (k₀ : Keeps M z₀ s) : Answers
    M z₀ (execSemaPeek e q s) := by
  unfold execSemaPeek
  repeat' (first
    | with_reducible assumption | with_reducible apply answers_next | with_reducible apply answers_ite | with_reducible apply keeps_ite
    | with_reducible apply beginDesc_keeps | (intros; with_reducible assumption) | (intro t x ht) | (intro t ht) | split | dsimp only
    | with_reducible apply keeps_mk)

theorem execSemaNotify_keeps {M : List Host.Cell → Prop} {z₀ : State} (e : BitVec 4) (q : BitVec 2) (s : State) (k₀ : Keeps M z₀ s) :
    Answers M z₀ (execSemaNotify e q s) := by
  unfold execSemaNotify
  repeat' (first
    | with_reducible assumption | with_reducible apply answers_next | with_reducible apply answers_ite | with_reducible apply keeps_ite
    | with_reducible apply beginDesc_keeps | (intros; with_reducible assumption) | (intro t x ht) | (intro t ht) | split | dsimp only
    | with_reducible apply keeps_mk)

theorem execPostDesc_keeps {M : List Host.Cell → Prop} {z₀ : State} (e : BitVec 4) (q : BitVec 2) (s : State) (k₀ : Keeps M z₀ s) : Answers
    M z₀ (execPostDesc e q s) := by
  unfold execPostDesc
  repeat' (first
    | with_reducible assumption | with_reducible apply answers_next | with_reducible apply answers_ite | with_reducible apply keeps_ite
    | with_reducible apply beginDesc_keeps | (intros; with_reducible assumption) | (intro t x ht) | (intro t ht) | split | dsimp only
    | with_reducible apply keeps_mk)

theorem execWaitTally_keeps {M : List Host.Cell → Prop} {z₀ : State} (e : BitVec 4) (q : BitVec 2) (s : State) (k₀ : Keeps M z₀ s) :
    Answers M z₀ (execWaitTally e q s) := by
  unfold execWaitTally
  repeat' (first
    | with_reducible assumption | with_reducible apply answers_next | with_reducible apply answers_ite | with_reducible apply keeps_ite
    | with_reducible apply beginDesc_keeps | (intros; with_reducible assumption) | (intro t x ht) | (intro t ht) | split | dsimp only
    | with_reducible apply keeps_mk)

theorem execWaitCompletions_keeps {M : List Host.Cell → Prop} {z₀ : State} (e : BitVec 4) (q : BitVec 2) (s : State) (k₀ : Keeps M z₀ s) :
    Answers M z₀ (execWaitCompletions e q s) := by
  unfold execWaitCompletions
  repeat' (first
    | with_reducible assumption | with_reducible apply answers_next | with_reducible apply answers_ite | with_reducible apply keeps_ite
    | with_reducible apply beginDesc_keeps | (intros; with_reducible assumption) | (intro t x ht) | (intro t ht) | split | dsimp only
    | with_reducible apply keeps_mk)

theorem execWaitFree_keeps {M : List Host.Cell → Prop} {z₀ : State} (e : BitVec 4) (q : BitVec 2) (s : State) (k₀ : Keeps M z₀ s) : Answers
    M z₀ (execWaitFree e q s) := by
  unfold execWaitFree
  repeat' (first
    | with_reducible assumption | with_reducible apply answers_next | with_reducible apply answers_ite | with_reducible apply keeps_ite
    | with_reducible apply beginDesc_keeps | (intros; with_reducible assumption) | (intro t x ht) | (intro t ht) | split | dsimp only
    | with_reducible apply keeps_mk)

theorem execWaitTake_keeps {M : List Host.Cell → Prop} {z₀ : State} (e : BitVec 4) (q : BitVec 2) (s : State) (k₀ : Keeps M z₀ s) : Answers
    M z₀ (execWaitTake e q s) := by
  unfold execWaitTake
  repeat' (first
    | with_reducible assumption | with_reducible apply answers_next | with_reducible apply answers_ite | with_reducible apply keeps_ite
    | with_reducible apply beginDesc_keeps | (intros; with_reducible assumption) | (intro t x ht) | (intro t ht) | split | dsimp only
    | with_reducible apply keeps_mk)

theorem execPushDesc_keeps {M : List Host.Cell → Prop} {z₀ : State} (e : BitVec 4) (q : BitVec 2) (s : State) (k₀ : Keeps M z₀ s) : Answers
    M z₀ (execPushDesc e q s) := by
  unfold execPushDesc
  repeat' (first
    | with_reducible assumption | with_reducible apply answers_next | with_reducible apply answers_ite | with_reducible apply keeps_ite
    | with_reducible apply beginDesc_keeps | (intros; with_reducible assumption) | (intro t x ht) | (intro t ht) | split | dsimp only
    | with_reducible apply keeps_mk)

theorem execDescriptorFence_keeps {M : List Host.Cell → Prop} {z₀ : State} (e : BitVec 4) (q : BitVec 2) (s : State) (k₀ : Keeps M z₀ s) :
    Answers M z₀ (execDescriptorFence e q s) := by
  unfold execDescriptorFence
  repeat' (first
    | with_reducible assumption | with_reducible apply answers_next | with_reducible apply answers_ite | with_reducible apply keeps_ite
    | with_reducible apply beginDesc_keeps | (intros; with_reducible assumption) | (intro t x ht) | (intro t ht) | split | dsimp only
    | with_reducible apply keeps_mk)

/-! ### Match -/

theorem matchRow_keeps {M : List Host.Cell → Prop} {z₀ : State} (s : State) (e q : Nat) (sub : Nat → Bool) (k₀ : Keeps M z₀ s) : Keeps M z₀
    (matchRow s e q sub) := by
  unfold matchRow
  repeat' (first
    | with_reducible assumption | with_reducible apply keeps_ite | with_reducible apply beginDesc_keeps
    | (intros; with_reducible assumption) | (intro t x ht) | (intro t ht) | split | dsimp only | with_reducible apply keeps_mk)

theorem execMatchArrive_keeps {M : List Host.Cell → Prop} {z₀ : State} (e : BitVec 4) (q : BitVec 2) (s : State) (k₀ : Keeps M z₀ s) :
    Answers M z₀ (execMatchArrive e q s) := by
  unfold execMatchArrive
  repeat' (first
    | with_reducible assumption | with_reducible apply answers_next | with_reducible apply answers_ite | with_reducible apply keeps_ite
    | with_reducible apply matchRow_keeps | (intros; with_reducible assumption) | (intro t x ht) | (intro t ht) | split | dsimp only
    | with_reducible apply keeps_mk)

theorem execMatchPost_keeps {M : List Host.Cell → Prop} {z₀ : State} (e : BitVec 4) (q : BitVec 2) (s : State) (k₀ : Keeps M z₀ s) :
    Answers M z₀ (execMatchPost e q s) := by
  unfold execMatchPost
  repeat' (first
    | with_reducible assumption | with_reducible apply answers_next | with_reducible apply answers_ite | with_reducible apply keeps_ite
    | with_reducible apply matchRow_keeps | (intros; with_reducible assumption) | (intro t x ht) | (intro t ht) | split | dsimp only
    | with_reducible apply keeps_mk)

theorem execMatchProbe_keeps {M : List Host.Cell → Prop} {z₀ : State} (e : BitVec 4) (q : BitVec 2) (s : State) (k₀ : Keeps M z₀ s) :
    Answers M z₀ (execMatchProbe e q s) := by
  unfold execMatchProbe
  repeat' (first
    | with_reducible assumption | with_reducible apply answers_next | with_reducible apply answers_ite | with_reducible apply keeps_ite
    | with_reducible apply matchRow_keeps | (intros; with_reducible assumption) | (intro t x ht) | (intro t ht) | split | dsimp only
    | with_reducible apply keeps_mk)

theorem execMatchCancel_keeps {M : List Host.Cell → Prop} {z₀ : State} (e : BitVec 4) (q : BitVec 2) (s : State) (k₀ : Keeps M z₀ s) :
    Answers M z₀ (execMatchCancel e q s) := by
  unfold execMatchCancel
  repeat' (first
    | with_reducible assumption | with_reducible apply answers_next | with_reducible apply answers_ite | with_reducible apply keeps_ite
    | with_reducible apply matchRow_keeps | (intros; with_reducible assumption) | (intro t x ht) | (intro t ht) | split | dsimp only
    | with_reducible apply keeps_mk)

theorem wrMcCtl_keeps {M : List Host.Cell → Prop} {z₀ : State} (s : State) (n : Nat) (v : Word64) (k₀ : Keeps M z₀ s) : Keeps M z₀ (wrMcCtl
    s n v).state := by
  unfold wrMcCtl
  repeat' (first
    | with_reducible assumption | with_reducible apply keeps_ite | with_reducible apply plainWrite_keeps
    | with_reducible apply noteBefore_keeps | with_reducible apply accepted_keeps | with_reducible apply refusedWith_keeps
    | (intros; with_reducible assumption) | (intro t x ht) | (intro t ht) | split | dsimp only | with_reducible apply keeps_mk)

theorem wrMcArea_keeps {M : List Host.Cell → Prop} {z₀ : State} (s : State) (key : Nat) (v : Word64) (k₀ : Keeps M z₀ s) : Keeps M z₀
    (wrMcArea s key v).state := by
  have h : ∀ c d : Bool, Keeps M z₀ (if c = true then refusedWith s .range else accepted (plainWrite (if d = true then noteBefore s key
    else s) key v)).state := by
    intro c d
    cases c <;> cases d
    · exact accepted_keeps _ (plainWrite_keeps k₀)
    · exact accepted_keeps _ (plainWrite_keeps (noteBefore_keeps _ _ k₀))
    · exact refusedWith_keeps _ _ k₀
    · exact refusedWith_keeps _ _ k₀
  exact h _ _

theorem wrMcGctl_keeps {M : List Host.Cell → Prop} {z₀ : State} (s : State) (v : Word64) (k₀ : Keeps M z₀ s) : Keeps M z₀ (wrMcGctl s v) :=
    by
  unfold wrMcGctl
  repeat' (first
    | with_reducible assumption | with_reducible apply keeps_ite | with_reducible apply wr_keeps | with_reducible apply noteCleared_keeps
    | with_reducible apply keeps_foldl | (intros; with_reducible assumption) | (intro t x ht) | (intro t ht) | split | dsimp only
    | with_reducible apply keeps_mk)

/-! ### EngineCtl -/

theorem abortWaits_keeps {M : List Host.Cell → Prop} {z₀ : State} (s : State) (e q : Nat) (k₀ : Keeps M z₀ s) : Keeps M z₀ (abortWaits s e
    q) := by
  unfold abortWaits
  repeat' (first
    | with_reducible assumption | with_reducible apply keeps_ite | with_reducible apply mapRuns_keeps | (intros; with_reducible assumption)
    | (intro t x ht) | (intro t ht) | split | dsimp only | with_reducible apply keeps_mk)

theorem stopRunning_keeps {M : List Host.Cell → Prop} {z₀ : State} (s : State) (e q : Nat) (forOffline : Bool) (k₀ : Keeps M z₀ s) : Keeps
    M z₀ (stopRunning s e q forOffline) := by
  unfold stopRunning
  repeat' (first
    | with_reducible assumption | with_reducible apply keeps_ite | with_reducible apply setQueue_keeps
    | with_reducible apply refreshState_keeps | with_reducible apply abortWaits_keeps | (intros; with_reducible assumption)
    | (intro t x ht) | (intro t ht) | split | dsimp only | with_reducible apply keeps_mk)

theorem beginOffline_keeps {M : List Host.Cell → Prop} {z₀ : State} (s : State) (e : Nat) (k₀ : Keeps M z₀ s) : Keeps M z₀ (beginOffline s
    e) := by
  unfold beginOffline
  repeat' (first
    | with_reducible assumption | with_reducible apply keeps_ite | with_reducible apply setEngState_keeps
    | with_reducible apply stopRunning_keeps | with_reducible apply keeps_foldl | (intros; with_reducible assumption) | (intro t x ht)
    | (intro t ht) | split | dsimp only | with_reducible apply keeps_mk)

theorem comeOnline_keeps {M : List Host.Cell → Prop} {z₀ : State} (s : State) (e : Nat) (k₀ : Keeps M z₀ s) : Keeps M z₀ (comeOnline s e)
    := by
  unfold comeOnline
  repeat' (first
    | with_reducible assumption | with_reducible apply keeps_ite | with_reducible apply setQueue_keeps
    | with_reducible apply runOrIdle_keeps | with_reducible apply rackResume_keeps | with_reducible apply retireStart_keeps
    | with_reducible apply setEngState_keeps | with_reducible apply keeps_foldl | (intros; with_reducible assumption) | (intro t x ht)
    | (intro t ht) | split | dsimp only | with_reducible apply keeps_mk)

theorem finishReset_keeps {M : List Host.Cell → Prop} {z₀ : State} (s : State) (e : Nat) (k₀ : Keeps M z₀ s) : Keeps M z₀ (finishReset s e)
    := by
  unfold finishReset
  repeat' (first
    | with_reducible assumption | with_reducible apply keeps_ite | with_reducible apply wr_keeps | with_reducible apply wrB_keeps
    | with_reducible apply setQueue_keeps | with_reducible apply setEngine_keeps | with_reducible apply rackResume_keeps
    | with_reducible apply setEngState_keeps | with_reducible apply dropPushes_keeps | with_reducible apply keeps_foldl
    | (intros; with_reducible assumption) | (intro t x ht) | (intro t ht) | split | dsimp only | with_reducible apply keeps_mk)

theorem settleReset_keeps {M : List Host.Cell → Prop} {z₀ : State} (s : State) (e : Nat) (k₀ : Keeps M z₀ s) : Keeps M z₀ (settleReset s e)
    := by
  unfold settleReset
  repeat' (first
    | with_reducible assumption | with_reducible apply keeps_ite | with_reducible apply finishReset_keeps
    | (intros; with_reducible assumption) | (intro t x ht) | (intro t ht) | split | dsimp only | with_reducible apply keeps_mk)

theorem wrEngCtl_keeps {M : List Host.Cell → Prop} {z₀ : State} (s : State) (e : Nat) (v : Word64) (k₀ : Keeps M z₀ s) : Keeps M z₀
    (wrEngCtl s e v) := by
  unfold wrEngCtl
  repeat' (first
    | with_reducible assumption | with_reducible apply keeps_ite | with_reducible apply plainWrite_keeps
    | with_reducible apply setEngine_keeps | with_reducible apply setEngState_keeps | with_reducible apply beginOffline_keeps
    | with_reducible apply comeOnline_keeps | with_reducible apply settleReset_keeps | (intros; with_reducible assumption)
    | (intro t x ht) | (intro t ht) | split | dsimp only | with_reducible apply keeps_mk)

theorem execEngineOfflineDone_keeps {M : List Host.Cell → Prop} {z₀ : State} (e : BitVec 4) (s : State) (k₀ : Keeps M z₀ s) : Answers M z₀
    (execEngineOfflineDone e s) := by
  unfold execEngineOfflineDone
  repeat' (first
    | with_reducible assumption | with_reducible apply answers_next | with_reducible apply answers_ite | with_reducible apply keeps_ite
    | with_reducible apply setQState_keeps | with_reducible apply setEngState_keeps | with_reducible apply prepareEngine_keeps
    | with_reducible apply keeps_foldl | (intros; with_reducible assumption) | (intro t x ht) | (intro t ht) | split | dsimp only
    | with_reducible apply keeps_mk)

theorem execEngineSelftestEnd_keeps {M : List Host.Cell → Prop} {z₀ : State} (e : BitVec 4) (passed : Bool) (s : State) (k₀ : Keeps M z₀ s)
    : Answers M z₀ (execEngineSelftestEnd e passed s) := by
  unfold execEngineSelftestEnd
  repeat' (first
    | with_reducible assumption | with_reducible apply answers_next | with_reducible apply answers_ite | with_reducible apply keeps_ite
    | with_reducible apply wr_keeps | with_reducible apply comeOnline_keeps | (intros; with_reducible assumption) | (intro t x ht)
    | (intro t ht) | split | dsimp only | with_reducible apply keeps_mk)

theorem execEngineIssue_keeps {M : List Host.Cell → Prop} {z₀ : State} (e : BitVec 4) (s : State) (k₀ : Keeps M z₀ s) : Answers M z₀
    (execEngineIssue e s) := by
  unfold execEngineIssue
  repeat' (first
    | with_reducible assumption | with_reducible apply answers_next | with_reducible apply answers_ite | with_reducible apply keeps_ite
    | with_reducible apply issueReady_keeps | with_reducible apply prepareEngine_keeps | with_reducible apply settleReset_keeps
    | (intros; with_reducible assumption) | (intro t x ht) | (intro t ht) | split | dsimp only | with_reducible apply keeps_mk)

theorem execAccessReissue_keeps {M : List Host.Cell → Prop} {z₀ : State} (e : BitVec 4) (q : BitVec 2) (s : State) (k₀ : Keeps M z₀ s) :
    Answers M z₀ (execAccessReissue e q s) := by
  unfold execAccessReissue
  repeat' (first
    | with_reducible assumption | with_reducible apply answers_next | with_reducible apply answers_ite | with_reducible apply keeps_ite
    | with_reducible apply issueReady_keeps | with_reducible apply prepareEngine_keeps | with_reducible apply settleReset_keeps
    | (intros; with_reducible assumption) | (intro t x ht) | (intro t ht) | split | dsimp only | with_reducible apply keeps_mk)

theorem wrQRing_keeps {M : List Host.Cell → Prop} {z₀ : State} (s : State) (e q : Nat) (v : Word64) (k₀ : Keeps M z₀ s) : Keeps M z₀
    (wrQRing s e q v).state := by
  unfold wrQRing
  repeat' (first
    | with_reducible assumption | with_reducible apply keeps_ite | with_reducible apply plainWrite_keeps
    | with_reducible apply accepted_keeps | with_reducible apply refusedWith_keeps | (intros; with_reducible assumption) | (intro t x ht)
    | (intro t ht) | split | dsimp only | with_reducible apply keeps_mk)

theorem wrQHead_keeps {M : List Host.Cell → Prop} {z₀ : State} (s : State) (e q : Nat) (v : Word64) (k₀ : Keeps M z₀ s) : Keeps M z₀
    (wrQHead s e q v).state := by
  unfold wrQHead
  repeat' (first
    | with_reducible assumption | with_reducible apply keeps_ite | with_reducible apply plainWrite_keeps
    | with_reducible apply accepted_keeps | with_reducible apply refusedWith_keeps | (intros; with_reducible assumption) | (intro t x ht)
    | (intro t ht) | split | dsimp only | with_reducible apply keeps_mk)

theorem wrQTail_keeps {M : List Host.Cell → Prop} {z₀ : State} (s : State) (e q : Nat) (v : Word64) (k₀ : Keeps M z₀ s) : Keeps M z₀
    (wrQTail s e q v).state := by
  unfold wrQTail
  repeat' (first
    | with_reducible assumption | with_reducible apply keeps_ite | with_reducible apply startEvent_keeps
    | (intros; with_reducible assumption) | (intro t x ht) | (intro t ht) | split | dsimp only | with_reducible apply keeps_mk)

theorem wrQCfg_keeps {M : List Host.Cell → Prop} {z₀ : State} (s : State) (e q : Nat) (v : Word64) (k₀ : Keeps M z₀ s) : Keeps M z₀ (wrQCfg
    s e q v).state := by
  unfold wrQCfg
  repeat' (first
    | with_reducible assumption | with_reducible apply keeps_ite | with_reducible apply wrF_keeps | with_reducible apply plainWrite_keeps
    | with_reducible apply setQueue_keeps | with_reducible apply setQState_keeps | with_reducible apply accepted_keeps
    | with_reducible apply refusedWith_keeps | with_reducible apply toRunOrIdle_keeps | (intros; with_reducible assumption)
    | (intro t x ht) | (intro t ht) | split | dsimp only | with_reducible apply keeps_mk)

theorem resumeQueue_keeps {M : List Host.Cell → Prop} {z₀ : State} (s : State) (e q : Nat) (skip : Bool) (k₀ : Keeps M z₀ s) : Keeps M z₀
    (resumeQueue s e q skip) := by
  unfold resumeQueue
  repeat' (first
    | with_reducible assumption | with_reducible apply keeps_ite | with_reducible apply wrF_keeps | with_reducible apply setQState_keeps
    | with_reducible apply toRunOrIdle_keeps | (intros; with_reducible assumption) | (intro t x ht) | (intro t ht) | split | dsimp only
    | with_reducible apply keeps_mk)

theorem goStopped_keeps {M : List Host.Cell → Prop} {z₀ : State} (s : State) (e q : Nat) (k₀ : Keeps M z₀ s) : Keeps M z₀ (goStopped s e q)
    := by
  unfold goStopped
  repeat' (first
    | with_reducible assumption | with_reducible apply keeps_ite | with_reducible apply toRunOrIdle_keeps
    | (intros; with_reducible assumption) | (intro t x ht) | (intro t ht) | split | dsimp only | with_reducible apply keeps_mk)

theorem wrQCtl_keeps {M : List Host.Cell → Prop} {z₀ : State} (s : State) (e q : Nat) (v : Word64) (k₀ : Keeps M z₀ s) : Keeps M z₀ (wrQCtl
    s e q v) := by
  unfold wrQCtl
  repeat' (first
    | with_reducible assumption | with_reducible apply keeps_ite | with_reducible apply stopRunning_keeps
    | with_reducible apply resumeQueue_keeps | with_reducible apply goStopped_keeps | (intros; with_reducible assumption)
    | (intro t x ht) | (intro t ht) | split | dsimp only | with_reducible apply keeps_mk)

theorem syncFaultStep_keeps {M : List Host.Cell → Prop} {z₀ : State} (s : State) (k₀ : Keeps M z₀ s) : Keeps M z₀ (syncFaultStep s) := by
  unfold syncFaultStep
  repeat' (first
    | with_reducible assumption | with_reducible apply keeps_ite | with_reducible apply enterFault_keeps
    | (intros; with_reducible assumption) | (intro t x ht) | (intro t ht) | split | dsimp only | with_reducible apply keeps_mk)

theorem offlineStep_keeps {M : List Host.Cell → Prop} {z₀ : State} (s : State) (k₀ : Keeps M z₀ s) : Keeps M z₀ (offlineStep s) := by
  unfold offlineStep
  repeat' (first
    | with_reducible assumption | with_reducible apply keeps_ite | with_reducible apply beginOffline_keeps
    | with_reducible apply keeps_foldl | (intros; with_reducible assumption) | (intro t x ht) | (intro t ht) | split | dsimp only
    | with_reducible apply keeps_mk)

theorem slotStep_keeps {M : CellProp} {z₀ : State} (s : State) (b : Nat) (k₀ : Keeps M.holds z₀ s) : Keeps M.holds z₀ (slotStep s b) := by
  unfold slotStep
  repeat' (first
    | with_reducible assumption | with_reducible apply keeps_ite | with_reducible apply bankCycle_keeps
    | with_reducible apply syncFaultStep_keeps | with_reducible apply offlineStep_keeps | (intros; with_reducible assumption)
    | (intro t x ht) | (intro t ht) | split | dsimp only | with_reducible apply keeps_mk)

theorem execBankSlot_keeps {M : CellProp} {z₀ : State} (bank : BitVec 6) (s : State) (k₀ : Keeps M.holds z₀ s) : Answers M.holds z₀
    (execBankSlot bank s) := by
  unfold execBankSlot
  repeat' (first
    | with_reducible assumption | with_reducible apply answers_next | with_reducible apply answers_ite | with_reducible apply keeps_ite
    | with_reducible apply slotStep_keeps | (intros; with_reducible assumption) | (intro t x ht) | (intro t ht) | split | dsimp only
    | with_reducible apply keeps_mk)

theorem copySlot_keeps {M : CellProp} {z₀ : State} (s : State) (b : Nat) (r : BReq) (k₀ : Keeps M.holds z₀ s) : Keeps M.holds z₀ (copySlot
    s b r) := by
  unfold copySlot
  repeat' (first
    | with_reducible assumption | with_reducible apply keeps_ite | with_reducible apply slotStep_keeps
    | (intros; with_reducible assumption) | (intro t x ht) | (intro t ht) | split | dsimp only | with_reducible apply keeps_mk)

theorem rackIssue_keeps {M : CellProp} {z₀ : State} (s : State) (e b line : Nat) (k₀ : Keeps M.holds z₀ s) : Keeps M.holds z₀ (rackIssue s
    e b line) := by
  unfold rackIssue
  repeat' (first
    | with_reducible assumption | with_reducible apply keeps_ite | with_reducible apply setEngine_keeps
    | with_reducible apply copyAccess_keeps | with_reducible apply useIssue_keeps | (intros; with_reducible assumption) | (intro t x ht)
    | (intro t ht) | split | dsimp only | with_reducible apply keeps_mk)

theorem execRackCopyLine_keeps {M : CellProp} {z₀ : State} (e : BitVec 4) (s : State) (k₀ : Keeps M.holds z₀ s) : Answers M.holds z₀
    (execRackCopyLine e s) := by
  unfold execRackCopyLine
  repeat' (first
    | with_reducible assumption | with_reducible apply answers_next | with_reducible apply answers_ite | with_reducible apply keeps_ite
    | with_reducible apply copySlot_keeps | with_reducible apply rackIssue_keeps | (intros; with_reducible assumption) | (intro t x ht)
    | (intro t ht) | split | dsimp only | with_reducible apply keeps_mk)

/-! ### Obs -/

theorem pcWrapped_keeps {M : List Host.Cell → Prop} {z₀ : State} (s : State) (i : Nat) (k₀ : Keeps M z₀ s) : Keeps M z₀ (pcWrapped s i) :=
    by
  unfold pcWrapped
  repeat' (first
    | with_reducible assumption | with_reducible apply keeps_ite | with_reducible apply addSat_keeps
    | with_reducible apply raiseSource_keeps | (intros; with_reducible assumption) | (intro t x ht) | (intro t ht) | split | dsimp only
    | with_reducible apply keeps_mk)

theorem pcAdd_keeps {M : List Host.Cell → Prop} {z₀ : State} (s : State) (i : Nat) (k₀ : Keeps M z₀ s) : Keeps M z₀ (pcAdd s i) := by
  unfold pcAdd
  repeat' (first
    | with_reducible assumption | with_reducible apply keeps_ite | with_reducible apply wrF_keeps | with_reducible apply wrB_keeps
    | with_reducible apply pcWrapped_keeps | (intros; with_reducible assumption) | (intro t x ht) | (intro t ht) | split | dsimp only
    | with_reducible apply keeps_mk)

theorem freezeStep_keeps {M : List Host.Cell → Prop} {z₀ : State} (s : State) (k₀ : Keeps M z₀ s) : Keeps M z₀ (freezeStep s) := by
  unfold freezeStep
  repeat' (first
    | with_reducible assumption | with_reducible apply keeps_ite | with_reducible apply wr_keeps | with_reducible apply keeps_foldl
    | (intros; with_reducible assumption) | (intro t x ht) | (intro t ht) | split | dsimp only | with_reducible apply keeps_mk)

theorem countCycle_keeps {M : List Host.Cell → Prop} {z₀ : State} (s : State) (k₀ : Keeps M z₀ s) : Keeps M z₀ (countCycle s) := by
  unfold countCycle
  repeat' (first
    | with_reducible assumption | with_reducible apply keeps_ite | with_reducible apply wr_keeps | with_reducible apply pcAdd_keeps
    | with_reducible apply freezeStep_keeps | with_reducible apply keeps_foldl | (intros; with_reducible assumption) | (intro t x ht)
    | (intro t ht) | split | dsimp only | with_reducible apply keeps_mk)

theorem freezeCounters_keeps {M : List Host.Cell → Prop} {z₀ : State} (s : State) (k₀ : Keeps M z₀ s) : Keeps M z₀ (freezeCounters s) := by
  unfold freezeCounters
  repeat' (first
    | with_reducible assumption | with_reducible apply keeps_ite | (intros; with_reducible assumption) | (intro t x ht) | (intro t ht)
    | split | dsimp only | with_reducible apply keeps_mk)

theorem reprogram_keeps {M : List Host.Cell → Prop} {z₀ : State} (s : State) (i : Nat) (k₀ : Keeps M z₀ s) : Keeps M z₀ (reprogram s i) :=
    by
  unfold reprogram
  repeat' (first
    | with_reducible assumption | with_reducible apply keeps_ite | (intros; with_reducible assumption) | (intro t x ht) | (intro t ht)
    | split | dsimp only | with_reducible apply keeps_mk)

theorem wrPcCfg_keeps {M : List Host.Cell → Prop} {z₀ : State} (s : State) (i : Nat) (v : Word64) (k₀ : Keeps M z₀ s) : Keeps M z₀ (wrPcCfg
    s i v).state := by
  unfold wrPcCfg
  repeat' (first
    | with_reducible assumption | with_reducible apply keeps_ite | with_reducible apply plainWrite_keeps
    | with_reducible apply accepted_keeps | with_reducible apply refusedWith_keeps | with_reducible apply reprogram_keeps
    | (intros; with_reducible assumption) | (intro t x ht) | (intro t ht) | split | dsimp only | with_reducible apply keeps_mk)

theorem wrPcGctl_keeps {M : List Host.Cell → Prop} {z₀ : State} (s : State) (v : Word64) (k₀ : Keeps M z₀ s) : Keeps M z₀ (wrPcGctl s v) :=
    by
  unfold wrPcGctl
  repeat' (first
    | with_reducible assumption | with_reducible apply keeps_ite | with_reducible apply freezeCounters_keeps
    | with_reducible apply reprogram_keeps | with_reducible apply keeps_foldl | (intros; with_reducible assumption) | (intro t x ht)
    | (intro t ht) | split | dsimp only | with_reducible apply keeps_mk)

theorem sampleAccept_keeps {M : List Host.Cell → Prop} {z₀ : State} (s : State) (k₀ : Keeps M z₀ s) : Keeps M z₀ (sampleAccept s).2 := by
  unfold sampleAccept
  repeat' (first
    | with_reducible assumption | with_reducible apply keeps_ite | with_reducible apply addSat_keeps | (intros; with_reducible assumption)
    | (intro t x ht) | (intro t ht) | split | dsimp only | with_reducible apply keeps_mk)

theorem sampleWrite_keeps {M : List Host.Cell → Prop} {z₀ : State} (s : State) (t : Txn) (d6 d7 : Nat) (lost : Bool) (k₀ : Keeps M z₀ s) :
    Keeps M z₀ (sampleWrite s t d6 d7 lost) := by
  unfold sampleWrite
  repeat' (first
    | with_reducible assumption | with_reducible apply keeps_ite | with_reducible apply wrF_keeps | with_reducible apply addSat_keeps
    | (intros; with_reducible assumption) | (intro t x ht) | (intro t ht) | split | dsimp only | with_reducible apply keeps_mk)

theorem samplePacked_keeps {M : List Host.Cell → Prop} {z₀ : State} (s : State) (p : Nat) (t : Txn) (k₀ : Keeps M z₀ s) : Keeps M z₀
    (samplePacked s p t) := by
  unfold samplePacked
  repeat' (first
    | with_reducible assumption | with_reducible apply keeps_ite | (intros; with_reducible assumption) | (intro t x ht) | (intro t ht)
    | split | dsimp only | with_reducible apply keeps_mk)

theorem sampleCycle_keeps {M : List Host.Cell → Prop} {z₀ : State} (s : State) (k₀ : Keeps M z₀ s) : Keeps M z₀ (sampleCycle s) := by
  unfold sampleCycle
  repeat' (first
    | with_reducible assumption | with_reducible apply keeps_ite | with_reducible apply sampleWrite_keeps
    | with_reducible apply keeps_foldl | (intros; with_reducible assumption) | (intro t x ht) | (intro t ht) | split | dsimp only
    | with_reducible apply keeps_mk)

theorem smpClearStep_keeps {M : List Host.Cell → Prop} {z₀ : State} (s : State) (k₀ : Keeps M z₀ s) : Keeps M z₀ (smpClearStep s) := by
  unfold smpClearStep
  repeat' (first
    | with_reducible assumption | with_reducible apply keeps_ite | with_reducible apply wrF_keeps | (intros; with_reducible assumption)
    | (intro t x ht) | (intro t ht) | split | dsimp only | with_reducible apply keeps_mk)

theorem wrSmpCtl_keeps {M : List Host.Cell → Prop} {z₀ : State} (s : State) (v : Word64) (k₀ : Keeps M z₀ s) : Keeps M z₀ (wrSmpCtl s
    v).state := by
  unfold wrSmpCtl
  repeat' (first
    | with_reducible assumption | with_reducible apply keeps_ite | with_reducible apply plainWrite_keeps
    | with_reducible apply accepted_keeps | with_reducible apply refusedWith_keeps | with_reducible apply smpClearStep_keeps
    | (intros; with_reducible assumption) | (intro t x ht) | (intro t ht) | split | dsimp only | with_reducible apply keeps_mk)

theorem wrSmpIdx_keeps {M : List Host.Cell → Prop} {z₀ : State} (s : State) (v : Word64) (k₀ : Keeps M z₀ s) : Keeps M z₀ (wrSmpIdx s v) :=
    by
  unfold wrSmpIdx
  repeat' (first
    | with_reducible assumption | with_reducible apply keeps_ite | with_reducible apply plainWrite_keeps
    | (intros; with_reducible assumption) | (intro t x ht) | (intro t ht) | split | dsimp only | with_reducible apply keeps_mk)

theorem smpCopyStep_keeps {M : List Host.Cell → Prop} {z₀ : State} (s : State) (k₀ : Keeps M z₀ s) : Keeps M z₀ (smpCopyStep s) := by
  unfold smpCopyStep
  repeat' (first
    | with_reducible assumption | with_reducible apply keeps_ite | with_reducible apply wr_keeps | with_reducible apply keeps_foldl
    | (intros; with_reducible assumption) | (intro t x ht) | (intro t ht) | split | dsimp only | with_reducible apply keeps_mk)

theorem wrTrIdx_keeps {M : List Host.Cell → Prop} {z₀ : State} (s : State) (v : Word64) (k₀ : Keeps M z₀ s) : Keeps M z₀ (wrTrIdx s v) :=
    by
  unfold wrTrIdx
  repeat' (first
    | with_reducible assumption | with_reducible apply keeps_ite | with_reducible apply plainWrite_keeps
    | (intros; with_reducible assumption) | (intro t x ht) | (intro t ht) | split | dsimp only | with_reducible apply keeps_mk)

theorem trCopyStep_keeps {M : List Host.Cell → Prop} {z₀ : State} (s : State) (k₀ : Keeps M z₀ s) : Keeps M z₀ (trCopyStep s) := by
  unfold trCopyStep
  repeat' (first
    | with_reducible assumption | with_reducible apply keeps_ite | with_reducible apply wr_keeps | with_reducible apply keeps_foldl
    | (intros; with_reducible assumption) | (intro t x ht) | (intro t ht) | split | dsimp only | with_reducible apply keeps_mk)

theorem traceWrite_keeps {M : List Host.Cell → Prop} {z₀ : State} (s : State) (t : TraceInfo) (n : Nat) (k₀ : Keeps M z₀ s) : Keeps M z₀
    (traceWrite s t n) := by
  unfold traceWrite
  repeat' (first
    | with_reducible assumption | with_reducible apply keeps_ite | with_reducible apply wrF_keeps | with_reducible apply wrB_keeps
    | with_reducible apply addSat_keeps | (intros; with_reducible assumption) | (intro t x ht) | (intro t ht) | split | dsimp only
    | with_reducible apply keeps_mk)

theorem ringCycle_keeps {M : List Host.Cell → Prop} {z₀ : State} (s : State) (k₀ : Keeps M z₀ s) : Keeps M z₀ (ringCycle s) := by
  unfold ringCycle
  repeat' (first
    | with_reducible assumption | with_reducible apply keeps_ite | with_reducible apply sampleCycle_keeps
    | with_reducible apply smpCopyStep_keeps | with_reducible apply trCopyStep_keeps | with_reducible apply traceWrite_keeps
    | with_reducible apply keeps_foldl | (intros; with_reducible assumption) | (intro t x ht) | (intro t ht) | split | dsimp only
    | with_reducible apply keeps_mk)

theorem trClearStep_keeps {M : List Host.Cell → Prop} {z₀ : State} (s : State) (k₀ : Keeps M z₀ s) : Keeps M z₀ (trClearStep s) := by
  unfold trClearStep
  repeat' (first
    | with_reducible assumption | with_reducible apply keeps_ite | with_reducible apply wrF_keeps | (intros; with_reducible assumption)
    | (intro t x ht) | (intro t ht) | split | dsimp only | with_reducible apply keeps_mk)

theorem wrTrCtl_keeps {M : List Host.Cell → Prop} {z₀ : State} (s : State) (v : Word64) (k₀ : Keeps M z₀ s) : Keeps M z₀ (wrTrCtl s v) :=
    by
  unfold wrTrCtl
  repeat' (first
    | with_reducible assumption | with_reducible apply keeps_ite | with_reducible apply plainWrite_keeps
    | with_reducible apply trClearStep_keeps | (intros; with_reducible assumption) | (intro t x ht) | (intro t ht) | split | dsimp only
    | with_reducible apply keeps_mk)

theorem wrTrAddr_keeps {M : List Host.Cell → Prop} {z₀ : State} (s : State) (v : Word64) (k₀ : Keeps M z₀ s) : Keeps M z₀ (wrTrAddr s
    v).state := by
  unfold wrTrAddr
  repeat' (first
    | with_reducible assumption | with_reducible apply keeps_ite | with_reducible apply plainWrite_keeps
    | with_reducible apply accepted_keeps | with_reducible apply refusedWith_keeps | (intros; with_reducible assumption) | (intro t x ht)
    | (intro t ht) | split | dsimp only | with_reducible apply keeps_mk)

/-! ### Intc -/

theorem applyEvent_keeps {M : List Host.Cell → Prop} {z₀ : State} (s : State) (n : Nat) (k₀ : Keeps M z₀ s) : Keeps M z₀ (applyEvent s n)
    := by
  unfold applyEvent
  repeat' (first
    | with_reducible assumption | with_reducible apply keeps_ite | with_reducible apply wrB_keeps | with_reducible apply addWrap_keeps
    | (intros; with_reducible assumption) | (intro t x ht) | (intro t ht) | split | dsimp only | with_reducible apply keeps_mk)

theorem holdLevel_keeps {M : List Host.Cell → Prop} {z₀ : State} (s : State) (n : Nat) (k₀ : Keeps M z₀ s) : Keeps M z₀ (holdLevel s n) :=
    by
  unfold holdLevel
  repeat' (first
    | with_reducible assumption | with_reducible apply keeps_ite | with_reducible apply wrB_keeps | (intros; with_reducible assumption)
    | (intro t x ht) | (intro t ht) | split | dsimp only | with_reducible apply keeps_mk)

theorem applyEvents_keeps {M : List Host.Cell → Prop} {z₀ : State} (s : State) (k₀ : Keeps M z₀ s) : Keeps M z₀ (applyEvents s) := by
  unfold applyEvents
  repeat' (first
    | with_reducible assumption | with_reducible apply keeps_ite | with_reducible apply applyEvent_keeps
    | with_reducible apply holdLevel_keeps | with_reducible apply keeps_foldl | (intros; with_reducible assumption) | (intro t x ht)
    | (intro t ht) | split | dsimp only | with_reducible apply keeps_mk)

theorem decideMessage_keeps {M : List Host.Cell → Prop} {z₀ : State} (s : State) (t kind src prio : Nat) (k₀ : Keeps M z₀ s) : Keeps M z₀
    (decideMessage s t kind src prio) := by
  unfold decideMessage
  repeat' (first
    | with_reducible assumption | with_reducible apply keeps_ite | with_reducible apply addSat_keeps | with_reducible apply addWrap_keeps
    | with_reducible apply occur_keeps | (intros; with_reducible assumption) | (intro t x ht) | (intro t ht) | split | dsimp only
    | with_reducible apply keeps_mk)

theorem evalAwake_keeps {M : List Host.Cell → Prop} {z₀ : State} (s : State) (t : Nat) (k₀ : Keeps M z₀ s) : Keeps M z₀ (evalAwake s t) :=
    by
  unfold evalAwake
  repeat' (first
    | with_reducible assumption | with_reducible apply keeps_ite | with_reducible apply wr_keeps | with_reducible apply decideMessage_keeps
    | (intros; with_reducible assumption) | (intro t x ht) | (intro t ht) | split | dsimp only | with_reducible apply keeps_mk)

theorem evalTarget_keeps {M : List Host.Cell → Prop} {z₀ : State} (s : State) (t : Nat) (k₀ : Keeps M z₀ s) : Keeps M z₀ (evalTarget s t)
    := by
  unfold evalTarget
  repeat' (first
    | with_reducible assumption | with_reducible apply keeps_ite | with_reducible apply wrB_keeps | with_reducible apply emit_keeps
    | with_reducible apply decideMessage_keeps | with_reducible apply evalAwake_keeps | (intros; with_reducible assumption)
    | (intro t x ht) | (intro t ht) | split | dsimp only | with_reducible apply keeps_mk)

theorem portUpTargets_keeps {M : List Host.Cell → Prop} {z₀ : State} (s : State) (p : Nat) (k₀ : Keeps M z₀ s) : Keeps M z₀ (portUpTargets
    s p) := by
  unfold portUpTargets
  repeat' (first
    | with_reducible assumption | with_reducible apply keeps_ite | with_reducible apply wr_keeps | with_reducible apply evalTarget_keeps
    | with_reducible apply keeps_foldl | (intros; with_reducible assumption) | (intro t x ht) | (intro t ht) | split | dsimp only
    | with_reducible apply keeps_mk)

theorem execMessageSend_keeps {M : List Host.Cell → Prop} {z₀ : State} (port : BitVec 3) (s : State) (k₀ : Keeps M z₀ s) : Answers M z₀
    (execMessageSend port s) := by
  unfold execMessageSend
  repeat' (first
    | with_reducible assumption | with_reducible apply answers_next | with_reducible apply answers_ite | with_reducible apply keeps_ite
    | with_reducible apply emit_keeps | with_reducible apply occur_keeps | with_reducible apply sendOn_keeps
    | (intros; with_reducible assumption) | (intro t x ht) | (intro t ht) | split | dsimp only | with_reducible apply keeps_mk)

theorem showStack_keeps {M : List Host.Cell → Prop} {z₀ : State} (s : State) (t d : Nat) (k₀ : Keeps M z₀ s) : Keeps M z₀ (showStack s t d)
    := by
  unfold showStack
  repeat' (first
    | with_reducible assumption | with_reducible apply keeps_ite | with_reducible apply wr_keeps | (intros; with_reducible assumption)
    | (intro t x ht) | (intro t ht) | split | dsimp only | with_reducible apply keeps_mk)

theorem claimTarget_keeps {M : List Host.Cell → Prop} {z₀ : State} (s : State) (t : Nat) (k₀ : Keeps M z₀ s) : Keeps M z₀ (claimTarget s
    t).2 := by
  unfold claimTarget
  repeat' (first
    | with_reducible assumption | with_reducible apply keeps_ite | with_reducible apply wr_keeps | with_reducible apply wrF_keeps
    | with_reducible apply wrB_keeps | with_reducible apply addSat_keeps | with_reducible apply showStack_keeps
    | (intros; with_reducible assumption) | (intro t x ht) | (intro t ht) | split | dsimp only | with_reducible apply keeps_mk)

theorem eoiTarget_keeps {M : List Host.Cell → Prop} {z₀ : State} (s : State) (t n : Nat) (k₀ : Keeps M z₀ s) : Keeps M z₀ (eoiTarget s t
    n).state := by
  unfold eoiTarget
  repeat' (first
    | with_reducible assumption | with_reducible apply keeps_ite | with_reducible apply wr_keeps | with_reducible apply wrB_keeps
    | with_reducible apply addSat_keeps | with_reducible apply accepted_keeps | with_reducible apply refusedWith_keeps
    | with_reducible apply showStack_keeps | (intros; with_reducible assumption) | (intro t x ht) | (intro t ht) | split | dsimp only
    | with_reducible apply keeps_mk)

theorem turnEvents_keeps {M : List Host.Cell → Prop} {z₀ : State} (s : State) (k₀ : Keeps M z₀ s) : Keeps M z₀ (turnEvents s) := by
  unfold turnEvents
  repeat' (first
    | with_reducible assumption | with_reducible apply keeps_ite | with_reducible apply applyEvents_keeps
    | (intros; with_reducible assumption) | (intro t x ht) | (intro t ht) | split | dsimp only | with_reducible apply keeps_mk)

theorem takeTarget_keeps {M : List Host.Cell → Prop} {z₀ : State} (s : State) (t : Nat) (k₀ : Keeps M z₀ s) : Keeps M z₀ (takeTarget s t)
    := by
  unfold takeTarget
  repeat' (first
    | with_reducible assumption | with_reducible apply keeps_ite | with_reducible apply turnEvents_keeps
    | (intros; with_reducible assumption) | (intro t x ht) | (intro t ht) | split | dsimp only | with_reducible apply keeps_mk)

theorem takeWrite_keeps {M : List Host.Cell → Prop} {z₀ : State} (s : State) (k₀ : Keeps M z₀ s) : Keeps M z₀ (takeWrite s) := by
  unfold takeWrite
  repeat' (first
    | with_reducible assumption | with_reducible apply keeps_ite | with_reducible apply turnEvents_keeps
    | (intros; with_reducible assumption) | (intro t x ht) | (intro t ht) | split | dsimp only | with_reducible apply keeps_mk)

theorem closeTurn_keeps {M : List Host.Cell → Prop} {z₀ : State} (s : State) (k₀ : Keeps M z₀ s) : Keeps M z₀ (closeTurn s) := by
  unfold closeTurn
  repeat' (first
    | with_reducible assumption | with_reducible apply keeps_ite | with_reducible apply evalTarget_keeps
    | with_reducible apply turnEvents_keeps | with_reducible apply keeps_foldl | (intros; with_reducible assumption) | (intro t x ht)
    | (intro t ht) | split | dsimp only | with_reducible apply keeps_mk)

theorem wrSrcEntry_keeps {M : List Host.Cell → Prop} {z₀ : State} (s : State) (n : Nat) (v : Word64) (k₀ : Keeps M z₀ s) : Keeps M z₀
    (wrSrcEntry s n v).state := by
  unfold wrSrcEntry
  repeat' (first
    | with_reducible assumption | with_reducible apply keeps_ite | with_reducible apply wr_keeps | with_reducible apply wrF_keeps
    | with_reducible apply wrB_keeps | with_reducible apply noteBefore_keeps | with_reducible apply accepted_keeps
    | with_reducible apply refusedWith_keeps | with_reducible apply applyEvent_keeps | with_reducible apply holdLevel_keeps
    | (intros; with_reducible assumption) | (intro t x ht) | (intro t ht) | split | dsimp only | with_reducible apply keeps_mk)

theorem wrTgtCtl_keeps {M : List Host.Cell → Prop} {z₀ : State} (s : State) (t : Nat) (v : Word64) (k₀ : Keeps M z₀ s) : Keeps M z₀
    (wrTgtCtl s t v) := by
  unfold wrTgtCtl
  repeat' (first
    | with_reducible assumption | with_reducible apply keeps_ite | with_reducible apply wrB_keeps | with_reducible apply plainWrite_keeps
    | (intros; with_reducible assumption) | (intro t x ht) | (intro t ht) | split | dsimp only | with_reducible apply keeps_mk)

end Sys2Proof.Machine
end

