-- ==== Sys2Proof/Laws/KeepsLinks.lean ====
section
/-! SUPPORT. One lemma for each operation and each meaning of the links, the lanes and the pair:
it leaves the variant, device time and the queue of commands alone and keeps the canonical form of the memory; a meaning always answers
a next state. -/

namespace Sys2Proof.Machine

/-! ### LinkBase -/

theorem portEvent_keeps {M : List Host.Cell → Prop} {z₀ : State} (s : State) (p : Nat) (f : Fld) (k₀ : Keeps M z₀ s) : Keeps M z₀
    (portEvent s p f) := by
  unfold portEvent
  repeat' (first
    | with_reducible assumption | with_reducible apply keeps_ite | with_reducible apply wrB_keeps | with_reducible apply raiseSource_keeps
    | (intros; with_reducible assumption) | (intro t x ht) | (intro t ht) | split | dsimp only | with_reducible apply keeps_mk)

theorem countSlots_keeps {M : List Host.Cell → Prop} {z₀ : State} (s : State) (p vc n : Nat) (k₀ : Keeps M z₀ s) : Keeps M z₀ (countSlots s
    p vc n) := by
  unfold countSlots
  repeat' (first
    | with_reducible assumption | with_reducible apply keeps_ite | with_reducible apply setLink_keeps | (intros; with_reducible assumption)
    | (intro t x ht) | (intro t ht) | split | dsimp only | with_reducible apply keeps_mk)

theorem sessionOpen_keeps {M : List Host.Cell → Prop} {z₀ : State} (s : State) (p : Nat) (k₀ : Keeps M z₀ s) : Keeps M z₀ (sessionOpen s p)
    := by
  unfold sessionOpen
  repeat' (first
    | with_reducible assumption | with_reducible apply keeps_ite | with_reducible apply wr_keeps | with_reducible apply wrB_keeps
    | with_reducible apply addWrap_keeps | with_reducible apply setLink_keeps | (intros; with_reducible assumption) | (intro t x ht)
    | (intro t ht) | split | dsimp only | with_reducible apply keeps_mk)

theorem samplesLost_keeps {M : List Host.Cell → Prop} {z₀ : State} (s : State) (p : Nat) (k₀ : Keeps M z₀ s) : Keeps M z₀ (samplesLost s p)
    := by
  unfold samplesLost
  repeat' (first
    | with_reducible assumption | with_reducible apply keeps_ite | with_reducible apply sampleWrite_keeps
    | with_reducible apply keeps_foldl | (intros; with_reducible assumption) | (intro t x ht) | (intro t ht) | split | dsimp only
    | with_reducible apply keeps_mk)

theorem sessionEnd_keeps {M : List Host.Cell → Prop} {z₀ : State} (s : State) (p : Nat) (k₀ : Keeps M z₀ s) : Keeps M z₀ (sessionEnd s p)
    := by
  unfold sessionEnd
  repeat' (first
    | with_reducible assumption | with_reducible apply keeps_ite | with_reducible apply wrB_keeps | with_reducible apply setLink_keeps
    | with_reducible apply settleFences_keeps | with_reducible apply countSat_keeps | with_reducible apply samplesLost_keeps
    | (intros; with_reducible assumption) | (intro t x ht) | (intro t ht) | split | dsimp only | with_reducible apply keeps_mk)

theorem replayOldest_keeps {M : List Host.Cell → Prop} {z₀ : State} (s : State) (p : Nat) (k₀ : Keeps M z₀ s) : Keeps M z₀ (replayOldest s
    p) := by
  unfold replayOldest
  repeat' (first
    | with_reducible assumption | with_reducible apply keeps_ite | with_reducible apply wrB_keeps | with_reducible apply setLink_keeps
    | (intros; with_reducible assumption) | (intro t x ht) | (intro t ht) | split | dsimp only | with_reducible apply keeps_mk)

/-! ### Pcs -/

theorem sendBits_keeps {M : List Host.Cell → Prop} {z₀ : State} (s : State) (p j : Nat) (bits : List Bool) (k₀ : Keeps M z₀ s) : Keeps M z₀
    (sendBits s p j bits) := by
  unfold sendBits
  repeat' (first
    | with_reducible assumption | with_reducible apply keeps_ite | with_reducible apply setLane_keeps | with_reducible apply emit_keeps
    | (intros; with_reducible assumption) | (intro t x ht) | (intro t ht) | split | dsimp only | with_reducible apply keeps_mk)

theorem sendScrambled_keeps {M : List Host.Cell → Prop} {z₀ : State} (s : State) (p j : Nat) (bits : List Bool) (k₀ : Keeps M z₀ s) : Keeps
    M z₀ (sendScrambled s p j bits) := by
  unfold sendScrambled
  repeat' (first
    | with_reducible assumption | with_reducible apply keeps_ite | with_reducible apply setLane_keeps | with_reducible apply sendBits_keeps
    | (intros; with_reducible assumption) | (intro t x ht) | (intro t ht) | split | dsimp only | with_reducible apply keeps_mk)

theorem seedTx_keeps {M : List Host.Cell → Prop} {z₀ : State} (s : State) (p j : Nat) (k₀ : Keeps M z₀ s) : Keeps M z₀ (seedTx s p j) := by
  unfold seedTx
  repeat' (first
    | with_reducible assumption | with_reducible apply keeps_ite | with_reducible apply setLane_keeps | (intros; with_reducible assumption)
    | (intro t x ht) | (intro t ht) | split | dsimp only | with_reducible apply keeps_mk)

theorem txMarked_keeps {M : List Host.Cell → Prop} {z₀ : State} (s : State) (p j : Nat) (k₀ : Keeps M z₀ s) : Keeps M z₀ (txMarked s p j)
    := by
  unfold txMarked
  repeat' (first
    | with_reducible assumption | with_reducible apply keeps_ite | with_reducible apply setLane_keeps | with_reducible apply seedTx_keeps
    | (intros; with_reducible assumption) | (intro t x ht) | (intro t ht) | split | dsimp only | with_reducible apply keeps_mk)

theorem rxMarked_keeps {M : List Host.Cell → Prop} {z₀ : State} (s : State) (p : Nat) (k₀ : Keeps M z₀ s) : Keeps M z₀ (rxMarked s p) := by
  unfold rxMarked
  repeat' (first
    | with_reducible assumption | with_reducible apply keeps_ite | with_reducible apply setLane_keeps | with_reducible apply keeps_foldl
    | (intros; with_reducible assumption) | (intro t x ht) | (intro t ht) | split | dsimp only | with_reducible apply keeps_mk)

theorem sendMarker_keeps {M : List Host.Cell → Prop} {z₀ : State} (s : State) (p flags : Nat) (k₀ : Keeps M z₀ s) : Keeps M z₀ (sendMarker
    s p flags) := by
  unfold sendMarker
  repeat' (first
    | with_reducible assumption | with_reducible apply keeps_ite | with_reducible apply emit_keeps | with_reducible apply sendBits_keeps
    | with_reducible apply txMarked_keeps | with_reducible apply keeps_foldl | (intros; with_reducible assumption) | (intro t x ht)
    | (intro t ht) | split | dsimp only | with_reducible apply keeps_mk)

theorem sendFlitBlocks_keeps {M : List Host.Cell → Prop} {z₀ : State} (s : State) (p : Nat) (flit : List Byte) (k₀ : Keeps M z₀ s) : Keeps
    M z₀ (sendFlitBlocks s p flit) := by
  unfold sendFlitBlocks
  repeat' (first
    | with_reducible assumption | with_reducible apply keeps_ite | with_reducible apply setPhy_keeps | with_reducible apply emit_keeps
    | with_reducible apply sendScrambled_keeps | with_reducible apply sendMarker_keeps | with_reducible apply keeps_foldl
    | (intros; with_reducible assumption) | (intro t x ht) | (intro t ht) | split | dsimp only | with_reducible apply keeps_mk)

theorem startBlocks_keeps {M : List Host.Cell → Prop} {z₀ : State} (s : State) (p : Nat) (k₀ : Keeps M z₀ s) : Keeps M z₀ (startBlocks s p)
    := by
  unfold startBlocks
  repeat' (first
    | with_reducible assumption | with_reducible apply keeps_ite | with_reducible apply setPhy_keeps | with_reducible apply txMarked_keeps
    | with_reducible apply rxMarked_keeps | with_reducible apply keeps_foldl | (intros; with_reducible assumption) | (intro t x ht)
    | (intro t ht) | split | dsimp only | with_reducible apply keeps_mk)

theorem flitTaken_keeps {M : List Host.Cell → Prop} {z₀ : State} (s : State) (p : Nat) (symbols : List (List (BitVec 2))) (k₀ : Keeps M z₀
    s) : Keeps M z₀ (flitTaken s p symbols) := by
  unfold flitTaken
  repeat' (first
    | with_reducible assumption | with_reducible apply keeps_ite | with_reducible apply setPhy_keeps | with_reducible apply setLane_keeps
    | with_reducible apply rxMarked_keeps | with_reducible apply keeps_foldl | (intros; with_reducible assumption) | (intro t x ht)
    | (intro t ht) | split | dsimp only | with_reducible apply keeps_mk)

/-! ### Lanes -/

theorem freshWindow_keeps {M : List Host.Cell → Prop} {z₀ : State} (s : State) (p j : Nat) (k₀ : Keeps M z₀ s) : Keeps M z₀ (freshWindow s
    p j) := by
  unfold freshWindow
  repeat' (first
    | with_reducible assumption | with_reducible apply keeps_ite | with_reducible apply setLane_keeps | (intros; with_reducible assumption)
    | (intro t x ht) | (intro t ht) | split | dsimp only | with_reducible apply keeps_mk)

theorem freshWindows_keeps {M : List Host.Cell → Prop} {z₀ : State} (s : State) (p : Nat) (k₀ : Keeps M z₀ s) : Keeps M z₀ (freshWindows s
    p) := by
  unfold freshWindows
  repeat' (first
    | with_reducible assumption | with_reducible apply keeps_ite | with_reducible apply freshWindow_keeps
    | with_reducible apply keeps_foldl | (intros; with_reducible assumption) | (intro t x ht) | (intro t ht) | split | dsimp only
    | with_reducible apply keeps_mk)

theorem setMode_keeps {M : List Host.Cell → Prop} {z₀ : State} (s : State) (p j m : Nat) (k₀ : Keeps M z₀ s) : Keeps M z₀ (setMode s p j m)
    := by
  unfold setMode
  repeat' (first
    | with_reducible assumption | with_reducible apply keeps_ite | with_reducible apply wrF_keeps | (intros; with_reducible assumption)
    | (intro t x ht) | (intro t ht) | split | dsimp only | with_reducible apply keeps_mk)

theorem coefAnswer_keeps {M : List Host.Cell → Prop} {z₀ : State} (s : State) (p j req : Nat) (k₀ : Keeps M z₀ s) : Keeps M z₀ (coefAnswer
    s p j req).2 := by
  unfold coefAnswer
  repeat' (first
    | with_reducible assumption | with_reducible apply keeps_ite | with_reducible apply wr_keeps | (intros; with_reducible assumption)
    | (intro t x ht) | (intro t ht) | split | dsimp only | with_reducible apply keeps_mk)

theorem startTaps_keeps {M : List Host.Cell → Prop} {z₀ : State} (s : State) (p : Nat) (attempt : Bool) (k₀ : Keeps M z₀ s) : Keeps M z₀
    (startTaps s p attempt) := by
  unfold startTaps
  repeat' (first
    | with_reducible assumption | with_reducible apply keeps_ite | with_reducible apply wr_keeps | with_reducible apply keeps_foldl
    | (intros; with_reducible assumption) | (intro t x ht) | (intro t ht) | split | dsimp only | with_reducible apply keeps_mk)

theorem enterTraining_keeps {M : List Host.Cell → Prop} {z₀ : State} (s : State) (p st : Nat) (k₀ : Keeps M z₀ s) : Keeps M z₀
    (enterTraining s p st) := by
  unfold enterTraining
  repeat' (first
    | with_reducible assumption | with_reducible apply keeps_ite | with_reducible apply wrF_keeps | with_reducible apply setPhy_keeps
    | (intros; with_reducible assumption) | (intro t x ht) | (intro t ht) | split | dsimp only | with_reducible apply keeps_mk)

theorem beginAttempt_keeps {M : List Host.Cell → Prop} {z₀ : State} (s : State) (p : Nat) (k₀ : Keeps M z₀ s) : Keeps M z₀ (beginAttempt s
    p) := by
  unfold beginAttempt
  repeat' (first
    | with_reducible assumption | with_reducible apply keeps_ite | with_reducible apply wrF_keeps | with_reducible apply wrB_keeps
    | with_reducible apply setPhy_keeps | with_reducible apply setLane_keeps | with_reducible apply setMode_keeps
    | with_reducible apply startTaps_keeps | with_reducible apply enterTraining_keeps | with_reducible apply keeps_foldl
    | (intros; with_reducible assumption) | (intro t x ht) | (intro t ht) | split | dsimp only | with_reducible apply keeps_mk)

theorem lanesOff_keeps {M : List Host.Cell → Prop} {z₀ : State} (s : State) (p : Nat) (k₀ : Keeps M z₀ s) : Keeps M z₀ (lanesOff s p) := by
  unfold lanesOff
  repeat' (first
    | with_reducible assumption | with_reducible apply keeps_ite | with_reducible apply wrB_keeps | with_reducible apply keeps_foldl
    | (intros; with_reducible assumption) | (intro t x ht) | (intro t ht) | split | dsimp only | with_reducible apply keeps_mk)

theorem startTraining_keeps {M : List Host.Cell → Prop} {z₀ : State} (s : State) (p : Nat) (k₀ : Keeps M z₀ s) : Keeps M z₀ (startTraining
    s p) := by
  unfold startTraining
  repeat' (first
    | with_reducible assumption | with_reducible apply keeps_ite | with_reducible apply wrF_keeps | with_reducible apply setPhy_keeps
    | with_reducible apply beginAttempt_keeps | with_reducible apply lanesOff_keeps | (intros; with_reducible assumption)
    | (intro t x ht) | (intro t ht) | split | dsimp only | with_reducible apply keeps_mk)

theorem lanesStop_keeps {M : List Host.Cell → Prop} {z₀ : State} (s : State) (p : Nat) (k₀ : Keeps M z₀ s) : Keeps M z₀ (lanesStop s p) :=
    by
  unfold lanesStop
  repeat' (first
    | with_reducible assumption | with_reducible apply keeps_ite | with_reducible apply wrB_keeps | with_reducible apply setMode_keeps
    | with_reducible apply keeps_foldl | (intros; with_reducible assumption) | (intro t x ht) | (intro t ht) | split | dsimp only
    | with_reducible apply keeps_mk)

theorem leaveFor_keeps {M : List Host.Cell → Prop} {z₀ : State} (s : State) (p st : Nat) (k₀ : Keeps M z₀ s) : Keeps M z₀ (leaveFor s p st)
    := by
  unfold leaveFor
  repeat' (first
    | with_reducible assumption | with_reducible apply keeps_ite | with_reducible apply wrF_keeps | with_reducible apply wrB_keeps
    | with_reducible apply setPhy_keeps | with_reducible apply sessionEnd_keeps | with_reducible apply lanesStop_keeps
    | (intros; with_reducible assumption) | (intro t x ht) | (intro t ht) | split | dsimp only | with_reducible apply keeps_mk)

theorem enterDown_keeps {M : List Host.Cell → Prop} {z₀ : State} (s : State) (p cause : Nat) (k₀ : Keeps M z₀ s) : Keeps M z₀ (enterDown s
    p cause) := by
  unfold enterDown
  repeat' (first
    | with_reducible assumption | with_reducible apply keeps_ite | with_reducible apply wrF_keeps | with_reducible apply setPhy_keeps
    | with_reducible apply countSat_keeps | with_reducible apply portEvent_keeps | with_reducible apply leaveFor_keeps
    | (intros; with_reducible assumption) | (intro t x ht) | (intro t ht) | split | dsimp only | with_reducible apply keeps_mk)

theorem enterUnanswered_keeps {M : List Host.Cell → Prop} {z₀ : State} (s : State) (p : Nat) (k₀ : Keeps M z₀ s) : Keeps M z₀
    (enterUnanswered s p) := by
  unfold enterUnanswered
  repeat' (first
    | with_reducible assumption | with_reducible apply keeps_ite | with_reducible apply countSat_keeps
    | with_reducible apply portEvent_keeps | with_reducible apply leaveFor_keeps | (intros; with_reducible assumption) | (intro t x ht)
    | (intro t ht) | split | dsimp only | with_reducible apply keeps_mk)

theorem failAttempt_keeps {M : List Host.Cell → Prop} {z₀ : State} (s : State) (p cause : Nat) (k₀ : Keeps M z₀ s) : Keeps M z₀
    (failAttempt s p cause) := by
  unfold failAttempt
  repeat' (first
    | with_reducible assumption | with_reducible apply keeps_ite | with_reducible apply wrF_keeps | with_reducible apply setPhy_keeps
    | with_reducible apply countSat_keeps | with_reducible apply beginAttempt_keeps | with_reducible apply enterUnanswered_keeps
    | (intros; with_reducible assumption) | (intro t x ht) | (intro t ht) | split | dsimp only | with_reducible apply keeps_mk)

theorem startRetrain_keeps {M : List Host.Cell → Prop} {z₀ : State} (s : State) (p : Nat) (k₀ : Keeps M z₀ s) : Keeps M z₀ (startRetrain s
    p) := by
  unfold startRetrain
  repeat' (first
    | with_reducible assumption | with_reducible apply keeps_ite | with_reducible apply wrB_keeps | with_reducible apply setPhy_keeps
    | with_reducible apply portEvent_keeps | with_reducible apply sendMarker_keeps | with_reducible apply startTaps_keeps
    | with_reducible apply enterTraining_keeps | (intros; with_reducible assumption) | (intro t x ht) | (intro t ht) | split | dsimp only
    | with_reducible apply keeps_mk)

theorem replayLimit_keeps {M : List Host.Cell → Prop} {z₀ : State} (s : State) (p : Nat) (k₀ : Keeps M z₀ s) : Keeps M z₀ (replayLimit s p)
    := by
  unfold replayLimit
  repeat' (first
    | with_reducible assumption | with_reducible apply keeps_ite | with_reducible apply setLink_keeps | with_reducible apply countSat_keeps
    | with_reducible apply enterDown_keeps | with_reducible apply startRetrain_keeps | (intros; with_reducible assumption)
    | (intro t x ht) | (intro t ht) | split | dsimp only | with_reducible apply keeps_mk)

theorem replayKept_keeps {M : List Host.Cell → Prop} {z₀ : State} (s : State) (p : Nat) (k₀ : Keeps M z₀ s) : Keeps M z₀ (replayKept s p)
    := by
  unfold replayKept
  repeat' (first
    | with_reducible assumption | with_reducible apply keeps_ite | with_reducible apply replayOldest_keeps
    | with_reducible apply replayLimit_keeps | (intros; with_reducible assumption) | (intro t x ht) | (intro t ht) | split | dsimp only
    | with_reducible apply keeps_mk)

theorem moveToSpare_keeps {M : List Host.Cell → Prop} {z₀ : State} (s : State) (p l : Nat) (k₀ : Keeps M z₀ s) : Keeps M z₀ (moveToSpare s
    p l) := by
  unfold moveToSpare
  repeat' (first
    | with_reducible assumption | with_reducible apply keeps_ite | with_reducible apply wrF_keeps | with_reducible apply wrB_keeps
    | with_reducible apply countSat_keeps | with_reducible apply portEvent_keeps | (intros; with_reducible assumption) | (intro t x ht)
    | (intro t ht) | split | dsimp only | with_reducible apply keeps_mk)

theorem releaseSpare_keeps {M : List Host.Cell → Prop} {z₀ : State} (s : State) (p : Nat) (k₀ : Keeps M z₀ s) : Keeps M z₀ (releaseSpare s
    p) := by
  unfold releaseSpare
  repeat' (first
    | with_reducible assumption | with_reducible apply keeps_ite | with_reducible apply wrB_keeps | with_reducible apply portEvent_keeps
    | (intros; with_reducible assumption) | (intro t x ht) | (intro t ht) | split | dsimp only | with_reducible apply keeps_mk)

theorem spareFails_keeps {M : List Host.Cell → Prop} {z₀ : State} (s : State) (p lane : Nat) (adapted : Bool) (k₀ : Keeps M z₀ s) : Keeps M
    z₀ (spareFails s p lane adapted) := by
  unfold spareFails
  repeat' (first
    | with_reducible assumption | with_reducible apply keeps_ite | with_reducible apply wrB_keeps | with_reducible apply setPhy_keeps
    | (intros; with_reducible assumption) | (intro t x ht) | (intro t ht) | split | dsimp only | with_reducible apply keeps_mk)

theorem spareMoves_keeps {M : List Host.Cell → Prop} {z₀ : State} (s : State) (p : Nat) (adapted : Bool) (k₀ : Keeps M z₀ s) : Keeps M z₀
    (spareMoves s p adapted) := by
  unfold spareMoves
  repeat' (first
    | with_reducible assumption | with_reducible apply keeps_ite | with_reducible apply setPhy_keeps
    | with_reducible apply moveToSpare_keeps | (intros; with_reducible assumption) | (intro t x ht) | (intro t ht) | split | dsimp only
    | with_reducible apply keeps_mk)

theorem txSpareAsk_keeps {M : List Host.Cell → Prop} {z₀ : State} (s : State) (p field partnerState : Nat) (k₀ : Keeps M z₀ s) : Keeps M z₀
    (txSpareAsk s p field partnerState) := by
  unfold txSpareAsk
  repeat' (first
    | with_reducible assumption | with_reducible apply keeps_ite | with_reducible apply wrF_keeps | with_reducible apply wrB_keeps
    | with_reducible apply countSat_keeps | with_reducible apply portEvent_keeps | (intros; with_reducible assumption) | (intro t x ht)
    | (intro t ht) | split | dsimp only | with_reducible apply keeps_mk)

theorem lanesUse_keeps {M : List Host.Cell → Prop} {z₀ : State} (s : State) (p : Nat) (k₀ : Keeps M z₀ s) : Keeps M z₀ (lanesUse s p) := by
  unfold lanesUse
  repeat' (first
    | with_reducible assumption | with_reducible apply keeps_ite | with_reducible apply wrF_keeps | with_reducible apply freshWindow_keeps
    | with_reducible apply setMode_keeps | with_reducible apply keeps_foldl | (intros; with_reducible assumption) | (intro t x ht)
    | (intro t ht) | split | dsimp only | with_reducible apply keeps_mk)

theorem lanesReceive_keeps {M : List Host.Cell → Prop} {z₀ : State} (s : State) (p : Nat) (k₀ : Keeps M z₀ s) : Keeps M z₀ (lanesReceive s
    p) := by
  unfold lanesReceive
  repeat' (first
    | with_reducible assumption | with_reducible apply keeps_ite | with_reducible apply wrB_keeps | with_reducible apply keeps_foldl
    | (intros; with_reducible assumption) | (intro t x ht) | (intro t ht) | split | dsimp only | with_reducible apply keeps_mk)

theorem loopSend_keeps {M : List Host.Cell → Prop} {z₀ : State} (s : State) (p : Nat) (k₀ : Keeps M z₀ s) : Keeps M z₀ (loopSend s p) := by
  unfold loopSend
  repeat' (first
    | with_reducible assumption | with_reducible apply keeps_ite | with_reducible apply emit_keeps | (intros; with_reducible assumption)
    | (intro t x ht) | (intro t ht) | split | dsimp only | with_reducible apply keeps_mk)

theorem enterUp_keeps {M : List Host.Cell → Prop} {z₀ : State} (s : State) (p : Nat) (k₀ : Keeps M z₀ s) : Keeps M z₀ (enterUp s p) := by
  unfold enterUp
  repeat' (first
    | with_reducible assumption | with_reducible apply keeps_ite | with_reducible apply wr_keeps | with_reducible apply wrF_keeps
    | with_reducible apply wrB_keeps | with_reducible apply setPhy_keeps | with_reducible apply countSat_keeps
    | with_reducible apply portUpTargets_keeps | with_reducible apply portEvent_keeps | with_reducible apply sessionOpen_keeps
    | with_reducible apply startBlocks_keeps | with_reducible apply replayKept_keeps | with_reducible apply lanesUse_keeps
    | (intros; with_reducible assumption) | (intro t x ht) | (intro t ht) | split | dsimp only | with_reducible apply keeps_mk)

theorem enterLoopback_keeps {M : List Host.Cell → Prop} {z₀ : State} (s : State) (p : Nat) (echo : Bool) (k₀ : Keeps M z₀ s) : Keeps M z₀
    (enterLoopback s p echo) := by
  unfold enterLoopback
  repeat' (first
    | with_reducible assumption | with_reducible apply keeps_ite | with_reducible apply wrF_keeps | with_reducible apply setPhy_keeps
    | with_reducible apply portEvent_keeps | with_reducible apply freshWindow_keeps | with_reducible apply setMode_keeps
    | with_reducible apply leaveFor_keeps | with_reducible apply lanesReceive_keeps | with_reducible apply loopSend_keeps
    | with_reducible apply keeps_foldl | (intros; with_reducible assumption) | (intro t x ht) | (intro t ht) | split | dsimp only
    | with_reducible apply keeps_mk)

theorem sendFrame_keeps {M : List Host.Cell → Prop} {z₀ : State} (s : State) (p j : Nat) (k₀ : Keeps M z₀ s) : Keeps M z₀ (sendFrame s p j)
    := by
  unfold sendFrame
  repeat' (first
    | with_reducible assumption | with_reducible apply keeps_ite | with_reducible apply setLane_keeps | with_reducible apply emit_keeps
    | with_reducible apply sendBits_keeps | with_reducible apply sendScrambled_keeps | with_reducible apply seedTx_keeps
    | (intros; with_reducible assumption) | (intro t x ht) | (intro t ht) | split | dsimp only | with_reducible apply keeps_mk)

theorem trainingCycle_keeps {M : List Host.Cell → Prop} {z₀ : State} (s : State) (p : Nat) (k₀ : Keeps M z₀ s) : Keeps M z₀ (trainingCycle
    s p) := by
  unfold trainingCycle
  repeat' (first
    | with_reducible assumption | with_reducible apply keeps_ite | with_reducible apply setPhy_keeps
    | with_reducible apply sendMarker_keeps | with_reducible apply sendFrame_keeps | with_reducible apply keeps_foldl
    | (intros; with_reducible assumption) | (intro t x ht) | (intro t ht) | split | dsimp only | with_reducible apply keeps_mk)

theorem coefTake_keeps {M : List Host.Cell → Prop} {z₀ : State} (s : State) (p j req : Nat) (k₀ : Keeps M z₀ s) : Keeps M z₀ (coefTake s p
    j req) := by
  unfold coefTake
  repeat' (first
    | with_reducible assumption | with_reducible apply keeps_ite | with_reducible apply setLane_keeps
    | with_reducible apply coefAnswer_keeps | (intros; with_reducible assumption) | (intro t x ht) | (intro t ht) | split | dsimp only
    | with_reducible apply keeps_mk)

theorem coefAsk_keeps {M : List Host.Cell → Prop} {z₀ : State} (s : State) (p j want stat : Nat) (k₀ : Keeps M z₀ s) : Keeps M z₀ (coefAsk
    s p j want stat) := by
  unfold coefAsk
  repeat' (first
    | with_reducible assumption | with_reducible apply keeps_ite | with_reducible apply setLane_keeps | (intros; with_reducible assumption)
    | (intro t x ht) | (intro t ht) | split | dsimp only | with_reducible apply keeps_mk)

theorem noteBlock_keeps {M : List Host.Cell → Prop} {z₀ : State} (s : State) (p lane : Nat) (rx : LaneReport) (bs : List Byte) (k₀ : Keeps
    M z₀ s) : Keeps M z₀ (noteBlock s p lane rx bs) := by
  unfold noteBlock
  repeat' (first
    | with_reducible assumption | with_reducible apply keeps_ite | with_reducible apply wrB_keeps | with_reducible apply setPhy_keeps
    | with_reducible apply setLane_keeps | (intros; with_reducible assumption) | (intro t x ht) | (intro t ht) | split | dsimp only
    | with_reducible apply keeps_mk)

theorem detectBlock_keeps {M : List Host.Cell → Prop} {z₀ : State} (s : State) (p : Nat) (k₀ : Keeps M z₀ s) : Keeps M z₀ (detectBlock s p)
    := by
  unfold detectBlock
  repeat' (first
    | with_reducible assumption | with_reducible apply keeps_ite | with_reducible apply wrB_keeps
    | with_reducible apply enterTraining_keeps | (intros; with_reducible assumption) | (intro t x ht) | (intro t ht) | split | dsimp only
    | with_reducible apply keeps_mk)

theorem speedBlock_keeps {M : List Host.Cell → Prop} {z₀ : State} (s : State) (p : Nat) (partnerState : Nat) (k₀ : Keeps M z₀ s) : Keeps M
    z₀ (speedBlock s p partnerState) := by
  unfold speedBlock
  repeat' (first
    | with_reducible assumption | with_reducible apply keeps_ite | with_reducible apply wrF_keeps | with_reducible apply wrB_keeps
    | with_reducible apply setPhy_keeps | with_reducible apply enterTraining_keeps | with_reducible apply failAttempt_keeps
    | (intros; with_reducible assumption) | (intro t x ht) | (intro t ht) | split | dsimp only | with_reducible apply keeps_mk)

theorem endEqualize_keeps {M : List Host.Cell → Prop} {z₀ : State} (s : State) (p : Nat) (k₀ : Keeps M z₀ s) : Keeps M z₀ (endEqualize s p)
    := by
  unfold endEqualize
  repeat' (first
    | with_reducible assumption | with_reducible apply keeps_ite | with_reducible apply wrB_keeps | with_reducible apply setPhy_keeps
    | with_reducible apply enterTraining_keeps | with_reducible apply failAttempt_keeps | with_reducible apply releaseSpare_keeps
    | with_reducible apply enterLoopback_keeps | (intros; with_reducible assumption) | (intro t x ht) | (intro t ht) | split | dsimp only
    | with_reducible apply keeps_mk)

theorem noteEmf_keeps {M : List Host.Cell → Prop} {z₀ : State} (s : State) (p j emf : Nat) (k₀ : Keeps M z₀ s) : Keeps M z₀ (noteEmf s p j
    emf) := by
  unfold noteEmf
  repeat' (first
    | with_reducible assumption | with_reducible apply keeps_ite | with_reducible apply wrF_keeps | (intros; with_reducible assumption)
    | (intro t x ht) | (intro t ht) | split | dsimp only | with_reducible apply keeps_mk)

theorem noteTaps_keeps {M : List Host.Cell → Prop} {z₀ : State} (s : State) (p j : Nat) (ctle : BitVec 5) (dfe : BitVec 8) (k₀ : Keeps M z₀
    s) : Keeps M z₀ (noteTaps s p j ctle dfe) := by
  unfold noteTaps
  repeat' (first
    | with_reducible assumption | with_reducible apply keeps_ite | with_reducible apply wr_keeps | (intros; with_reducible assumption)
    | (intro t x ht) | (intro t ht) | split | dsimp only | with_reducible apply keeps_mk)

theorem equalizeBlock_keeps {M : List Host.Cell → Prop} {z₀ : State} (s : State) (p lane : Nat) (rx : LaneReport) (block : List Byte) (k₀ :
    Keeps M z₀ s) : Keeps M z₀ (equalizeBlock s p lane rx block) := by
  unfold equalizeBlock
  repeat' (first
    | with_reducible assumption | with_reducible apply keeps_ite | with_reducible apply setPhy_keeps
    | with_reducible apply spareFails_keeps | with_reducible apply spareMoves_keeps | with_reducible apply txSpareAsk_keeps
    | with_reducible apply endEqualize_keeps | with_reducible apply noteEmf_keeps | with_reducible apply noteTaps_keeps
    | (intros; with_reducible assumption) | (intro t x ht) | (intro t ht) | split | dsimp only | with_reducible apply keeps_mk)

theorem alignBlock_keeps {M : List Host.Cell → Prop} {z₀ : State} (s0 : State) (p lane : Nat) (rx : LaneReport) (block : List Byte) (k₀ :
    Keeps M z₀ s0) : Keeps M z₀ (alignBlock s0 p lane rx block) := by
  unfold alignBlock
  repeat' (first
    | with_reducible assumption | with_reducible apply keeps_ite | with_reducible apply setPhy_keeps
    | with_reducible apply failAttempt_keeps | with_reducible apply txSpareAsk_keeps | with_reducible apply enterUp_keeps
    | (intros; with_reducible assumption) | (intro t x ht) | (intro t ht) | split | dsimp only | with_reducible apply keeps_mk)

theorem execTrainingBlock_keeps {M : List Host.Cell → Prop} {z₀ : State} (port : BitVec 3) (lane : BitVec 4) (rx : LaneReport) (block :
    List Byte) (s : State) (k₀ : Keeps M z₀ s) : Answers M z₀ (execTrainingBlock port lane rx block s) := by
  unfold execTrainingBlock
  repeat' (first
    | with_reducible assumption | with_reducible apply answers_next | with_reducible apply answers_ite | with_reducible apply keeps_ite
    | with_reducible apply coefTake_keeps | with_reducible apply coefAsk_keeps | with_reducible apply noteBlock_keeps
    | with_reducible apply detectBlock_keeps | with_reducible apply speedBlock_keeps | with_reducible apply equalizeBlock_keeps
    | with_reducible apply alignBlock_keeps | (intros; with_reducible assumption) | (intro t x ht) | (intro t ht) | split | dsimp only
    | with_reducible apply keeps_mk)

theorem execTrainingTimeout_keeps {M : List Host.Cell → Prop} {z₀ : State} (port : BitVec 3) (s : State) (k₀ : Keeps M z₀ s) : Answers M z₀
    (execTrainingTimeout port s) := by
  unfold execTrainingTimeout
  repeat' (first
    | with_reducible assumption | with_reducible apply answers_next | with_reducible apply answers_ite | with_reducible apply keeps_ite
    | with_reducible apply failAttempt_keeps | (intros; with_reducible assumption) | (intro t x ht) | (intro t ht) | split | dsimp only
    | with_reducible apply keeps_mk)

theorem execSignalLoss_keeps {M : List Host.Cell → Prop} {z₀ : State} (port : BitVec 3) (s : State) (k₀ : Keeps M z₀ s) : Answers M z₀
    (execSignalLoss port s) := by
  unfold execSignalLoss
  repeat' (first
    | with_reducible assumption | with_reducible apply answers_next | with_reducible apply answers_ite | with_reducible apply keeps_ite
    | with_reducible apply lanesOff_keeps | with_reducible apply startTraining_keeps | with_reducible apply enterDown_keeps
    | (intros; with_reducible assumption) | (intro t x ht) | (intro t ht) | split | dsimp only | with_reducible apply keeps_mk)

theorem execDownBackoffEnd_keeps {M : List Host.Cell → Prop} {z₀ : State} (port : BitVec 3) (s : State) (k₀ : Keeps M z₀ s) : Answers M z₀
    (execDownBackoffEnd port s) := by
  unfold execDownBackoffEnd
  repeat' (first
    | with_reducible assumption | with_reducible apply answers_next | with_reducible apply answers_ite | with_reducible apply keeps_ite
    | with_reducible apply startTraining_keeps | (intros; with_reducible assumption) | (intro t x ht) | (intro t ht) | split | dsimp only
    | with_reducible apply keeps_mk)

theorem execUnansweredBackoffEnd_keeps {M : List Host.Cell → Prop} {z₀ : State} (port : BitVec 3) (s : State) (k₀ : Keeps M z₀ s) : Answers
    M z₀ (execUnansweredBackoffEnd port s) := by
  unfold execUnansweredBackoffEnd
  repeat' (first
    | with_reducible assumption | with_reducible apply answers_next | with_reducible apply answers_ite | with_reducible apply keeps_ite
    | with_reducible apply startTraining_keeps | (intros; with_reducible assumption) | (intro t x ht) | (intro t ht) | split | dsimp only
    | with_reducible apply keeps_mk)

theorem takeMarker_keeps {M : List Host.Cell → Prop} {z₀ : State} (s : State) (marker : MarkerIn) (k₀ : Keeps M z₀ s) : Keeps M z₀
    (takeMarker s marker) := by
  unfold takeMarker
  repeat' (first
    | with_reducible assumption | with_reducible apply keeps_ite | with_reducible apply rxMarked_keeps
    | (intros; with_reducible assumption) | (intro t x ht) | (intro t ht) | split | dsimp only | with_reducible apply keeps_mk)

theorem execRetrainReq_keeps {M : List Host.Cell → Prop} {z₀ : State} (marker : MarkerIn) (s : State) (k₀ : Keeps M z₀ s) : Answers M z₀
    (execRetrainReq marker s) := by
  unfold execRetrainReq
  repeat' (first
    | with_reducible assumption | with_reducible apply answers_next | with_reducible apply answers_ite | with_reducible apply keeps_ite
    | with_reducible apply startRetrain_keeps | with_reducible apply takeMarker_keeps | (intros; with_reducible assumption)
    | (intro t x ht) | (intro t ht) | split | dsimp only | with_reducible apply keeps_mk)

theorem execRetrainTimeout_keeps {M : List Host.Cell → Prop} {z₀ : State} (port : BitVec 3) (s : State) (k₀ : Keeps M z₀ s) : Answers M z₀
    (execRetrainTimeout port s) := by
  unfold execRetrainTimeout
  repeat' (first
    | with_reducible assumption | with_reducible apply answers_next | with_reducible apply answers_ite | with_reducible apply keeps_ite
    | with_reducible apply enterDown_keeps | (intros; with_reducible assumption) | (intro t x ht) | (intro t ht) | split | dsimp only
    | with_reducible apply keeps_mk)

theorem hardFloorRetrain_keeps {M : List Host.Cell → Prop} {z₀ : State} (s : State) (p j : Nat) (k₀ : Keeps M z₀ s) : Keeps M z₀
    (hardFloorRetrain s p j) := by
  unfold hardFloorRetrain
  repeat' (first
    | with_reducible assumption | with_reducible apply keeps_ite | with_reducible apply setPhy_keeps
    | with_reducible apply startRetrain_keeps | (intros; with_reducible assumption) | (intro t x ht) | (intro t ht) | split | dsimp only
    | with_reducible apply keeps_mk)

theorem adaptStep_keeps {M : List Host.Cell → Prop} {z₀ : State} (s : State) (p j emf : Nat) (k₀ : Keeps M z₀ s) : Keeps M z₀ (adaptStep s
    p j emf) := by
  unfold adaptStep
  repeat' (first
    | with_reducible assumption | with_reducible apply keeps_ite | with_reducible apply setLane_keeps | with_reducible apply countSat_keeps
    | with_reducible apply setMode_keeps | (intros; with_reducible assumption) | (intro t x ht) | (intro t ht) | split | dsimp only
    | with_reducible apply keeps_mk)

theorem noteObs_keeps {M : List Host.Cell → Prop} {z₀ : State} (s : State) (p j : Nat) (rx : LaneObs) (k₀ : Keeps M z₀ s) : Keeps M z₀
    (noteObs s p j rx) := by
  unfold noteObs
  repeat' (first
    | with_reducible assumption | with_reducible apply keeps_ite | with_reducible apply wrB_keeps | with_reducible apply countSat_keeps
    | with_reducible apply noteTaps_keeps | (intros; with_reducible assumption) | (intro t x ht) | (intro t ht) | split | dsimp only
    | with_reducible apply keeps_mk)

theorem execEmfUpdate_keeps {M : List Host.Cell → Prop} {z₀ : State} (port : BitVec 3) (lane : BitVec 4) (rx : LaneObs) (s : State) (k₀ :
    Keeps M z₀ s) : Answers M z₀ (execEmfUpdate port lane rx s) := by
  unfold execEmfUpdate
  repeat' (first
    | with_reducible assumption | with_reducible apply answers_next | with_reducible apply answers_ite | with_reducible apply keeps_ite
    | with_reducible apply setLane_keeps | with_reducible apply noteEmf_keeps | with_reducible apply hardFloorRetrain_keeps
    | with_reducible apply adaptStep_keeps | with_reducible apply noteObs_keeps | (intros; with_reducible assumption) | (intro t x ht)
    | (intro t ht) | split | dsimp only | with_reducible apply keeps_mk)

theorem execReadaptTimeout_keeps {M : List Host.Cell → Prop} {z₀ : State} (port : BitVec 3) (lane : BitVec 4) (s : State) (k₀ : Keeps M z₀
    s) : Answers M z₀ (execReadaptTimeout port lane s) := by
  unfold execReadaptTimeout
  repeat' (first
    | with_reducible assumption | with_reducible apply answers_next | with_reducible apply answers_ite | with_reducible apply keeps_ite
    | with_reducible apply startRetrain_keeps | (intros; with_reducible assumption) | (intro t x ht) | (intro t ht) | split | dsimp only
    | with_reducible apply keeps_mk)

theorem execMarkerMissing_keeps {M : List Host.Cell → Prop} {z₀ : State} (port : BitVec 3) (lane : BitVec 4) (s : State) (k₀ : Keeps M z₀
    s) : Answers M z₀ (execMarkerMissing port lane s) := by
  unfold execMarkerMissing
  repeat' (first
    | with_reducible assumption | with_reducible apply answers_next | with_reducible apply answers_ite | with_reducible apply keeps_ite
    | with_reducible apply startRetrain_keeps | (intros; with_reducible assumption) | (intro t x ht) | (intro t ht) | split | dsimp only
    | with_reducible apply keeps_mk)

theorem execLossOfLock_keeps {M : List Host.Cell → Prop} {z₀ : State} (port : BitVec 3) (lane : BitVec 4) (s : State) (k₀ : Keeps M z₀ s) :
    Answers M z₀ (execLossOfLock port lane s) := by
  unfold execLossOfLock
  repeat' (first
    | with_reducible assumption | with_reducible apply answers_next | with_reducible apply answers_ite | with_reducible apply keeps_ite
    | with_reducible apply wrB_keeps | with_reducible apply countSat_keeps | (intros; with_reducible assumption) | (intro t x ht)
    | (intro t ht) | split | dsimp only | with_reducible apply keeps_mk)

theorem askEi_keeps {M : List Host.Cell → Prop} {z₀ : State} (s : State) (p : Nat) (k₀ : Keeps M z₀ s) : Keeps M z₀ (askEi s p) := by
  unfold askEi
  repeat' (first
    | with_reducible assumption | with_reducible apply keeps_ite | with_reducible apply setPhy_keeps
    | with_reducible apply sendMarker_keeps | (intros; with_reducible assumption) | (intro t x ht) | (intro t ht) | split | dsimp only
    | with_reducible apply keeps_mk)

theorem enterEi_keeps {M : List Host.Cell → Prop} {z₀ : State} (s : State) (p : Nat) (k₀ : Keeps M z₀ s) : Keeps M z₀ (enterEi s p) := by
  unfold enterEi
  repeat' (first
    | with_reducible assumption | with_reducible apply keeps_ite | with_reducible apply wrB_keeps | with_reducible apply setPhy_keeps
    | with_reducible apply countWrap_keeps | with_reducible apply sendMarker_keeps | with_reducible apply lanesOff_keeps
    | (intros; with_reducible assumption) | (intro t x ht) | (intro t ht) | split | dsimp only | with_reducible apply keeps_mk)

theorem leaveEi_keeps {M : List Host.Cell → Prop} {z₀ : State} (s : State) (p : Nat) (k₀ : Keeps M z₀ s) : Keeps M z₀ (leaveEi s p) := by
  unfold leaveEi
  repeat' (first
    | with_reducible assumption | with_reducible apply keeps_ite | with_reducible apply wrB_keeps | with_reducible apply setPhy_keeps
    | with_reducible apply rxMarked_keeps | with_reducible apply freshWindows_keeps | with_reducible apply lanesReceive_keeps
    | (intros; with_reducible assumption) | (intro t x ht) | (intro t ht) | split | dsimp only | with_reducible apply keeps_mk)

theorem execEiIdleTimeout_keeps {M : List Host.Cell → Prop} {z₀ : State} (port : BitVec 3) (s : State) (k₀ : Keeps M z₀ s) : Answers M z₀
    (execEiIdleTimeout port s) := by
  unfold execEiIdleTimeout
  repeat' (first
    | with_reducible assumption | with_reducible apply answers_next | with_reducible apply answers_ite | with_reducible apply keeps_ite
    | with_reducible apply askEi_keeps | (intros; with_reducible assumption) | (intro t x ht) | (intro t ht) | split | dsimp only
    | with_reducible apply keeps_mk)

theorem execEiReq_keeps {M : List Host.Cell → Prop} {z₀ : State} (marker : MarkerIn) (s : State) (k₀ : Keeps M z₀ s) : Answers M z₀
    (execEiReq marker s) := by
  unfold execEiReq
  repeat' (first
    | with_reducible assumption | with_reducible apply answers_next | with_reducible apply answers_ite | with_reducible apply keeps_ite
    | with_reducible apply setPhy_keeps | with_reducible apply sendMarker_keeps | with_reducible apply takeMarker_keeps
    | with_reducible apply enterEi_keeps | (intros; with_reducible assumption) | (intro t x ht) | (intro t ht) | split | dsimp only
    | with_reducible apply keeps_mk)

theorem execEiAck_keeps {M : List Host.Cell → Prop} {z₀ : State} (marker : MarkerIn) (s : State) (k₀ : Keeps M z₀ s) : Answers M z₀
    (execEiAck marker s) := by
  unfold execEiAck
  repeat' (first
    | with_reducible assumption | with_reducible apply answers_next | with_reducible apply answers_ite | with_reducible apply keeps_ite
    | with_reducible apply takeMarker_keeps | with_reducible apply enterEi_keeps | (intros; with_reducible assumption) | (intro t x ht)
    | (intro t ht) | split | dsimp only | with_reducible apply keeps_mk)

theorem execEiNak_keeps {M : List Host.Cell → Prop} {z₀ : State} (marker : MarkerIn) (s : State) (k₀ : Keeps M z₀ s) : Answers M z₀
    (execEiNak marker s) := by
  unfold execEiNak
  repeat' (first
    | with_reducible assumption | with_reducible apply answers_next | with_reducible apply answers_ite | with_reducible apply keeps_ite
    | with_reducible apply setPhy_keeps | with_reducible apply countSat_keeps | with_reducible apply takeMarker_keeps
    | (intros; with_reducible assumption) | (intro t x ht) | (intro t ht) | split | dsimp only | with_reducible apply keeps_mk)

theorem idleCycle_keeps {M : List Host.Cell → Prop} {z₀ : State} (s : State) (p : Nat) (k₀ : Keeps M z₀ s) : Keeps M z₀ (idleCycle s p) :=
    by
  unfold idleCycle
  repeat' (first
    | with_reducible assumption | with_reducible apply keeps_ite | with_reducible apply setPhy_keeps | with_reducible apply enterEi_keeps
    | (intros; with_reducible assumption) | (intro t x ht) | (intro t ht) | split | dsimp only | with_reducible apply keeps_mk)

theorem execEiExit_keeps {M : List Host.Cell → Prop} {z₀ : State} (port : BitVec 3) (s : State) (k₀ : Keeps M z₀ s) : Answers M z₀
    (execEiExit port s) := by
  unfold execEiExit
  repeat' (first
    | with_reducible assumption | with_reducible apply answers_next | with_reducible apply answers_ite | with_reducible apply keeps_ite
    | with_reducible apply setPhy_keeps | with_reducible apply emit_keeps | with_reducible apply sendMarker_keeps
    | (intros; with_reducible assumption) | (intro t x ht) | (intro t ht) | split | dsimp only | with_reducible apply keeps_mk)

theorem execWakeBurst_keeps {M : List Host.Cell → Prop} {z₀ : State} (port : BitVec 3) (s : State) (k₀ : Keeps M z₀ s) : Answers M z₀
    (execWakeBurst port s) := by
  unfold execWakeBurst
  repeat' (first
    | with_reducible assumption | with_reducible apply answers_next | with_reducible apply answers_ite | with_reducible apply keeps_ite
    | with_reducible apply emit_keeps | with_reducible apply sendMarker_keeps | with_reducible apply leaveEi_keeps
    | (intros; with_reducible assumption) | (intro t x ht) | (intro t ht) | split | dsimp only | with_reducible apply keeps_mk)

theorem execEiExitTimeout_keeps {M : List Host.Cell → Prop} {z₀ : State} (port : BitVec 3) (s : State) (k₀ : Keeps M z₀ s) : Answers M z₀
    (execEiExitTimeout port s) := by
  unfold execEiExitTimeout
  repeat' (first
    | with_reducible assumption | with_reducible apply answers_next | with_reducible apply answers_ite | with_reducible apply keeps_ite
    | with_reducible apply startRetrain_keeps | (intros; with_reducible assumption) | (intro t x ht) | (intro t ht) | split | dsimp only
    | with_reducible apply keeps_mk)

theorem portEnable_keeps {M : List Host.Cell → Prop} {z₀ : State} (s : State) (p : Nat) (on : Bool) (k₀ : Keeps M z₀ s) : Keeps M z₀
    (portEnable s p on) := by
  unfold portEnable
  repeat' (first
    | with_reducible assumption | with_reducible apply keeps_ite | with_reducible apply startTraining_keeps
    | with_reducible apply leaveFor_keeps | (intros; with_reducible assumption) | (intro t x ht) | (intro t ht) | split | dsimp only
    | with_reducible apply keeps_mk)

theorem loopAct_keeps {M : List Host.Cell → Prop} {z₀ : State} (s : State) (p old new : Nat) (k₀ : Keeps M z₀ s) : Keeps M z₀ (loopAct s p
    old new) := by
  unfold loopAct
  repeat' (first
    | with_reducible assumption | with_reducible apply keeps_ite | with_reducible apply sessionEnd_keeps
    | with_reducible apply startTraining_keeps | with_reducible apply loopSend_keeps | with_reducible apply enterLoopback_keeps
    | (intros; with_reducible assumption) | (intro t x ht) | (intro t ht) | split | dsimp only | with_reducible apply keeps_mk)

theorem wrLphCtl_keeps {M : List Host.Cell → Prop} {z₀ : State} (s : State) (p : Nat) (v : Word64) (k₀ : Keeps M z₀ s) : Keeps M z₀
    (wrLphCtl s p v).state := by
  unfold wrLphCtl
  repeat' (first
    | with_reducible assumption | with_reducible apply keeps_ite | with_reducible apply plainWrite_keeps
    | with_reducible apply setPhy_keeps | with_reducible apply accepted_keeps | with_reducible apply refusedWith_keeps
    | with_reducible apply startRetrain_keeps | with_reducible apply loopAct_keeps | (intros; with_reducible assumption) | (intro t x ht)
    | (intro t ht) | split | dsimp only | with_reducible apply keeps_mk)

theorem wrLrxStat_keeps {M : List Host.Cell → Prop} {z₀ : State} (s : State) (p j : Nat) (v : Word64) (k₀ : Keeps M z₀ s) : Keeps M z₀
    (wrLrxStat s p j v) := by
  unfold wrLrxStat
  repeat' (first
    | with_reducible assumption | with_reducible apply keeps_ite | with_reducible apply wrF_keeps | (intros; with_reducible assumption)
    | (intro t x ht) | (intro t ht) | split | dsimp only | with_reducible apply keeps_mk)

theorem wrLtxFix_keeps {M : List Host.Cell → Prop} {z₀ : State} (s : State) (p j : Nat) (v : Word64) (k₀ : Keeps M z₀ s) : Keeps M z₀
    (wrLtxFix s p j v).state := by
  unfold wrLtxFix
  repeat' (first
    | with_reducible assumption | with_reducible apply keeps_ite | with_reducible apply plainWrite_keeps
    | with_reducible apply accepted_keeps | with_reducible apply refusedWith_keeps | (intros; with_reducible assumption) | (intro t x ht)
    | (intro t ht) | split | dsimp only | with_reducible apply keeps_mk)

theorem allFresh_keeps {M : List Host.Cell → Prop} {z₀ : State} (s : State) (k₀ : Keeps M z₀ s) : Keeps M z₀ (allFresh s) := by
  unfold allFresh
  repeat' (first
    | with_reducible assumption | with_reducible apply keeps_ite | with_reducible apply freshWindows_keeps
    | with_reducible apply keeps_foldl | (intros; with_reducible assumption) | (intro t x ht) | (intro t ht) | split | dsimp only
    | with_reducible apply keeps_mk)

theorem wrLnGcfg_keeps {M : List Host.Cell → Prop} {z₀ : State} (s : State) (v : Word64) (k₀ : Keeps M z₀ s) : Keeps M z₀ (wrLnGcfg s
    v).state := by
  unfold wrLnGcfg
  repeat' (first
    | with_reducible assumption | with_reducible apply keeps_ite | with_reducible apply plainWrite_keeps
    | with_reducible apply accepted_keeps | with_reducible apply refusedWith_keeps | with_reducible apply allFresh_keeps
    | (intros; with_reducible assumption) | (intro t x ht) | (intro t ht) | split | dsimp only | with_reducible apply keeps_mk)

theorem wrLnGcfg2_keeps {M : List Host.Cell → Prop} {z₀ : State} (s : State) (v : Word64) (k₀ : Keeps M z₀ s) : Keeps M z₀ (wrLnGcfg2 s
    v).state := by
  unfold wrLnGcfg2
  repeat' (first
    | with_reducible assumption | with_reducible apply keeps_ite | with_reducible apply plainWrite_keeps
    | with_reducible apply accepted_keeps | with_reducible apply refusedWith_keeps | with_reducible apply allFresh_keeps
    | (intros; with_reducible assumption) | (intro t x ht) | (intro t ht) | split | dsimp only | with_reducible apply keeps_mk)

theorem wrLnGctl_keeps {M : List Host.Cell → Prop} {z₀ : State} (s : State) (v : Word64) (k₀ : Keeps M z₀ s) : Keeps M z₀ (wrLnGctl s v) :=
    by
  unfold wrLnGctl
  repeat' (first
    | with_reducible assumption | with_reducible apply keeps_ite | with_reducible apply wr_keeps | with_reducible apply noteCleared_keeps
    | with_reducible apply keeps_foldl | (intros; with_reducible assumption) | (intro t x ht) | (intro t ht) | split | dsimp only
    | with_reducible apply keeps_mk)

/-! ### Pair -/

theorem pairEvent_keeps {M : List Host.Cell → Prop} {z₀ : State} (s : State) (f : Fld) (k₀ : Keeps M z₀ s) : Keeps M z₀ (pairEvent s f) :=
    by
  unfold pairEvent
  repeat' (first
    | with_reducible assumption | with_reducible apply keeps_ite | with_reducible apply wrB_keeps | with_reducible apply raiseSource_keeps
    | (intros; with_reducible assumption) | (intro t x ht) | (intro t ht) | split | dsimp only | with_reducible apply keeps_mk)

theorem setPairState_keeps {M : List Host.Cell → Prop} {z₀ : State} (s : State) (st : Nat) (active source : Bool) (k₀ : Keeps M z₀ s) :
    Keeps M z₀ (setPairState s st active source) := by
  unfold setPairState
  repeat' (first
    | with_reducible assumption | with_reducible apply keeps_ite | with_reducible apply wrF_keeps | with_reducible apply wrB_keeps
    | (intros; with_reducible assumption) | (intro t x ht) | (intro t ht) | split | dsimp only | with_reducible apply keeps_mk)

theorem markUnits_keeps {M : List Host.Cell → Prop} {z₀ : State} (s : State) (k₀ : Keeps M z₀ s) : Keeps M z₀ (markUnits s) := by
  unfold markUnits
  repeat' (first
    | with_reducible assumption | with_reducible apply keeps_ite | with_reducible apply markSegment_keeps
    | with_reducible apply keeps_foldl | (intros; with_reducible assumption) | (intro t x ht) | (intro t ht) | split | dsimp only
    | with_reducible apply keeps_mk)

theorem noteBreak_keeps {M : List Host.Cell → Prop} {z₀ : State} (s : State) (k₀ : Keeps M z₀ s) : Keeps M z₀ (noteBreak s) := by
  unfold noteBreak
  repeat' (first
    | with_reducible assumption | with_reducible apply keeps_ite | with_reducible apply wr_keeps | with_reducible apply pairEvent_keeps
    | (intros; with_reducible assumption) | (intro t x ht) | (intro t ht) | split | dsimp only | with_reducible apply keeps_mk)

theorem purgeUnits_keeps {M : List Host.Cell → Prop} {z₀ : State} (s : State) (p : Nat) (k₀ : Keeps M z₀ s) : Keeps M z₀ (purgeUnits s p)
    := by
  unfold purgeUnits
  repeat' (first
    | with_reducible assumption | with_reducible apply keeps_ite | with_reducible apply setLink_keeps | (intros; with_reducible assumption)
    | (intro t x ht) | (intro t ht) | split | dsimp only | with_reducible apply keeps_mk)

theorem dropUnits_keeps {M : List Host.Cell → Prop} {z₀ : State} (s : State) (k₀ : Keeps M z₀ s) : Keeps M z₀ (dropUnits s) := by
  unfold dropUnits
  repeat' (first
    | with_reducible assumption | with_reducible apply keeps_ite | with_reducible apply wrF_keeps | with_reducible apply purgeUnits_keeps
    | with_reducible apply keeps_foldl | (intros; with_reducible assumption) | (intro t x ht) | (intro t ht) | split | dsimp only
    | with_reducible apply keeps_mk)

theorem enterSolo_keeps {M : List Host.Cell → Prop} {z₀ : State} (s : State) (k₀ : Keeps M z₀ s) : Keeps M z₀ (enterSolo s) := by
  unfold enterSolo
  repeat' (first
    | with_reducible assumption | with_reducible apply keeps_ite | with_reducible apply wrB_keeps | with_reducible apply addWrap_keeps
    | with_reducible apply runAllDeferred_keeps | with_reducible apply setPairState_keeps | with_reducible apply markUnits_keeps
    | with_reducible apply noteBreak_keeps | with_reducible apply dropUnits_keeps | (intros; with_reducible assumption) | (intro t x ht)
    | (intro t ht) | split | dsimp only | with_reducible apply keeps_mk)

theorem enterOrphan_keeps {M : List Host.Cell → Prop} {z₀ : State} (s : State) (k₀ : Keeps M z₀ s) : Keeps M z₀ (enterOrphan s) := by
  unfold enterOrphan
  repeat' (first
    | with_reducible assumption | with_reducible apply keeps_ite | with_reducible apply setPairState_keeps
    | with_reducible apply markUnits_keeps | with_reducible apply noteBreak_keeps | with_reducible apply dropUnits_keeps
    | (intros; with_reducible assumption) | (intro t x ht) | (intro t ht) | split | dsimp only | with_reducible apply keeps_mk)

theorem partnerLost_keeps {M : List Host.Cell → Prop} {z₀ : State} (s : State) (k₀ : Keeps M z₀ s) : Keeps M z₀ (partnerLost s) := by
  unfold partnerLost
  repeat' (first
    | with_reducible assumption | with_reducible apply keeps_ite | with_reducible apply wrB_keeps | with_reducible apply enterSolo_keeps
    | with_reducible apply enterOrphan_keeps | (intros; with_reducible assumption) | (intro t x ht) | (intro t ht) | split | dsimp only
    | with_reducible apply keeps_mk)

theorem moveUnits_keeps {M : List Host.Cell → Prop} {z₀ : State} (s : State) (p : Nat) (k₀ : Keeps M z₀ s) : Keeps M z₀ (moveUnits s p) :=
    by
  unfold moveUnits
  repeat' (first
    | with_reducible assumption | with_reducible apply keeps_ite | with_reducible apply settleTags_keeps
    | with_reducible apply purgeUnits_keeps | (intros; with_reducible assumption) | (intro t x ht) | (intro t ht) | split | dsimp only
    | with_reducible apply keeps_mk)

theorem execPairPortLoss_keeps {M : List Host.Cell → Prop} {z₀ : State} (port : BitVec 3) (s : State) (k₀ : Keeps M z₀ s) : Answers M z₀
    (execPairPortLoss port s) := by
  unfold execPairPortLoss
  repeat' (first
    | with_reducible assumption | with_reducible apply answers_next | with_reducible apply answers_ite | with_reducible apply keeps_ite
    | with_reducible apply wrF_keeps | with_reducible apply pairEvent_keeps | with_reducible apply partnerLost_keeps
    | with_reducible apply moveUnits_keeps | (intros; with_reducible assumption) | (intro t x ht) | (intro t ht) | split | dsimp only
    | with_reducible apply keeps_mk)

theorem promoteSources_keeps {M : List Host.Cell → Prop} {z₀ : State} (s : State) (k₀ : Keeps M z₀ s) : Keeps M z₀ (promoteSources s) := by
  unfold promoteSources
  repeat' (first
    | with_reducible assumption | with_reducible apply keeps_ite | with_reducible apply raiseSource_keeps
    | with_reducible apply keeps_foldl | (intros; with_reducible assumption) | (intro t x ht) | (intro t ht) | split | dsimp only
    | with_reducible apply keeps_mk)

theorem promote_keeps {M : List Host.Cell → Prop} {z₀ : State} (s : State) (k₀ : Keeps M z₀ s) : Keeps M z₀ (promote s) := by
  unfold promote
  repeat' (first
    | with_reducible assumption | with_reducible apply keeps_ite | with_reducible apply enterSolo_keeps
    | with_reducible apply promoteSources_keeps | (intros; with_reducible assumption) | (intro t x ht) | (intro t ht) | split
    | dsimp only | with_reducible apply keeps_mk)

theorem execAutoPromote_keeps {M : List Host.Cell → Prop} {z₀ : State} (s : State) (k₀ : Keeps M z₀ s) : Answers M z₀ (execAutoPromote s)
    := by
  unfold execAutoPromote
  repeat' (first
    | with_reducible assumption | with_reducible apply answers_next | with_reducible apply answers_ite | with_reducible apply keeps_ite
    | with_reducible apply promote_keeps | (intros; with_reducible assumption) | (intro t x ht) | (intro t ht) | split | dsimp only
    | with_reducible apply keeps_mk)

theorem execLinesUnit_keeps {M : List Host.Cell → Prop} {z₀ : State} (port : BitVec 3) (utag : BitVec 12) (base : BitVec 32) (lmask :
    BitVec 16) (data : List Byte) (s : State) (k₀ : Keeps M z₀ s) : Answers M z₀ (execLinesUnit port utag base lmask data s) := by
  unfold execLinesUnit
  repeat' (first
    | with_reducible assumption | with_reducible apply answers_next | with_reducible apply answers_ite | with_reducible apply keeps_ite
    | with_reducible apply rxReceive_keeps | with_reducible apply countSlots_keeps | (intros; with_reducible assumption) | (intro t x ht)
    | (intro t ht) | split | dsimp only | with_reducible apply keeps_mk)

theorem execSemUnit_keeps {M : CellProp} {z₀ : State} (port : BitVec 3) (utag : BitVec 12) (n : BitVec 16) (state binding : Word64) (s :
    State) (k₀ : Keeps M.holds z₀ s) : Answers M.holds z₀ (execSemUnit port utag n state binding s) := by
  unfold execSemUnit
  repeat' (first
    | with_reducible assumption | with_reducible apply answers_next | with_reducible apply answers_ite | with_reducible apply keeps_ite
    | with_reducible apply rxReceive_keeps | with_reducible apply semUnitTurn_keeps | with_reducible apply countSlots_keeps
    | (intros; with_reducible assumption) | (intro t x ht) | (intro t ht) | split | dsimp only | with_reducible apply keeps_mk)

theorem execMbxUnit_keeps {M : CellProp} {z₀ : State} (port : BitVec 3) (utag : BitVec 12) (n : BitVec 16) (parts : BitVec 7) (isOpen :
    Bool) (data : List Byte) (s : State) (k₀ : Keeps M.holds z₀ s) : Answers M.holds z₀ (execMbxUnit port utag n parts isOpen data s) := by
  unfold execMbxUnit
  repeat' (first
    | with_reducible assumption | with_reducible apply answers_next | with_reducible apply answers_ite | with_reducible apply keeps_ite
    | with_reducible apply rxReceive_keeps | with_reducible apply mbxUnitTurn_keeps | with_reducible apply countSlots_keeps
    | (intros; with_reducible assumption) | (intro t x ht) | (intro t ht) | split | dsimp only | with_reducible apply keeps_mk)

theorem execVatUnit_keeps {M : List Host.Cell → Prop} {z₀ : State} (port : BitVec 3) (utag : BitVec 12) (n : BitVec 16) (data : List Byte)
    (s : State) (k₀ : Keeps M z₀ s) : Answers M z₀ (execVatUnit port utag n data s) := by
  unfold execVatUnit
  repeat' (first
    | with_reducible assumption | with_reducible apply answers_next | with_reducible apply answers_ite | with_reducible apply keeps_ite
    | with_reducible apply rxReceive_keeps | with_reducible apply countSlots_keeps | (intros; with_reducible assumption) | (intro t x ht)
    | (intro t ht) | split | dsimp only | with_reducible apply keeps_mk)

theorem enterMirrored_keeps {M : List Host.Cell → Prop} {z₀ : State} (s : State) (k₀ : Keeps M z₀ s) : Keeps M z₀ (enterMirrored s) := by
  unfold enterMirrored
  repeat' (first
    | with_reducible assumption | with_reducible apply keeps_ite | with_reducible apply wr_keeps | with_reducible apply wrF_keeps
    | with_reducible apply wrB_keeps | with_reducible apply pairEvent_keeps | with_reducible apply setPairState_keeps
    | with_reducible apply keeps_foldl | (intros; with_reducible assumption) | (intro t x ht) | (intro t ht) | split | dsimp only
    | with_reducible apply keeps_mk)

theorem settleSegment_keeps {M : List Host.Cell → Prop} {z₀ : State} (s : State) (g : Nat) (k₀ : Keeps M z₀ s) : Keeps M z₀ (settleSegment
    s g) := by
  unfold settleSegment
  repeat' (first
    | with_reducible assumption | with_reducible apply keeps_ite | with_reducible apply wrF_keeps | with_reducible apply clearSegment_keeps
    | (intros; with_reducible assumption) | (intro t x ht) | (intro t ht) | split | dsimp only | with_reducible apply keeps_mk)

theorem acceptOne_keeps {M : List Host.Cell → Prop} {z₀ : State} (s : State) (p utag : Nat) (k₀ : Keeps M z₀ s) : Keeps M z₀ (acceptOne s p
    utag) := by
  unfold acceptOne
  repeat' (first
    | with_reducible assumption | with_reducible apply keeps_ite | with_reducible apply wrF_keeps | with_reducible apply occur_keeps
    | with_reducible apply runAllDeferred_keeps | with_reducible apply settleTags_keeps | with_reducible apply enterMirrored_keeps
    | with_reducible apply settleSegment_keeps | (intros; with_reducible assumption) | (intro t x ht) | (intro t ht) | split | dsimp only
    | with_reducible apply keeps_mk)

theorem execAcceptUnit_keeps {M : List Host.Cell → Prop} {z₀ : State} (port : BitVec 3) (utags : List (BitVec 12)) (s : State) (k₀ : Keeps
    M z₀ s) : Answers M z₀ (execAcceptUnit port utags s) := by
  unfold execAcceptUnit
  repeat' (first
    | with_reducible assumption | with_reducible apply answers_next | with_reducible apply answers_ite | with_reducible apply keeps_ite
    | with_reducible apply countSlots_keeps | with_reducible apply acceptOne_keeps | with_reducible apply keeps_foldl
    | (intros; with_reducible assumption) | (intro t x ht) | (intro t ht) | split | dsimp only | with_reducible apply keeps_mk)

theorem execHealReq_keeps {M : List Host.Cell → Prop} {z₀ : State} (port : BitVec 3) (utag : BitVec 12) (addr : BitVec 32) (s : State) (k₀
    : Keeps M z₀ s) : Answers M z₀ (execHealReq port utag addr s) := by
  unfold execHealReq
  repeat' (first
    | with_reducible assumption | with_reducible apply answers_next | with_reducible apply answers_ite | with_reducible apply keeps_ite
    | with_reducible apply sendOn_keeps | with_reducible apply rxReceive_keeps | with_reducible apply countSlots_keeps
    | (intros; with_reducible assumption) | (intro t x ht) | (intro t ht) | split | dsimp only | with_reducible apply keeps_mk)

theorem execHealData_keeps {M : List Host.Cell → Prop} {z₀ : State} (port : BitVec 3) (utag : BitVec 12) (addr : BitVec 32) (good : Bool)
    (data : List Byte) (s : State) (k₀ : Keeps M z₀ s) : Answers M z₀ (execHealData port utag addr good data s) := by
  unfold execHealData
  repeat' (first
    | with_reducible assumption | with_reducible apply answers_next | with_reducible apply answers_ite | with_reducible apply keeps_ite
    | with_reducible apply addSat_keeps | with_reducible apply takeUid_keeps | with_reducible apply settleTags_keeps
    | with_reducible apply pairLine_keeps | with_reducible apply countSlots_keeps | (intros; with_reducible assumption) | (intro t x ht)
    | (intro t ht) | split | dsimp only | with_reducible apply keeps_mk)

theorem execHelloSend_keeps {M : List Host.Cell → Prop} {z₀ : State} (s : State) (k₀ : Keeps M z₀ s) : Answers M z₀ (execHelloSend s) := by
  unfold execHelloSend
  repeat' (first
    | with_reducible assumption | with_reducible apply answers_next | with_reducible apply answers_ite | with_reducible apply keeps_ite
    | with_reducible apply emit_keeps | with_reducible apply sendOn_keeps | with_reducible apply keeps_foldl
    | (intros; with_reducible assumption) | (intro t x ht) | (intro t ht) | split | dsimp only | with_reducible apply keeps_mk)

theorem dropCopyReads_keeps {M : List Host.Cell → Prop} {z₀ : State} (s : State) (k₀ : Keeps M z₀ s) : Keeps M z₀ (dropCopyReads s) := by
  unfold dropCopyReads
  repeat' (first
    | with_reducible assumption | with_reducible apply keeps_ite | (intros; with_reducible assumption) | (intro t x ht) | (intro t ht)
    | split | dsimp only | with_reducible apply keeps_mk)

theorem beginSync_keeps {M : List Host.Cell → Prop} {z₀ : State} (s : State) (f : HelloFields) (source : Bool) (k₀ : Keeps M z₀ s) : Keeps
    M z₀ (beginSync s f source) := by
  unfold beginSync
  repeat' (first
    | with_reducible assumption | with_reducible apply keeps_ite | with_reducible apply wrF_keeps | with_reducible apply markSegment_keeps
    | with_reducible apply setPairState_keeps | with_reducible apply dropCopyReads_keeps | with_reducible apply keeps_foldl
    | (intros; with_reducible assumption) | (intro t x ht) | (intro t ht) | split | dsimp only | with_reducible apply keeps_mk)

theorem joinStep_keeps {M : List Host.Cell → Prop} {z₀ : State} (s : State) (f : HelloFields) (k₀ : Keeps M z₀ s) : Keeps M z₀ (joinStep s
    f) := by
  unfold joinStep
  repeat' (first
    | with_reducible assumption | with_reducible apply keeps_ite | with_reducible apply wrF_keeps | with_reducible apply wrB_keeps
    | with_reducible apply pairEvent_keeps | with_reducible apply beginSync_keeps | (intros; with_reducible assumption) | (intro t x ht)
    | (intro t ht) | split | dsimp only | with_reducible apply keeps_mk)

theorem execHelloUnit_keeps {M : List Host.Cell → Prop} {z₀ : State} (port : BitVec 3) (f : HelloFields) (s : State) (k₀ : Keeps M z₀ s) :
    Answers M z₀ (execHelloUnit port f s) := by
  unfold execHelloUnit
  repeat' (first
    | with_reducible assumption | with_reducible apply answers_next | with_reducible apply answers_ite | with_reducible apply keeps_ite
    | with_reducible apply wrF_keeps | with_reducible apply countSlots_keeps | with_reducible apply pairEvent_keeps
    | with_reducible apply enterMirrored_keeps | with_reducible apply joinStep_keeps | (intros; with_reducible assumption)
    | (intro t x ht) | (intro t ht) | split | dsimp only | with_reducible apply keeps_mk)

theorem syncVat_keeps {M : List Host.Cell → Prop} {z₀ : State} (s : State) (n : Nat) (k₀ : Keeps M z₀ s) : Keeps M z₀ (syncVat s n) := by
  unfold syncVat
  repeat' (first
    | with_reducible assumption | with_reducible apply keeps_ite | with_reducible apply forwardVat_keeps
    | with_reducible apply syncNext_keeps | (intros; with_reducible assumption) | (intro t x ht) | (intro t ht) | split | dsimp only
    | with_reducible apply keeps_mk)

theorem syncLineStep_keeps {M : CellProp} {z₀ : State} (s : State) (e : Nat) (k₀ : Keeps M.holds z₀ s) : Keeps M.holds z₀ (syncLineStep s
    e) := by
  unfold syncLineStep
  repeat' (first
    | with_reducible assumption | with_reducible apply keeps_ite | with_reducible apply copyAccess_keeps
    | with_reducible apply useIssue_keeps | with_reducible apply copySlot_keeps | (intros; with_reducible assumption) | (intro t x ht)
    | (intro t ht) | split | dsimp only | with_reducible apply keeps_mk)

theorem syncSemStep_keeps {M : CellProp} {z₀ : State} (s : State) (e n : Nat) (k₀ : Keeps M.holds z₀ s) : Keeps M.holds z₀ (syncSemStep s e
    n) := by
  unfold syncSemStep
  repeat' (first
    | with_reducible assumption | with_reducible apply keeps_ite | with_reducible apply semEnter_keeps
    | with_reducible apply semUnitTurn_keeps | with_reducible apply useIssue_keeps | (intros; with_reducible assumption) | (intro t x ht)
    | (intro t ht) | split | dsimp only | with_reducible apply keeps_mk)

theorem syncMbxStep_keeps {M : CellProp} {z₀ : State} (s : State) (e n : Nat) (k₀ : Keeps M.holds z₀ s) : Keeps M.holds z₀ (syncMbxStep s e
    n) := by
  unfold syncMbxStep
  repeat' (first
    | with_reducible assumption | with_reducible apply keeps_ite | with_reducible apply mbxEnter_keeps
    | with_reducible apply mbxUnitTurn_keeps | with_reducible apply useIssue_keeps | (intros; with_reducible assumption) | (intro t x ht)
    | (intro t ht) | split | dsimp only | with_reducible apply keeps_mk)

theorem syncVatStep_keeps {M : List Host.Cell → Prop} {z₀ : State} (s : State) (e n : Nat) (k₀ : Keeps M z₀ s) : Keeps M z₀ (syncVatStep s
    e n) := by
  unfold syncVatStep
  repeat' (first
    | with_reducible assumption | with_reducible apply keeps_ite | with_reducible apply useIssue_keeps | with_reducible apply syncVat_keeps
    | (intros; with_reducible assumption) | (intro t x ht) | (intro t ht) | split | dsimp only | with_reducible apply keeps_mk)

theorem syncStep_keeps {M : CellProp} {z₀ : State} (s : State) (e : Nat) (k₀ : Keeps M.holds z₀ s) : Keeps M.holds z₀ (syncStep s e) := by
  unfold syncStep
  repeat' (first
    | with_reducible assumption | with_reducible apply keeps_ite | with_reducible apply syncLineStep_keeps
    | with_reducible apply syncSemStep_keeps | with_reducible apply syncMbxStep_keeps | with_reducible apply syncVatStep_keeps
    | (intros; with_reducible assumption) | (intro t x ht) | (intro t ht) | split | dsimp only | with_reducible apply keeps_mk)

theorem execSyncCopy_keeps {M : CellProp} {z₀ : State} (s : State) (k₀ : Keeps M.holds z₀ s) : Answers M.holds z₀ (execSyncCopy s) := by
  unfold execSyncCopy
  repeat' (first
    | with_reducible assumption | with_reducible apply answers_next | with_reducible apply answers_ite | with_reducible apply keeps_ite
    | with_reducible apply syncStep_keeps | (intros; with_reducible assumption) | (intro t x ht) | (intro t ht) | split | dsimp only
    | with_reducible apply keeps_mk)

theorem wrPrRole_keeps {M : List Host.Cell → Prop} {z₀ : State} (s : State) (v : Word64) (k₀ : Keeps M z₀ s) : Keeps M z₀ (wrPrRole s
    v).state := by
  unfold wrPrRole
  repeat' (first
    | with_reducible assumption | with_reducible apply keeps_ite | with_reducible apply plainWrite_keeps
    | with_reducible apply accepted_keeps | with_reducible apply refusedWith_keeps | (intros; with_reducible assumption) | (intro t x ht)
    | (intro t ht) | split | dsimp only | with_reducible apply keeps_mk)

theorem wrPrMirror_keeps {M : List Host.Cell → Prop} {z₀ : State} (s : State) (v : Word64) (k₀ : Keeps M z₀ s) : Keeps M z₀ (wrPrMirror s
    v).state := by
  unfold wrPrMirror
  repeat' (first
    | with_reducible assumption | with_reducible apply keeps_ite | with_reducible apply plainWrite_keeps
    | with_reducible apply accepted_keeps | with_reducible apply refusedWith_keeps | (intros; with_reducible assumption) | (intro t x ht)
    | (intro t ht) | split | dsimp only | with_reducible apply keeps_mk)

theorem wrPrCfg_keeps {M : List Host.Cell → Prop} {z₀ : State} (s : State) (v : Word64) (k₀ : Keeps M z₀ s) : Keeps M z₀ (wrPrCfg s
    v).state := by
  unfold wrPrCfg
  repeat' (first
    | with_reducible assumption | with_reducible apply keeps_ite | with_reducible apply plainWrite_keeps
    | with_reducible apply accepted_keeps | with_reducible apply refusedWith_keeps | (intros; with_reducible assumption) | (intro t x ht)
    | (intro t ht) | split | dsimp only | with_reducible apply keeps_mk)

theorem beginJoin_keeps {M : List Host.Cell → Prop} {z₀ : State} (s : State) (source : Option Bool) (k₀ : Keeps M z₀ s) : Keeps M z₀
    (beginJoin s source) := by
  unfold beginJoin
  repeat' (first
    | with_reducible assumption | with_reducible apply keeps_ite | with_reducible apply wrF_keeps | with_reducible apply setPairState_keeps
    | (intros; with_reducible assumption) | (intro t x ht) | (intro t ht) | split | dsimp only | with_reducible apply keeps_mk)

theorem leavePair_keeps {M : List Host.Cell → Prop} {z₀ : State} (s : State) (k₀ : Keeps M z₀ s) : Keeps M z₀ (leavePair s) := by
  unfold leavePair
  repeat' (first
    | with_reducible assumption | with_reducible apply keeps_ite | with_reducible apply wrF_keeps | with_reducible apply wrB_keeps
    | with_reducible apply runAllDeferred_keeps | with_reducible apply setPairState_keeps | with_reducible apply dropUnits_keeps
    | (intros; with_reducible assumption) | (intro t x ht) | (intro t ht) | split | dsimp only | with_reducible apply keeps_mk)

theorem wrPrCmd_keeps {M : List Host.Cell → Prop} {z₀ : State} (s : State) (v : Word64) (k₀ : Keeps M z₀ s) : Keeps M z₀ (wrPrCmd s v) :=
    by
  unfold wrPrCmd
  repeat' (first
    | with_reducible assumption | with_reducible apply keeps_ite | with_reducible apply plainWrite_keeps
    | with_reducible apply promote_keeps | with_reducible apply beginJoin_keeps | with_reducible apply leavePair_keeps
    | (intros; with_reducible assumption) | (intro t x ht) | (intro t ht) | split | dsimp only | with_reducible apply keeps_mk)

theorem skipJoin_keeps {M : List Host.Cell → Prop} {z₀ : State} (s : State) (k₀ : Keeps M z₀ s) : Keeps M z₀ (skipJoin s) := by
  unfold skipJoin
  repeat' (first
    | with_reducible assumption | with_reducible apply keeps_ite | with_reducible apply markSegment_keeps
    | with_reducible apply enterSolo_keeps | with_reducible apply enterOrphan_keeps | with_reducible apply keeps_foldl
    | (intros; with_reducible assumption) | (intro t x ht) | (intro t ht) | split | dsimp only | with_reducible apply keeps_mk)

end Sys2Proof.Machine
end

