-- ==== Sys2Proof/Laws/KeepsPower.lean ====
section
/-! SUPPORT. One lemma for each operation and each meaning of power, resets and the start:
it leaves the variant, device time and the queue of commands alone and keeps the canonical form of the memory; a meaning always answers
a next state. -/

namespace Sys2Proof.Machine

/-! ### Power -/

theorem wrPwrRegion_keeps {M : List Host.Cell → Prop} {z₀ : State} (s : State) (v : Word64) (k₀ : Keeps M z₀ s) : Keeps M z₀ (wrPwrRegion s
    v).state := by
  unfold wrPwrRegion
  repeat' (first
    | with_reducible assumption | with_reducible apply keeps_ite | with_reducible apply plainWrite_keeps
    | with_reducible apply applyTarget_keeps | with_reducible apply accepted_keeps | with_reducible apply refusedWith_keeps
    | with_reducible apply keeps_foldl | (intros; with_reducible assumption) | (intro t x ht) | (intro t ht) | split | dsimp only
    | with_reducible apply keeps_mk)

theorem idleFromNow_keeps {M : List Host.Cell → Prop} {z₀ : State} (s : State) (h : Nat) (k₀ : Keeps M z₀ s) : Keeps M z₀ (idleFromNow s h)
    := by
  unfold idleFromNow
  repeat' (first
    | with_reducible assumption | with_reducible apply keeps_ite | (intros; with_reducible assumption) | (intro t x ht) | (intro t ht)
    | split | dsimp only | with_reducible apply keeps_mk)

theorem sampleWakeHeld_keeps {M : List Host.Cell → Prop} {z₀ : State} (s : State) (h : Nat) (k₀ : Keeps M z₀ s) : Keeps M z₀
    (sampleWakeHeld s h) := by
  unfold sampleWakeHeld
  repeat' (first
    | with_reducible assumption | with_reducible apply keeps_ite | with_reducible apply sampleHeld_keeps | with_reducible apply keeps_foldl
    | (intros; with_reducible assumption) | (intro t x ht) | (intro t ht) | split | dsimp only | with_reducible apply keeps_mk)

theorem execRetainWakeDone_keeps {M : List Host.Cell → Prop} {z₀ : State} (region : BitVec 3) (s : State) (k₀ : Keeps M z₀ s) : Answers M
    z₀ (execRetainWakeDone region s) := by
  unfold execRetainWakeDone
  repeat' (first
    | with_reducible assumption | with_reducible apply answers_next | with_reducible apply answers_ite | with_reducible apply keeps_ite
    | with_reducible apply setRegionState_keeps | with_reducible apply applyTarget_keeps | with_reducible apply idleFromNow_keeps
    | with_reducible apply sampleWakeHeld_keeps | (intros; with_reducible assumption) | (intro t x ht) | (intro t ht) | split
    | dsimp only | with_reducible apply keeps_mk)

theorem execRetainIdleTimeout_keeps {M : List Host.Cell → Prop} {z₀ : State} (region : BitVec 3) (s : State) (k₀ : Keeps M z₀ s) : Answers
    M z₀ (execRetainIdleTimeout region s) := by
  unfold execRetainIdleTimeout
  repeat' (first
    | with_reducible assumption | with_reducible apply answers_next | with_reducible apply answers_ite | with_reducible apply keeps_ite
    | with_reducible apply setRegionState_keeps | (intros; with_reducible assumption) | (intro t x ht) | (intro t ht) | split
    | dsimp only | with_reducible apply keeps_mk)

theorem execRetainEntryDone_keeps {M : List Host.Cell → Prop} {z₀ : State} (region : BitVec 3) (s : State) (k₀ : Keeps M z₀ s) : Answers M
    z₀ (execRetainEntryDone region s) := by
  unfold execRetainEntryDone
  repeat' (first
    | with_reducible assumption | with_reducible apply answers_next | with_reducible apply answers_ite | with_reducible apply keeps_ite
    | with_reducible apply setRegionState_keeps | with_reducible apply wakeRegion_keeps | with_reducible apply applyTarget_keeps
    | (intros; with_reducible assumption) | (intro t x ht) | (intro t ht) | split | dsimp only | with_reducible apply keeps_mk)

theorem execOffWakeDone_keeps {M : CellProp} {z₀ : State} (region : BitVec 3) (s : State) (k₀ : Keeps M.holds z₀ s) : Answers M.holds z₀
    (execOffWakeDone region s) := by
  unfold execOffWakeDone
  repeat' (first
    | with_reducible assumption | with_reducible apply answers_next | with_reducible apply answers_ite | with_reducible apply keeps_ite
    | with_reducible apply wrB_keeps | with_reducible apply followOrDefer_keeps | with_reducible apply clearUnit_keeps
    | with_reducible apply idleFromNow_keeps | with_reducible apply keeps_foldl | (intros; with_reducible assumption) | (intro t x ht)
    | (intro t ht) | split | dsimp only | with_reducible apply keeps_mk)

theorem askIdle_keeps {M : List Host.Cell → Prop} {z₀ : State} (s : State) (p : Nat) (k₀ : Keeps M z₀ s) : Keeps M z₀ (askIdle s p) := by
  unfold askIdle
  repeat' (first
    | with_reducible assumption | with_reducible apply keeps_ite | with_reducible apply askEi_keeps | (intros; with_reducible assumption)
    | (intro t x ht) | (intro t ht) | split | dsimp only | with_reducible apply keeps_mk)

theorem enterSleep_keeps {M : List Host.Cell → Prop} {z₀ : State} (s : State) (k₀ : Keeps M z₀ s) : Keeps M z₀ (enterSleep s) := by
  unfold enterSleep
  repeat' (first
    | with_reducible assumption | with_reducible apply keeps_ite | with_reducible apply applyTarget_keeps
    | with_reducible apply yieldBackground_keeps | with_reducible apply askIdle_keeps | with_reducible apply keeps_foldl
    | (intros; with_reducible assumption) | (intro t x ht) | (intro t ht) | split | dsimp only | with_reducible apply keeps_mk)

theorem leaveSleep_keeps {M : List Host.Cell → Prop} {z₀ : State} (s : State) (k₀ : Keeps M z₀ s) : Keeps M z₀ (leaveSleep s) := by
  unfold leaveSleep
  repeat' (first
    | with_reducible assumption | with_reducible apply keeps_ite | with_reducible apply applyTarget_keeps
    | with_reducible apply keeps_foldl | (intros; with_reducible assumption) | (intro t x ht) | (intro t ht) | split | dsimp only
    | with_reducible apply keeps_mk)

theorem wrPwrCtl_keeps {M : List Host.Cell → Prop} {z₀ : State} (s : State) (v : Word64) (k₀ : Keeps M z₀ s) : Keeps M z₀ (wrPwrCtl s
    v).state := by
  unfold wrPwrCtl
  repeat' (first
    | with_reducible assumption | with_reducible apply keeps_ite | with_reducible apply wrF_keeps | with_reducible apply plainWrite_keeps
    | with_reducible apply accepted_keeps | with_reducible apply refusedWith_keeps | with_reducible apply enterSleep_keeps
    | with_reducible apply leaveSleep_keeps | (intros; with_reducible assumption) | (intro t x ht) | (intro t ht) | split | dsimp only
    | with_reducible apply keeps_mk)

theorem wrPwrStart_keeps {M : List Host.Cell → Prop} {z₀ : State} (s : State) (v : Word64) (k₀ : Keeps M z₀ s) : Keeps M z₀ (wrPwrStart s
    v).state := by
  unfold wrPwrStart
  repeat' (first
    | with_reducible assumption | with_reducible apply keeps_ite | with_reducible apply plainWrite_keeps
    | with_reducible apply accepted_keeps | with_reducible apply refusedWith_keeps | (intros; with_reducible assumption) | (intro t x ht)
    | (intro t ht) | split | dsimp only | with_reducible apply keeps_mk)

theorem execHoldEntry_keeps {M : List Host.Cell → Prop} {z₀ : State} (mv : BitVec 16) (s : State) (k₀ : Keeps M z₀ s) : Answers M z₀
    (execHoldEntry mv s) := by
  unfold execHoldEntry
  repeat' (first
    | with_reducible assumption | with_reducible apply answers_next | with_reducible apply answers_ite | with_reducible apply keeps_ite
    | with_reducible apply wrF_keeps | with_reducible apply wrB_keeps | with_reducible apply addSat_keeps
    | with_reducible apply raiseSource_keeps | with_reducible apply yieldBackground_keeps | (intros; with_reducible assumption)
    | (intro t x ht) | (intro t ht) | split | dsimp only | with_reducible apply keeps_mk)

/-! ### Reset -/

theorem restoreBorrowed_keeps {M : CellProp} {z₀ : State} (s : State) (b : Nat) (k₀ : Keeps M.holds z₀ s) : Keeps M.holds z₀
    (restoreBorrowed s b) := by
  unfold restoreBorrowed
  repeat' (first
    | with_reducible assumption | with_reducible apply keeps_ite | with_reducible apply restoreLine_keeps
    | with_reducible apply keeps_foldl | (intros; with_reducible assumption) | (intro t x ht) | (intro t ht) | split | dsimp only
    | with_reducible apply keeps_mk)

theorem arrayKept_keeps {M : CellProp} {z₀ : State} (s : State) (k₀ : Keeps M.holds z₀ s) : Keeps M.holds z₀ (arrayKept s) := by
  unfold arrayKept
  repeat' (first
    | with_reducible assumption | with_reducible apply keeps_ite | with_reducible apply wrB_keeps | with_reducible apply clearUnit_keeps
    | with_reducible apply restoreBorrowed_keeps | with_reducible apply keeps_foldl | (intros; with_reducible assumption)
    | (intro t x ht) | (intro t ht) | split | dsimp only | with_reducible apply keeps_mk)

theorem endSessions_keeps {M : List Host.Cell → Prop} {z₀ : State} (s : State) (k₀ : Keeps M z₀ s) : Keeps M z₀ (endSessions s) := by
  unfold endSessions
  repeat' (first
    | with_reducible assumption | with_reducible apply keeps_ite | with_reducible apply sessionEnd_keeps | with_reducible apply keeps_foldl
    | (intros; with_reducible assumption) | (intro t x ht) | (intro t ht) | split | dsimp only | with_reducible apply keeps_mk)

theorem releasePins_keeps {M : List Host.Cell → Prop} {z₀ : State} (s : State) (k₀ : Keeps M z₀ s) : Keeps M z₀ (releasePins s) := by
  unfold releasePins
  repeat' (first
    | with_reducible assumption | with_reducible apply keeps_ite | with_reducible apply emit_keeps | with_reducible apply keeps_foldl
    | (intros; with_reducible assumption) | (intro t x ht) | (intro t ht) | split | dsimp only | with_reducible apply keeps_mk)

theorem keepSnap_keeps {M : List Host.Cell → Prop} {z₀ : State} (s : State) (k₀ : Keeps M z₀ s) : Keeps M z₀ (keepSnap s) := by
  unfold keepSnap
  repeat' (first
    | with_reducible assumption | with_reducible apply keeps_ite | (intros; with_reducible assumption) | (intro t x ht) | (intro t ht)
    | split | dsimp only | with_reducible apply keeps_mk)

theorem writeRecord_keeps {M : List Host.Cell → Prop} {z₀ : State} (s : State) (starts : Nat) (k₀ : Keeps M z₀ s) : Keeps M z₀ (writeRecord
    s starts) := by
  unfold writeRecord
  repeat' (first
    | with_reducible assumption | with_reducible apply keeps_ite | with_reducible apply wr_keeps | with_reducible apply keeps_foldl
    | (intros; with_reducible assumption) | (intro t x ht) | (intro t ht) | split | dsimp only | with_reducible apply keeps_mk)

theorem deviceReset_keeps {M : CellProp} {z₀ : State} (s : State) (kind : Nat) (k₀ : Keeps M.holds z₀ s) : Keeps M.holds z₀ (deviceReset s
    kind) := by
  unfold deviceReset
  repeat' (first
    | with_reducible assumption | with_reducible apply keeps_ite | with_reducible apply wrF_keeps | with_reducible apply wrB_keeps
    | with_reducible apply recountFree_keeps | with_reducible apply arrayKept_keeps | with_reducible apply endSessions_keeps
    | with_reducible apply releasePins_keeps | with_reducible apply writeRecord_keeps | (intros; with_reducible assumption)
    | (intro t x ht) | (intro t ht) | split | dsimp only | with_reducible apply keeps_mk)

theorem execBrownoutReset_keeps {M : CellProp} {z₀ : State} (s : State) (k₀ : Keeps M.holds z₀ s) : Answers M.holds z₀ (execBrownoutReset
    s) := by
  unfold execBrownoutReset
  repeat' (first
    | with_reducible assumption | with_reducible apply answers_next | with_reducible apply answers_ite | with_reducible apply keeps_ite
    | with_reducible apply addSat_keeps | with_reducible apply deviceReset_keeps | (intros; with_reducible assumption) | (intro t x ht)
    | (intro t ht) | split | dsimp only | with_reducible apply keeps_mk)

theorem setVio_keeps {M : List Host.Cell → Prop} {z₀ : State} (s : State) (good : Bool) (k₀ : Keeps M z₀ s) : Keeps M z₀ (setVio s good) :=
    by
  unfold setVio
  repeat' (first
    | with_reducible assumption | with_reducible apply keeps_ite | (intros; with_reducible assumption) | (intro t x ht) | (intro t ht)
    | split | dsimp only | with_reducible apply keeps_mk)

theorem execRailFail_keeps {M : CellProp} {z₀ : State} (vio : Bool) (s : State) (k₀ : Keeps M.holds z₀ s) : Answers M.holds z₀
    (execRailFail vio s) := by
  unfold execRailFail
  repeat' (first
    | with_reducible assumption | with_reducible apply answers_next | with_reducible apply answers_ite | with_reducible apply keeps_ite
    | with_reducible apply keepSnap_keeps | with_reducible apply deviceReset_keeps | with_reducible apply setVio_keeps
    | (intros; with_reducible assumption) | (intro t x ht) | (intro t ht) | split | dsimp only | with_reducible apply keeps_mk)

theorem execPinReset_keeps {M : CellProp} {z₀ : State} (s : State) (k₀ : Keeps M.holds z₀ s) : Answers M.holds z₀ (execPinReset s) := by
  unfold execPinReset
  repeat' (first
    | with_reducible assumption | with_reducible apply answers_next | with_reducible apply answers_ite | with_reducible apply keeps_ite
    | with_reducible apply wrB_keeps | with_reducible apply deviceReset_keeps | (intros; with_reducible assumption) | (intro t x ht)
    | (intro t ht) | split | dsimp only | with_reducible apply keeps_mk)

theorem execResetNRise_keeps {M : List Host.Cell → Prop} {z₀ : State} (s : State) (k₀ : Keeps M z₀ s) : Answers M z₀ (execResetNRise s) :=
    by
  unfold execResetNRise
  repeat' (first
    | with_reducible assumption | with_reducible apply answers_next | with_reducible apply answers_ite | with_reducible apply keeps_ite
    | (intros; with_reducible assumption) | (intro t x ht) | (intro t ht) | split | dsimp only | with_reducible apply keeps_mk)

theorem beginWarm_keeps {M : List Host.Cell → Prop} {z₀ : State} (s : State) (k₀ : Keeps M z₀ s) : Keeps M z₀ (beginWarm s) := by
  unfold beginWarm
  repeat' (first
    | with_reducible assumption | with_reducible apply keeps_ite | with_reducible apply wrB_keeps | (intros; with_reducible assumption)
    | (intro t x ht) | (intro t ht) | split | dsimp only | with_reducible apply keeps_mk)

theorem warmStep_keeps {M : CellProp} {z₀ : State} (s : State) (k₀ : Keeps M.holds z₀ s) : Keeps M.holds z₀ (warmStep s) := by
  unfold warmStep
  repeat' (first
    | with_reducible assumption | with_reducible apply keeps_ite | with_reducible apply deviceReset_keeps
    | (intros; with_reducible assumption) | (intro t x ht) | (intro t ht) | split | dsimp only | with_reducible apply keeps_mk)

theorem resetPort_keeps {M : List Host.Cell → Prop} {z₀ : State} (s : State) (p : Nat) (k₀ : Keeps M z₀ s) : Keeps M z₀ (resetPort s p) :=
    by
  unfold resetPort
  repeat' (first
    | with_reducible assumption | with_reducible apply keeps_ite | with_reducible apply setLink_keeps
    | with_reducible apply startTraining_keeps | with_reducible apply leaveFor_keeps | (intros; with_reducible assumption)
    | (intro t x ht) | (intro t ht) | split | dsimp only | with_reducible apply keeps_mk)

theorem wrPwrReset_keeps {M : List Host.Cell → Prop} {z₀ : State} (s : State) (v : Word64) (k₀ : Keeps M z₀ s) : Keeps M z₀ (wrPwrReset s
    v).state := by
  unfold wrPwrReset
  repeat' (first
    | with_reducible assumption | with_reducible apply keeps_ite | with_reducible apply accepted_keeps
    | with_reducible apply refusedWith_keeps | with_reducible apply beginWarm_keeps | with_reducible apply resetPort_keeps
    | with_reducible apply keeps_foldl | (intros; with_reducible assumption) | (intro t x ht) | (intro t ht) | split | dsimp only
    | with_reducible apply keeps_mk)

theorem execRefclkLoss_keeps {M : List Host.Cell → Prop} {z₀ : State} (s : State) (k₀ : Keeps M z₀ s) : Answers M z₀ (execRefclkLoss s) :=
    by
  unfold execRefclkLoss
  repeat' (first
    | with_reducible assumption | with_reducible apply answers_next | with_reducible apply answers_ite | with_reducible apply keeps_ite
    | with_reducible apply portEvent_keeps | with_reducible apply leaveFor_keeps | with_reducible apply keeps_foldl
    | (intros; with_reducible assumption) | (intro t x ht) | (intro t ht) | split | dsimp only | with_reducible apply keeps_mk)

theorem execRefclkReturn_keeps {M : CellProp} {z₀ : State} (s : State) (k₀ : Keeps M.holds z₀ s) : Answers M.holds z₀ (execRefclkReturn s)
    := by
  unfold execRefclkReturn
  repeat' (first
    | with_reducible assumption | with_reducible apply answers_next | with_reducible apply answers_ite | with_reducible apply keeps_ite
    | with_reducible apply wrB_keeps | with_reducible apply deviceReset_keeps | (intros; with_reducible assumption) | (intro t x ht)
    | (intro t ht) | split | dsimp only | with_reducible apply keeps_mk)

theorem execScHalt_keeps {M : List Host.Cell → Prop} {z₀ : State} (s : State) (k₀ : Keeps M z₀ s) : Answers M z₀ (execScHalt s) := by
  unfold execScHalt
  repeat' (first
    | with_reducible assumption | with_reducible apply answers_next | with_reducible apply answers_ite | with_reducible apply keeps_ite
    | with_reducible apply raiseSource_keeps | (intros; with_reducible assumption) | (intro t x ht) | (intro t ht) | split | dsimp only
    | with_reducible apply keeps_mk)

/-! ### Start -/

theorem consoleLine_keeps {M : List Host.Cell → Prop} {z₀ : State} (s : State) (text : List Byte) (k₀ : Keeps M z₀ s) : Keeps M z₀
    (consoleLine s text) := by
  unfold consoleLine
  repeat' (first
    | with_reducible assumption | with_reducible apply keeps_ite | with_reducible apply emit_keeps | with_reducible apply keeps_foldl
    | (intros; with_reducible assumption) | (intro t x ht) | (intro t ht) | split | dsimp only | with_reducible apply keeps_mk)

theorem consoleWrite_keeps {M : List Host.Cell → Prop} {z₀ : State} (s : State) (text : List Byte) (k₀ : Keeps M z₀ s) : Keeps M z₀
    (consoleWrite s text) := by
  unfold consoleWrite
  repeat' (first
    | with_reducible assumption | with_reducible apply keeps_ite | with_reducible apply consoleLine_keeps
    | (intros; with_reducible assumption) | (intro t x ht) | (intro t ht) | split | dsimp only | with_reducible apply keeps_mk)

theorem ownPrompt_keeps {M : List Host.Cell → Prop} {z₀ : State} (s : State) (k₀ : Keeps M z₀ s) : Keeps M z₀ (ownPrompt s) := by
  unfold ownPrompt
  repeat' (first
    | with_reducible assumption | with_reducible apply keeps_ite | with_reducible apply emit_keeps | (intros; with_reducible assumption)
    | (intro t x ht) | (intro t ht) | split | dsimp only | with_reducible apply keeps_mk)

theorem ownLine_keeps {M : List Host.Cell → Prop} {z₀ : State} (s : State) (text : List Byte) (k₀ : Keeps M z₀ s) : Keeps M z₀ (ownLine s
    text) := by
  unfold ownLine
  repeat' (first
    | with_reducible assumption | with_reducible apply keeps_ite | with_reducible apply consoleLine_keeps
    | with_reducible apply ownPrompt_keeps | (intros; with_reducible assumption) | (intro t x ht) | (intro t ht) | split | dsimp only
    | with_reducible apply keeps_mk)

theorem startLine_keeps {M : List Host.Cell → Prop} {z₀ : State} (s : State) (step unit code : Nat) (k₀ : Keeps M z₀ s) : Keeps M z₀
    (startLine s step unit code) := by
  unfold startLine
  repeat' (first
    | with_reducible assumption | with_reducible apply keeps_ite | with_reducible apply ownLine_keeps | (intros; with_reducible assumption)
    | (intro t x ht) | (intro t ht) | split | dsimp only | with_reducible apply keeps_mk)

theorem beginStep_keeps {M : List Host.Cell → Prop} {z₀ : State} (s : State) (k : Nat) (k₀ : Keeps M z₀ s) : Keeps M z₀ (beginStep s k) :=
    by
  unfold beginStep
  repeat' (first
    | with_reducible assumption | with_reducible apply keeps_ite | with_reducible apply portEnable_keeps
    | with_reducible apply beginJoin_keeps | with_reducible apply keeps_foldl | (intros; with_reducible assumption) | (intro t x ht)
    | (intro t ht) | split | dsimp only | with_reducible apply keeps_mk)

theorem goToStep_keeps {M : List Host.Cell → Prop} {z₀ : State} (s : State) (k : Nat) (k₀ : Keeps M z₀ s) : Keeps M z₀ (goToStep s k) := by
  unfold goToStep
  repeat' (first
    | with_reducible assumption | with_reducible apply keeps_ite | with_reducible apply beginStep_keeps
    | (intros; with_reducible assumption) | (intro t x ht) | (intro t ht) | split | dsimp only | with_reducible apply keeps_mk)

theorem stepDone_keeps {M : List Host.Cell → Prop} {z₀ : State} (s : State) (k code : Nat) (k₀ : Keeps M z₀ s) : Keeps M z₀ (stepDone s k
    code) := by
  unfold stepDone
  repeat' (first
    | with_reducible assumption | with_reducible apply keeps_ite | with_reducible apply wrF_keeps | with_reducible apply writeRecord_keeps
    | with_reducible apply goToStep_keeps | (intros; with_reducible assumption) | (intro t x ht) | (intro t ht) | split | dsimp only
    | with_reducible apply keeps_mk)

theorem countAttempt_keeps {M : List Host.Cell → Prop} {z₀ : State} (s : State) (k : Nat) (k₀ : Keeps M z₀ s) : Keeps M z₀ (countAttempt s
    k) := by
  unfold countAttempt
  repeat' (first
    | with_reducible assumption | with_reducible apply keeps_ite | with_reducible apply wrF_keeps | (intros; with_reducible assumption)
    | (intro t x ht) | (intro t ht) | split | dsimp only | with_reducible apply keeps_mk)

theorem noteFailed_keeps {M : List Host.Cell → Prop} {z₀ : State} (s : State) (k : Nat) (k₀ : Keeps M z₀ s) : Keeps M z₀ (noteFailed s k)
    := by
  unfold noteFailed
  repeat' (first
    | with_reducible assumption | with_reducible apply keeps_ite | with_reducible apply wrF_keeps | (intros; with_reducible assumption)
    | (intro t x ht) | (intro t ht) | split | dsimp only | with_reducible apply keeps_mk)

theorem attemptStep_keeps {M : List Host.Cell → Prop} {z₀ : State} (s : State) (k limit : Nat) (bad : Bool) (act : State → State × Nat) (k₀
    : Keeps M z₀ s)
    (h : ∀ t, Keeps M z₀ t → Keeps M z₀ (act t).1) : Keeps M z₀ (attemptStep s k limit bad act) := by
  have hn := noteFailed_keeps s k k₀
  unfold attemptStep
  generalize noteFailed s k = s' at hn
  split
  · dsimp only
    split
    · exact hn
    · exact stepDone_keeps _ _ _ (h _ hn)
  · exact stepDone_keeps _ _ _ k₀

theorem loseItem_keeps {M : List Host.Cell → Prop} {z₀ : State} (s : State) (key : Nat) (k₀ : Keeps M z₀ s) : Keeps M z₀ (loseItem s key)
    := by
  unfold loseItem
  repeat' (first
    | with_reducible assumption | with_reducible apply keeps_ite | with_reducible apply wr_keeps | with_reducible apply startLine_keeps
    | with_reducible apply keeps_foldl | (intros; with_reducible assumption) | (intro t x ht) | (intro t ht) | split | dsimp only
    | with_reducible apply keeps_mk)

theorem countStart_keeps {M : List Host.Cell → Prop} {z₀ : State} (s : State) (k₀ : Keeps M z₀ s) : Keeps M z₀ (countStart s) := by
  unfold countStart
  repeat' (first
    | with_reducible assumption | with_reducible apply keeps_ite | with_reducible apply wr_keeps | (intros; with_reducible assumption)
    | (intro t x ht) | (intro t ht) | split | dsimp only | with_reducible apply keeps_mk)

theorem keeps_power {M : List Host.Cell → Prop} {z₀ s : State} {g : Power} (k : Keeps M z₀ s) : Keeps M z₀ { s with power := g } := k

theorem startSettle_keeps {M : List Host.Cell → Prop} {z₀ : State} (s : State) (k₀ : Keeps M z₀ s) : Keeps M z₀ (startSettle s) := by
  unfold startSettle
  exact keeps_power (countStart_keeps s k₀)

theorem stepS0_keeps {M : List Host.Cell → Prop} {z₀ : State} (s : State) (rep : StepReport) (k₀ : Keeps M z₀ s) : Keeps M z₀ (stepS0 s rep) := by
  have hs : Keeps M z₀ (if startKind s = 0 then wrF s R_PWR_START PWR_START_KIND KIND_POWER_ON else s) :=
    keeps_ite (wrF_keeps _ _ _ _ k₀) k₀
  unfold stepS0
  generalize (if startKind s = 0 then wrF s R_PWR_START PWR_START_KIND KIND_POWER_ON else s) = s' at hs
  dsimp only
  apply keeps_ite
  · apply attemptStep_keeps _ _ _ _ _ hs
    intro t ht
    exact startSettle_keeps _ (keeps_foldl (fun u x hu => loseItem_keeps _ _ hu) (keeps_ite (startLine_keeps _ _ _ _ ht) (wrB_keeps _ _ _ _ ht)))
  · apply attemptStep_keeps _ _ _ _ _ (startSettle_keeps _ hs)
    intro t ht
    exact ht

theorem voteWord_keeps {M : List Host.Cell → Prop} {z₀ : State} (s : State) (n : Nat) (k₀ : Keeps M z₀ s) : Keeps M z₀ (voteWord s n) := by
  unfold voteWord
  repeat' (first
    | with_reducible assumption | with_reducible apply keeps_ite | with_reducible apply wrF_keeps | with_reducible apply countSat_keeps
    | with_reducible apply setIntStat_keeps | (intros; with_reducible assumption) | (intro t x ht) | (intro t ht) | split | dsimp only
    | with_reducible apply keeps_mk)

theorem loadWord_keeps {M : List Host.Cell → Prop} {z₀ : State} (s : State) (n : Nat) (k₀ : Keeps M z₀ s) : Keeps M z₀ (loadWord s n) := by
  unfold loadWord
  repeat' (first
    | with_reducible assumption | with_reducible apply keeps_ite | (intros; with_reducible assumption) | (intro t x ht) | (intro t ht)
    | split | dsimp only | with_reducible apply keeps_mk)

theorem stepS1_keeps {M : List Host.Cell → Prop} {z₀ : State} (s : State) (k₀ : Keeps M z₀ s) : Keeps M z₀ (stepS1 s) := by
  unfold stepS1
  repeat' (first
    | with_reducible assumption | with_reducible apply keeps_ite | with_reducible apply wr_keeps | with_reducible apply stepDone_keeps
    | with_reducible apply voteWord_keeps | with_reducible apply loadWord_keeps | with_reducible apply keeps_foldl
    | (intros; with_reducible assumption) | (intro t x ht) | (intro t ht) | split | dsimp only | with_reducible apply keeps_mk)

theorem noteSuspect_keeps {M : List Host.Cell → Prop} {z₀ : State} (s : State) (u : Nat) (k₀ : Keeps M z₀ s) : Keeps M z₀ (noteSuspect s u)
    := by
  unfold noteSuspect
  repeat' (first
    | with_reducible assumption | with_reducible apply keeps_ite | with_reducible apply wr_keeps | with_reducible apply wrB_keeps
    | (intros; with_reducible assumption) | (intro t x ht) | (intro t ht) | split | dsimp only | with_reducible apply keeps_mk)

theorem resolveS2_keeps {M : List Host.Cell → Prop} {z₀ : State} (failing : List Nat) (r : State × Nat) (u : Nat) (k₀ : Keeps M z₀ r.1) :
    Keeps M z₀ (resolveS2 failing r u).1 := by
  unfold resolveS2
  repeat' (first
    | with_reducible assumption | with_reducible apply keeps_ite | with_reducible apply setSpare_keeps
    | with_reducible apply setSpareState_keeps | with_reducible apply startLine_keeps | (intros; with_reducible assumption)
    | (intro t x ht) | (intro t ht) | split | dsimp only | with_reducible apply keeps_mk)

theorem stepS2_keeps {M : List Host.Cell → Prop} {z₀ : State} (s : State) (rep : StepReport) (k₀ : Keeps M z₀ s) : Keeps M z₀ (stepS2 s rep) := by
  have hs : Keeps M z₀ ((badUnits s rep).foldl noteSuspect s) := keeps_foldl (fun t x h => noteSuspect_keeps t x h) k₀
  unfold stepS2
  dsimp only
  generalize (badUnits s rep).foldl noteSuspect s = s' at hs
  apply attemptStep_keeps
  · exact hs
  · intro t ht
    apply keeps_foldlP (p := Prod.fst)
    · intro r x hr; exact resolveS2_keeps _ r x hr
    · exact ht

theorem stepS3_keeps {M : CellProp} {z₀ : State} (s : State) (k₀ : Keeps M.holds z₀ s) : Keeps M.holds z₀ (stepS3 s) := by
  unfold stepS3
  repeat' (first
    | with_reducible assumption | with_reducible apply keeps_ite | with_reducible apply wrB_keeps | with_reducible apply clearUnit_keeps
    | with_reducible apply stepDone_keeps | with_reducible apply keeps_foldl | (intros; with_reducible assumption) | (intro t x ht)
    | (intro t ht) | split | dsimp only | with_reducible apply keeps_mk)

theorem recordLine_keeps {M : List Host.Cell → Prop} {z₀ : State} (s : State) (unit : Nat) (l : Nat × Nat) (k₀ : Keeps M z₀ s) : Keeps M z₀
    (recordLine s unit l) := by
  unfold recordLine
  repeat' (first
    | with_reducible assumption | with_reducible apply keeps_ite | with_reducible apply wr_keeps | with_reducible apply addSat_keeps
    | (intros; with_reducible assumption) | (intro t x ht) | (intro t ht) | split | dsimp only | with_reducible apply keeps_mk)

theorem recordOpenLines_keeps {M : List Host.Cell → Prop} {z₀ : State} (s : State) (k₀ : Keeps M z₀ s) : Keeps M z₀ (recordOpenLines s) :=
    by
  unfold recordOpenLines
  repeat' (first
    | with_reducible assumption | with_reducible apply keeps_ite | with_reducible apply recordLine_keeps | with_reducible apply keeps_foldl
    | (intros; with_reducible assumption) | (intro t x ht) | (intro t ht) | split | dsimp only | with_reducible apply keeps_mk)

theorem remapLineAtStart_keeps {M : List Host.Cell → Prop} {z₀ : State} (s : State) (unit line : Nat) (k₀ : Keeps M z₀ s) : Keeps M z₀
    (remapLineAtStart s unit line) := by
  unfold remapLineAtStart
  repeat' (first
    | with_reducible assumption | with_reducible apply keeps_ite | with_reducible apply startRemap_keeps
    | with_reducible apply remapDone_keeps | (intros; with_reducible assumption) | (intro t x ht) | (intro t ht) | split | dsimp only
    | with_reducible apply keeps_mk)

theorem remapAtStart_keeps {M : List Host.Cell → Prop} {z₀ : State} (s : State) (unit : Nat) (l : Nat × Nat) (k₀ : Keeps M z₀ s) : Keeps M
    z₀ (remapAtStart s unit l) := by
  unfold remapAtStart
  repeat' (first
    | with_reducible assumption | with_reducible apply keeps_ite | with_reducible apply wrF_keeps | with_reducible apply addSat_keeps
    | with_reducible apply remapLineAtStart_keeps | (intros; with_reducible assumption) | (intro t x ht) | (intro t ht) | split
    | dsimp only | with_reducible apply keeps_mk)

theorem resolveS4_keeps {M : List Host.Cell → Prop} {z₀ : State} (r : State × Nat × Bool) (u : Nat) (k₀ : Keeps M z₀ r.1) : Keeps M z₀
    (resolveS4 r u).1 := by
  unfold resolveS4
  repeat' (first
    | with_reducible assumption | with_reducible apply keeps_ite | with_reducible apply setSpare_keeps
    | with_reducible apply setSpareState_keeps | with_reducible apply startLine_keeps | with_reducible apply remapAtStart_keeps
    | with_reducible apply keeps_foldl | (intros; with_reducible assumption) | (intro t x ht) | (intro t ht) | split | dsimp only
    | with_reducible apply keeps_mk)

theorem noteCells_keeps {M : List Host.Cell → Prop} {z₀ : State} (s : State) (cs : List (Nat × Nat × Nat)) (k₀ : Keeps M z₀ s) : Keeps M z₀
    (noteCells s cs) := by
  unfold noteCells
  repeat' (first
    | with_reducible assumption | with_reducible apply keeps_ite | (intros; with_reducible assumption) | (intro t x ht) | (intro t ht)
    | split | dsimp only | with_reducible apply keeps_mk)

theorem stepS4_keeps {M : CellProp} {z₀ : State} (s : State) (rep : StepReport) (k₀ : Keeps M.holds z₀ s) : Keeps M.holds z₀ (stepS4 s rep) := by
  have h0 := noteCells_keeps s rep.badCells k₀
  unfold stepS4
  extract_lets s0 units failing spares
  have hs : ∀ l : List Nat, Keeps M.holds z₀ (l.foldl resolveS4 (s0, 0, false)).1 := fun l =>
    keeps_foldlP (fun r => r.1) (fun r x hr => resolveS4_keeps r x hr) h0
  generalize (spares ++ failing.filter (fun u => !spares.contains u)) = l
  have hu := hs l
  generalize l.foldl resolveS4 (s0, 0, false) = r at hu ⊢
  obtain ⟨s', code, bad⟩ := r
  have hf : Keeps M.holds z₀ (units.foldl fgClear s') := keeps_foldl (fun t x h => fgClear_keeps t x h) hu
  dsimp only
  generalize units.foldl fgClear s' = s'' at hf ⊢
  have hp : ∀ g, Keeps M.holds z₀ { s'' with power := g } := fun g => keeps_power hf
  split
  · apply attemptStep_keeps _ _ _ _ _ (hp _)
    intro t ht
    apply startLine_keeps
    apply keeps_foldl _ ht
    intro u x hx
    apply keeps_foldl _ hx
    intro u' x' hx'
    exact recordLine_keeps _ _ _ hx'
  · exact stepDone_keeps _ _ _ (hp _)

theorem applyEntry_keeps {M : CellProp} {z₀ : State} (s : State) (u k : Nat) (k₀ : Keeps M.holds z₀ s) : Keeps M.holds z₀ (applyEntry s u
    k) := by
  unfold applyEntry
  repeat' (first
    | with_reducible assumption | with_reducible apply keeps_ite | with_reducible apply remapCopyNow_keeps
    | (intros; with_reducible assumption) | (intro t x ht) | (intro t ht) | split | dsimp only | with_reducible apply keeps_mk)

theorem settleSpare_keeps {M : List Host.Cell → Prop} {z₀ : State} (s : State) (i : Nat) (k₀ : Keeps M z₀ s) : Keeps M z₀ (settleSpare s i)
    := by
  unfold settleSpare
  repeat' (first
    | with_reducible assumption | with_reducible apply keeps_ite | with_reducible apply setSpare_keeps
    | with_reducible apply setSpareState_keeps | with_reducible apply keeps_foldl | (intros; with_reducible assumption) | (intro t x ht)
    | (intro t ht) | split | dsimp only | with_reducible apply keeps_mk)

theorem stepS5_keeps {M : CellProp} {z₀ : State} (s : State) (k₀ : Keeps M.holds z₀ s) : Keeps M.holds z₀ (stepS5 s) := by
  unfold stepS5
  repeat' (first
    | with_reducible assumption | with_reducible apply keeps_ite | with_reducible apply wrF_keeps | with_reducible apply recountFree_keeps
    | with_reducible apply stepDone_keeps | with_reducible apply applyEntry_keeps | with_reducible apply settleSpare_keeps
    | with_reducible apply keeps_foldl | (intros; with_reducible assumption) | (intro t x ht) | (intro t ht) | split | dsimp only
    | with_reducible apply keeps_mk)

theorem stepS6_keeps {M : CellProp} {z₀ : State} (s : State) (k₀ : Keeps M.holds z₀ s) : Keeps M.holds z₀ (stepS6 s) := by
  unfold stepS6
  repeat' (first
    | with_reducible assumption | with_reducible apply keeps_ite | with_reducible apply wr_keeps | with_reducible apply clearSemStore_keeps
    | with_reducible apply clearMbxStore_keeps | with_reducible apply stepDone_keeps | with_reducible apply keeps_foldl
    | (intros; with_reducible assumption) | (intro t x ht) | (intro t ht) | split | dsimp only | with_reducible apply keeps_mk)

theorem stepS7_keeps {M : List Host.Cell → Prop} {z₀ : State} (s : State) (rep : StepReport) (k₀ : Keeps M z₀ s) : Keeps M z₀ (stepS7 s rep) := by
  unfold stepS7
  dsimp only
  apply attemptStep_keeps _ _ _ _ _ k₀
  intro t ht
  dsimp only
  apply keeps_foldl _ ht
  intro u x hu
  exact startLine_keeps _ _ _ _ hu

theorem dropPort_keeps {M : List Host.Cell → Prop} {z₀ : State} (s : State) (p : Nat) (k₀ : Keeps M z₀ s) : Keeps M z₀ (dropPort s p) := by
  unfold dropPort
  repeat' (first
    | with_reducible assumption | with_reducible apply keeps_ite | (intros; with_reducible assumption) | (intro t x ht) | (intro t ht)
    | split | dsimp only | with_reducible apply keeps_mk)

theorem endS8_keeps {M : List Host.Cell → Prop} {z₀ : State} (s : State) (k₀ : Keeps M z₀ s) : Keeps M z₀ (endS8 s) := by
  unfold endS8
  repeat' (first
    | with_reducible assumption | with_reducible apply keeps_ite | with_reducible apply startLine_keeps
    | with_reducible apply stepDone_keeps | with_reducible apply noteFailed_keeps | with_reducible apply dropPort_keeps
    | with_reducible apply keeps_foldl | (intros; with_reducible assumption) | (intro t x ht) | (intro t ht) | split | dsimp only
    | with_reducible apply keeps_mk)

theorem stepS9_keeps {M : List Host.Cell → Prop} {z₀ : State} (s : State) (k₀ : Keeps M z₀ s) : Keeps M z₀ (stepS9 s) := by
  unfold stepS9
  repeat' (first
    | with_reducible assumption | with_reducible apply keeps_ite | with_reducible apply enterSolo_keeps
    | with_reducible apply skipJoin_keeps | with_reducible apply startLine_keeps | with_reducible apply stepDone_keeps
    | (intros; with_reducible assumption) | (intro t x ht) | (intro t ht) | split | dsimp only | with_reducible apply keeps_mk)

theorem stepS10_keeps {M : List Host.Cell → Prop} {z₀ : State} (s : State) (rep : StepReport) (k₀ : Keeps M z₀ s) : Keeps M z₀ (stepS10 s
    rep) := by
  unfold stepS10
  repeat' (first
    | with_reducible assumption | with_reducible apply keeps_ite | with_reducible apply wr_keeps | with_reducible apply setEngState_keeps
    | with_reducible apply startLine_keeps | with_reducible apply stepDone_keeps | with_reducible apply noteFailed_keeps
    | with_reducible apply keeps_foldl | (intros; with_reducible assumption) | (intro t x ht) | (intro t ht) | split | dsimp only
    | with_reducible apply keeps_mk)

theorem stepS11_keeps {M : List Host.Cell → Prop} {z₀ : State} (s : State) (k₀ : Keeps M z₀ s) : Keeps M z₀ (stepS11 s) := by
  unfold stepS11
  repeat' (first
    | with_reducible assumption | with_reducible apply keeps_ite | with_reducible apply wrB_keeps | with_reducible apply rackResume_keeps
    | with_reducible apply stepDone_keeps | (intros; with_reducible assumption) | (intro t x ht) | (intro t ht) | split | dsimp only
    | with_reducible apply keeps_mk)

theorem runStep_keeps {M : CellProp} {z₀ : State} (s : State) (k : Nat) (rep : StepReport) (k₀ : Keeps M.holds z₀ s) : Keeps M.holds z₀
    (runStep s k rep) := by
  unfold runStep
  repeat' (first
    | with_reducible assumption | with_reducible apply keeps_ite | with_reducible apply countAttempt_keeps
    | with_reducible apply stepS0_keeps | with_reducible apply stepS1_keeps | with_reducible apply stepS2_keeps
    | with_reducible apply stepS3_keeps | with_reducible apply stepS4_keeps | with_reducible apply stepS5_keeps
    | with_reducible apply stepS6_keeps | with_reducible apply stepS7_keeps | with_reducible apply endS8_keeps
    | with_reducible apply stepS9_keeps | with_reducible apply stepS10_keeps | with_reducible apply stepS11_keeps
    | (intros; with_reducible assumption) | (intro t x ht) | (intro t ht) | split | dsimp only | with_reducible apply keeps_mk)

theorem execStartStep_keeps {M : CellProp} {z₀ : State} (rep : StepReport) (s : State) (k₀ : Keeps M.holds z₀ s) : Answers M.holds z₀
    (execStartStep rep s) := by
  unfold execStartStep
  repeat' (first
    | with_reducible assumption | with_reducible apply answers_next | with_reducible apply answers_ite | with_reducible apply keeps_ite
    | with_reducible apply deviceReset_keeps | with_reducible apply runStep_keeps | (intros; with_reducible assumption) | (intro t x ht)
    | (intro t ht) | split | dsimp only | with_reducible apply keeps_mk)

theorem execS4Timeout_keeps {M : List Host.Cell → Prop} {z₀ : State} (s : State) (k₀ : Keeps M z₀ s) : Answers M z₀ (execS4Timeout s) := by
  unfold execS4Timeout
  repeat' (first
    | with_reducible assumption | with_reducible apply answers_next | with_reducible apply answers_ite | with_reducible apply keeps_ite
    | with_reducible apply startLine_keeps | with_reducible apply countAttempt_keeps | with_reducible apply attemptStep_keeps
    | with_reducible apply recordOpenLines_keeps | (intros; with_reducible assumption) | (intro t x ht) | (intro t ht) | split
    | dsimp only | with_reducible apply keeps_mk)

theorem execS8Timeout_keeps {M : List Host.Cell → Prop} {z₀ : State} (s : State) (k₀ : Keeps M z₀ s) : Answers M z₀ (execS8Timeout s) := by
  unfold execS8Timeout
  repeat' (first
    | with_reducible assumption | with_reducible apply answers_next | with_reducible apply answers_ite | with_reducible apply keeps_ite
    | with_reducible apply countAttempt_keeps | with_reducible apply endS8_keeps | (intros; with_reducible assumption) | (intro t x ht)
    | (intro t ht) | split | dsimp only | with_reducible apply keeps_mk)

theorem execS9Timeout_keeps {M : List Host.Cell → Prop} {z₀ : State} (s : State) (k₀ : Keeps M z₀ s) : Answers M z₀ (execS9Timeout s) := by
  unfold execS9Timeout
  repeat' (first
    | with_reducible assumption | with_reducible apply answers_next | with_reducible apply answers_ite | with_reducible apply keeps_ite
    | with_reducible apply skipJoin_keeps | with_reducible apply startLine_keeps | with_reducible apply stepDone_keeps
    | with_reducible apply countAttempt_keeps | with_reducible apply noteFailed_keeps | (intros; with_reducible assumption)
    | (intro t x ht) | (intro t ht) | split | dsimp only | with_reducible apply keeps_mk)

theorem execHoldEnd_keeps {M : List Host.Cell → Prop} {z₀ : State} (minMv : BitVec 16) (s : State) (k₀ : Keeps M z₀ s) : Answers M z₀
    (execHoldEnd minMv s) := by
  unfold execHoldEnd
  repeat' (first
    | with_reducible assumption | with_reducible apply answers_next | with_reducible apply answers_ite | with_reducible apply keeps_ite
    | with_reducible apply wrF_keeps | with_reducible apply wrB_keeps | with_reducible apply addSat_keeps
    | with_reducible apply beginStep_keeps | (intros; with_reducible assumption) | (intro t x ht) | (intro t ht) | split | dsimp only
    | with_reducible apply keeps_mk)

end Sys2Proof.Machine
end

