-- ==== Sys2Proof/Laws/KeepsRequests.lean ====
section
/-! SUPPORT. One lemma for each operation and each meaning of the register file, the requests and the FLITs:
it leaves the variant, device time and the queue of commands alone and keeps the canonical form of the memory; a meaning always answers
a next state. -/

namespace Sys2Proof.Machine

/-! ### RegFile -/

theorem voteTk_keeps {M : List Host.Cell → Prop} {z₀ : State} (s : State) (key : Nat) (k₀ : Keeps M z₀ s) : Keeps M z₀ (voteTk s key) := by
  unfold voteTk
  repeat' (first
    | with_reducible assumption | with_reducible apply keeps_ite | with_reducible apply voteWord_keeps
    | (intros; with_reducible assumption) | (intro t x ht) | (intro t ht) | split | dsimp only | with_reducible apply keeps_mk)

theorem mbxCtlFound_keeps {M : List Host.Cell → Prop} {z₀ : State} (s : State) (who : Who) (n : Nat) (d : Decoded) (w : Word64) (k₀ : Keeps
    M z₀ s) : Keeps M z₀ (mbxCtlFound s who n d w).2.2 := by
  unfold mbxCtlFound
  repeat' (first
    | with_reducible assumption | with_reducible apply keeps_ite | with_reducible apply storeFinding_keeps
    | (intros; with_reducible assumption) | (intro t x ht) | (intro t ht) | split | dsimp only | with_reducible apply keeps_mk)

theorem readMbxCtl_keeps {M : List Host.Cell → Prop} {z₀ : State} (s : State) (who : Who) (key : Nat) (k₀ : Keeps M z₀ s) : Keeps M z₀
    (readMbxCtl s who key).2.2 := by
  unfold readMbxCtl
  repeat' (first
    | with_reducible assumption | with_reducible apply keeps_ite | with_reducible apply bumpFree_keeps
    | with_reducible apply mbxCtlFound_keeps | (intros; with_reducible assumption) | (intro t x ht) | (intro t ht) | split | dsimp only
    | with_reducible apply keeps_mk)

theorem readStep_keeps {M : List Host.Cell → Prop} {z₀ : State} (s : State) (who : Who) (key : Nat) (k₀ : Keeps M z₀ s) : Keeps M z₀
    (readStep s who key).2.2 := by
  unfold readStep
  repeat' (first
    | with_reducible assumption | with_reducible apply keeps_ite | with_reducible apply claimTarget_keeps
    | with_reducible apply voteTk_keeps | with_reducible apply readMbxCtl_keeps | (intros; with_reducible assumption) | (intro t x ht)
    | (intro t ht) | split | dsimp only | with_reducible apply keeps_mk)

theorem wrPtCtl_keeps {M : List Host.Cell → Prop} {z₀ : State} (s : State) (p : Nat) (v : Word64) (k₀ : Keeps M z₀ s) : Keeps M z₀ (wrPtCtl
    s p v).state := by
  unfold wrPtCtl
  repeat' (first
    | with_reducible assumption | with_reducible apply keeps_ite | with_reducible apply wr_keeps | with_reducible apply wrF_keeps
    | with_reducible apply plainWrite_keeps | with_reducible apply noteCleared_keeps | with_reducible apply accepted_keeps
    | with_reducible apply refusedWith_keeps | with_reducible apply keeps_foldl | (intros; with_reducible assumption) | (intro t x ht)
    | (intro t ht) | split | dsimp only | with_reducible apply keeps_mk)

theorem wrArbSetting_keeps {M : List Host.Cell → Prop} {z₀ : State} (s : State) (key : Nat) (v : Word64) (k₀ : Keeps M z₀ s) : Keeps M z₀
    (wrArbSetting s key v) := by
  unfold wrArbSetting
  repeat' (first
    | with_reducible assumption | with_reducible apply keeps_ite | with_reducible apply plainWrite_keeps
    | (intros; with_reducible assumption) | (intro t x ht) | (intro t ht) | split | dsimp only | with_reducible apply keeps_mk)

theorem wrArbCtl_keeps {M : List Host.Cell → Prop} {z₀ : State} (s : State) (v : Word64) (k₀ : Keeps M z₀ s) : Keeps M z₀ (wrArbCtl s v) :=
    by
  unfold wrArbCtl
  repeat' (first
    | with_reducible assumption | with_reducible apply keeps_ite | with_reducible apply wr_keeps | with_reducible apply noteCleared_keeps
    | with_reducible apply keeps_foldl | (intros; with_reducible assumption) | (intro t x ht) | (intro t ht) | split | dsimp only
    | with_reducible apply keeps_mk)

theorem wrMbxCtl_keeps {M : List Host.Cell → Prop} {z₀ : State} (s : State) (key : Nat) (v : Word64) (k₀ : Keeps M z₀ s) : Keeps M z₀
    (wrMbxCtl s key v).state := by
  unfold wrMbxCtl
  repeat' (first
    | with_reducible assumption | with_reducible apply keeps_ite | with_reducible apply plainWrite_keeps
    | (intros; with_reducible assumption) | (intro t x ht) | (intro t ht) | split | dsimp only | with_reducible apply keeps_mk)

theorem wrCelCtl_keeps {M : List Host.Cell → Prop} {z₀ : State} (s : State) (v : Word64) (k₀ : Keeps M z₀ s) : Keeps M z₀ (wrCelCtl s
    v).state := by
  unfold wrCelCtl
  repeat' (first
    | with_reducible assumption | with_reducible apply keeps_ite | with_reducible apply plainWrite_keeps
    | with_reducible apply accepted_keeps | with_reducible apply refusedWith_keeps | (intros; with_reducible assumption) | (intro t x ht)
    | (intro t ht) | split | dsimp only | with_reducible apply keeps_mk)

theorem wrMgPorten_keeps {M : List Host.Cell → Prop} {z₀ : State} (s : State) (v : Word64) (k₀ : Keeps M z₀ s) : Keeps M z₀ (wrMgPorten s
    v) := by
  unfold wrMgPorten
  repeat' (first
    | with_reducible assumption | with_reducible apply keeps_ite | with_reducible apply plainWrite_keeps
    | with_reducible apply portEnable_keeps | with_reducible apply keeps_foldl | (intros; with_reducible assumption) | (intro t x ht)
    | (intro t ht) | split | dsimp only | with_reducible apply keeps_mk)

theorem wrMgmt_keeps {M : List Host.Cell → Prop} {z₀ : State} (s : State) (key : Nat) (v : Word64) (k₀ : Keeps M z₀ s) : Keeps M z₀ (wrMgmt
    s key v).state := by
  unfold wrMgmt
  repeat' (first
    | with_reducible assumption | with_reducible apply keeps_ite | with_reducible apply wr_keeps | with_reducible apply plainWrite_keeps
    | with_reducible apply noteBefore_keeps | with_reducible apply noteCleared_keeps | with_reducible apply accepted_keeps
    | with_reducible apply refusedWith_keeps | with_reducible apply wrMgPorten_keeps | with_reducible apply keeps_foldl
    | (intros; with_reducible assumption) | (intro t x ht) | (intro t ht) | split | dsimp only | with_reducible apply keeps_mk)

theorem wrLaneBlock_keeps {M : List Host.Cell → Prop} {z₀ : State} (s : State) (key : Nat) (v : Word64) (k₀ : Keeps M z₀ s) : Keeps M z₀
    (wrLaneBlock s key v).state := by
  unfold wrLaneBlock
  repeat' (first
    | with_reducible assumption | with_reducible apply keeps_ite | with_reducible apply plainWrite_keeps
    | with_reducible apply accepted_keeps | with_reducible apply wrLphCtl_keeps | with_reducible apply wrLrxStat_keeps
    | with_reducible apply wrLtxFix_keeps | with_reducible apply wrLnGcfg_keeps | with_reducible apply wrLnGcfg2_keeps
    | with_reducible apply wrLnGctl_keeps | (intros; with_reducible assumption) | (intro t x ht) | (intro t ht) | split | dsimp only
    | with_reducible apply keeps_mk)

theorem wrIntegBlock_keeps {M : List Host.Cell → Prop} {z₀ : State} (s : State) (key : Nat) (v : Word64) (k₀ : Keeps M z₀ s) : Keeps M z₀
    (wrIntegBlock s key v).state := by
  unfold wrIntegBlock
  repeat' (first
    | with_reducible assumption | with_reducible apply keeps_ite | with_reducible apply plainWrite_keeps
    | with_reducible apply accepted_keeps | with_reducible apply wrIntCtl_keeps | with_reducible apply wrIntInject_keeps
    | with_reducible apply wrIntScrubCfg_keeps | with_reducible apply wrIntHfCfg_keeps | (intros; with_reducible assumption)
    | (intro t x ht) | (intro t ht) | split | dsimp only | with_reducible apply keeps_mk)

theorem wrTestBlock_keeps {M : List Host.Cell → Prop} {z₀ : State} (s : State) (key : Nat) (v : Word64) (k₀ : Keeps M z₀ s) : Keeps M z₀
    (wrTestBlock s key v).state := by
  unfold wrTestBlock
  repeat' (first
    | with_reducible assumption | with_reducible apply keeps_ite | with_reducible apply plainWrite_keeps
    | with_reducible apply accepted_keeps | with_reducible apply wrTstBg_keeps | with_reducible apply wrTstCmd_keeps
    | with_reducible apply wrTstCtl_keeps | with_reducible apply wrTstResult_keeps | with_reducible apply wrRmpCmd_keeps
    | with_reducible apply wrRetCmd_keeps | with_reducible apply wrTstEng_keeps | (intros; with_reducible assumption) | (intro t x ht)
    | (intro t ht) | split | dsimp only | with_reducible apply keeps_mk)

theorem wrEngBlock_keeps {M : List Host.Cell → Prop} {z₀ : State} (s : State) (key : Nat) (v : Word64) (k₀ : Keeps M z₀ s) : Keeps M z₀
    (wrEngBlock s key v).state := by
  unfold wrEngBlock
  repeat' (first
    | with_reducible assumption | with_reducible apply keeps_ite | with_reducible apply plainWrite_keeps
    | with_reducible apply accepted_keeps | with_reducible apply wrEngCtl_keeps | with_reducible apply wrQRing_keeps
    | with_reducible apply wrQHead_keeps | with_reducible apply wrQTail_keeps | with_reducible apply wrQCfg_keeps
    | with_reducible apply wrQCtl_keeps | (intros; with_reducible assumption) | (intro t x ht) | (intro t ht) | split | dsimp only
    | with_reducible apply keeps_mk)

theorem wrMatchBlock_keeps {M : List Host.Cell → Prop} {z₀ : State} (s : State) (key : Nat) (v : Word64) (k₀ : Keeps M z₀ s) : Keeps M z₀
    (wrMatchBlock s key v).state := by
  unfold wrMatchBlock
  repeat' (first
    | with_reducible assumption | with_reducible apply keeps_ite | with_reducible apply plainWrite_keeps
    | with_reducible apply accepted_keeps | with_reducible apply wrMcCtl_keeps | with_reducible apply wrMcArea_keeps
    | with_reducible apply wrMcGctl_keeps | (intros; with_reducible assumption) | (intro t x ht) | (intro t ht) | split | dsimp only
    | with_reducible apply keeps_mk)

theorem wrTgtBlock_keeps {M : List Host.Cell → Prop} {z₀ : State} (s : State) (key : Nat) (v : Word64) (k₀ : Keeps M z₀ s) : Keeps M z₀
    (wrTgtBlock s key v).state := by
  unfold wrTgtBlock
  repeat' (first
    | with_reducible assumption | with_reducible apply keeps_ite | with_reducible apply accepted_keeps
    | with_reducible apply eoiTarget_keeps | with_reducible apply wrTgtCtl_keeps | (intros; with_reducible assumption) | (intro t x ht)
    | (intro t ht) | split | dsimp only | with_reducible apply keeps_mk)

theorem wrPwrBlock_keeps {M : List Host.Cell → Prop} {z₀ : State} (s : State) (key : Nat) (v : Word64) (k₀ : Keeps M z₀ s) : Keeps M z₀
    (wrPwrBlock s key v).state := by
  unfold wrPwrBlock
  repeat' (first
    | with_reducible assumption | with_reducible apply keeps_ite | with_reducible apply plainWrite_keeps
    | with_reducible apply accepted_keeps | with_reducible apply wrPwrRegion_keeps | with_reducible apply wrPwrCtl_keeps
    | with_reducible apply wrPwrStart_keeps | with_reducible apply wrPwrReset_keeps | (intros; with_reducible assumption)
    | (intro t x ht) | (intro t ht) | split | dsimp only | with_reducible apply keeps_mk)

theorem wrPairBlock_keeps {M : List Host.Cell → Prop} {z₀ : State} (s : State) (key : Nat) (v : Word64) (k₀ : Keeps M z₀ s) : Keeps M z₀
    (wrPairBlock s key v).state := by
  unfold wrPairBlock
  repeat' (first
    | with_reducible assumption | with_reducible apply keeps_ite | with_reducible apply plainWrite_keeps
    | with_reducible apply accepted_keeps | with_reducible apply wrPrRole_keeps | with_reducible apply wrPrMirror_keeps
    | with_reducible apply wrPrCfg_keeps | with_reducible apply wrPrCmd_keeps | (intros; with_reducible assumption) | (intro t x ht)
    | (intro t ht) | split | dsimp only | with_reducible apply keeps_mk)

theorem wrObsBlock_keeps {M : List Host.Cell → Prop} {z₀ : State} (s : State) (key : Nat) (v : Word64) (k₀ : Keeps M z₀ s) : Keeps M z₀
    (wrObsBlock s key v).state := by
  unfold wrObsBlock
  repeat' (first
    | with_reducible assumption | with_reducible apply keeps_ite | with_reducible apply plainWrite_keeps
    | with_reducible apply accepted_keeps | with_reducible apply wrPcCfg_keeps | with_reducible apply wrPcGctl_keeps
    | with_reducible apply wrSmpCtl_keeps | with_reducible apply wrSmpIdx_keeps | with_reducible apply wrTrIdx_keeps
    | with_reducible apply wrTrCtl_keeps | with_reducible apply wrTrAddr_keeps | with_reducible apply wrCelCtl_keeps
    | (intros; with_reducible assumption) | (intro t x ht) | (intro t ht) | split | dsimp only | with_reducible apply keeps_mk)

theorem regWrite_keeps {M : List Host.Cell → Prop} {z₀ : State} (s : State) (key : Nat) (v : Word64) (hs : Keeps M z₀ s) : Keeps M z₀
    (regWrite s key v).state := by
  unfold regWrite
  dsimp only
  generalize key / 0x10000 = block
  have hp : Keeps M z₀ (accepted (plainWrite s key v)).state := plainWrite_keeps hs
  split
  · split
    · exact wrPtCtl_keeps _ _ _ hs
    · exact hp
  · split
    · exact wrLaneBlock_keeps _ _ _ hs
    · split
      · exact wrArbCtl_keeps _ _ hs
      · split
        · exact wrArbSetting_keeps _ _ _ hs
        · exact hp
    · exact wrIntegBlock_keeps _ _ _ hs
    · exact wrTestBlock_keeps _ _ _ hs
    · split
      · exact wrSemClear_keeps _ _ hs
      · split
        · exact wrSemCtl_keeps _ _ hs
        · exact hp
    · split
      · split
        · exact refusedWith_keeps _ _ hs
        · exact wrMbxClear_keeps _ _ hs
      · split
        · exact wrMbxGctl_keeps _ _ hs
        · split
          · exact wrMbxCtl_keeps _ _ _ hs
          · exact hp
    · split
      · exact wrVatCtl_keeps _ _ _ hs
      · exact wrVatOther_keeps _ _ _ hs
    · exact wrEngBlock_keeps _ _ _ hs
    · exact wrMatchBlock_keeps _ _ _ hs
    · exact wrSrcEntry_keeps _ _ _ hs
    · exact wrTgtBlock_keeps _ _ _ hs
    · exact wrPwrBlock_keeps _ _ _ hs
    · exact wrPairBlock_keeps _ _ _ hs
    · exact wrMgmt_keeps _ _ _ hs
    · exact wrObsBlock_keeps _ _ _ hs
    · exact hp

theorem countRegDenied_keeps {M : List Host.Cell → Prop} {z₀ : State} (s : State) (r : Req) (k₀ : Keeps M z₀ s) : Keeps M z₀
    (countRegDenied s r) := by
  unfold countRegDenied
  repeat' (first
    | with_reducible assumption | with_reducible apply keeps_ite | with_reducible apply addSat_keeps | (intros; with_reducible assumption)
    | (intro t x ht) | (intro t ht) | split | dsimp only | with_reducible apply keeps_mk)

theorem traceReg_keeps {M : List Host.Cell → Prop} {z₀ : State} (s : State) (r : Req) (st : Status) (data : List Byte) (k₀ : Keeps M z₀ s)
    : Keeps M z₀ (traceReg s r st data) := by
  unfold traceReg
  repeat' (first
    | with_reducible assumption | with_reducible apply keeps_ite | with_reducible apply trace_keeps | (intros; with_reducible assumption)
    | (intro t x ht) | (intro t ht) | split | dsimp only | with_reducible apply keeps_mk)

theorem settlePost_keeps {M : List Host.Cell → Prop} {z₀ : State} (s : State) (p : Post) (ds : List Deferred) (k₀ : Keeps M z₀ s) : Keeps M
    z₀ (settlePost s p ds) := by
  unfold settlePost
  repeat' (first
    | with_reducible assumption | with_reducible apply keeps_ite | with_reducible apply pairForward_keeps
    | with_reducible apply forwardVat_keeps | (intros; with_reducible assumption) | (intro t x ht) | (intro t ht) | split | dsimp only
    | with_reducible apply keeps_mk)

theorem serveReg_keeps {M : List Host.Cell → Prop} {z₀ : State} (s : State) (r : Req) (uid : Nat) (k₀ : Keeps M z₀ s) : Keeps M z₀
    (serveReg s r uid) := by
  unfold serveReg
  repeat' (first
    | with_reducible assumption | with_reducible apply keeps_ite | with_reducible apply answerPart_keeps
    | with_reducible apply samplePoint_keeps | with_reducible apply readStep_keeps | with_reducible apply regWrite_keeps
    | with_reducible apply traceReg_keeps | with_reducible apply settlePost_keeps | (intros; with_reducible assumption) | (intro t x ht)
    | (intro t ht) | split | dsimp only | with_reducible apply keeps_mk)

theorem intcTake_keeps {M : List Host.Cell → Prop} {z₀ : State} (s : State) (r : Req) (uid : Nat) (k₀ : Keeps M z₀ s) : Keeps M z₀
    (intcTake s r uid) := by
  unfold intcTake
  repeat' (first
    | with_reducible assumption | with_reducible apply keeps_ite | with_reducible apply takeTarget_keeps
    | with_reducible apply takeWrite_keeps | with_reducible apply closeTurn_keeps | with_reducible apply serveReg_keeps
    | (intros; with_reducible assumption) | (intro t x ht) | (intro t ht) | split | dsimp only | with_reducible apply keeps_mk)

theorem intcTakeNext_keeps {M : List Host.Cell → Prop} {z₀ : State} (s : State) (kind : Req → Bool) (k₀ : Keeps M z₀ s) : Keeps M z₀
    (intcTakeNext s kind) := by
  unfold intcTakeNext
  repeat' (first
    | with_reducible assumption | with_reducible apply keeps_ite | with_reducible apply intcTake_keeps
    | (intros; with_reducible assumption) | (intro t x ht) | (intro t ht) | split | dsimp only | with_reducible apply keeps_mk)

theorem intcTakeAll_keeps {M : List Host.Cell → Prop} {z₀ : State} (s : State) (kind : Req → Bool) (n : Nat) (k₀ : Keeps M z₀ s) : Keeps M
    z₀ (intcTakeAll s kind n) := by
  induction n generalizing s with
  | zero => exact k₀
  | succ n ih => exact ih _ (intcTakeNext_keeps s kind k₀)

theorem execIntcCycle_keeps {M : List Host.Cell → Prop} {z₀ : State} (s : State) (k₀ : Keeps M z₀ s) : Answers M z₀ (execIntcCycle s) := by
  unfold execIntcCycle
  repeat' (first
    | with_reducible assumption | with_reducible apply answers_next | with_reducible apply answers_ite | with_reducible apply keeps_ite
    | with_reducible apply turnEvents_keeps | with_reducible apply closeTurn_keeps | with_reducible apply intcTakeNext_keeps
    | with_reducible apply intcTakeAll_keeps | with_reducible apply keeps_foldl | (intros; with_reducible assumption) | (intro t x ht)
    | (intro t ht) | split | dsimp only | with_reducible apply keeps_mk)

theorem enterReg_keeps {M : List Host.Cell → Prop} {z₀ : State} (s : State) (r : Req) (uid : Nat) (k₀ : Keeps M z₀ s) : Keeps M z₀
    (enterReg s r uid) := by
  unfold enterReg
  repeat' (first
    | with_reducible assumption | with_reducible apply keeps_ite | with_reducible apply serveReg_keeps
    | with_reducible apply intcTake_keeps | (intros; with_reducible assumption) | (intro t x ht) | (intro t ht) | split | dsimp only
    | with_reducible apply keeps_mk)

theorem submitReg_keeps {M : List Host.Cell → Prop} {z₀ : State} (s : State) (r : Req) (uid : Nat) (k₀ : Keeps M z₀ s) : Keeps M z₀
    (submitReg s r uid) := by
  unfold submitReg
  repeat' (first
    | with_reducible assumption | with_reducible apply keeps_ite | with_reducible apply refuse_keeps
    | with_reducible apply countRegDenied_keeps | with_reducible apply enterReg_keeps | (intros; with_reducible assumption)
    | (intro t x ht) | (intro t ht) | split | dsimp only | with_reducible apply keeps_mk)

theorem scPost_keeps {M : List Host.Cell → Prop} {z₀ : State} (s : State) (r : Req) (k₀ : Keeps M z₀ s) : Keeps M z₀ (scPost s r) := by
  unfold scPost
  repeat' (first
    | with_reducible assumption | with_reducible apply keeps_ite | with_reducible apply takeUid_keeps
    | with_reducible apply submitReg_keeps | (intros; with_reducible assumption) | (intro t x ht) | (intro t ht) | split | dsimp only
    | with_reducible apply keeps_mk)

/-! ### Request -/

theorem malformed_keeps {M : List Host.Cell → Prop} {z₀ : State} (s : State) (p : Nat) (k₀ : Keeps M z₀ s) : Keeps M z₀ (malformed s p) :=
    by
  unfold malformed
  repeat' (first
    | with_reducible assumption | with_reducible apply keeps_ite | with_reducible apply setLink_keeps | with_reducible apply countSat_keeps
    | (intros; with_reducible assumption) | (intro t x ht) | (intro t ht) | split | dsimp only | with_reducible apply keeps_mk)

theorem passDecode_keeps {M : List Host.Cell → Prop} {z₀ : State} (s : State) (t : Txn) (k₀ : Keeps M z₀ s) : Keeps M z₀ (passDecode s t)
    := by
  unfold passDecode
  repeat' (first
    | with_reducible assumption | with_reducible apply keeps_ite | with_reducible apply settleFences_keeps
    | with_reducible apply submitAccess_keeps | with_reducible apply submitReg_keeps | (intros; with_reducible assumption)
    | (intro t x ht) | (intro t ht) | split | dsimp only | with_reducible apply keeps_mk)

theorem acceptMember_keeps {M : List Host.Cell → Prop} {z₀ : State} (s : State) (p : Nat) (r : Req) (slots : Nat) (k₀ : Keeps M z₀ s) :
    Keeps M z₀ (acceptMember s p r slots) := by
  unfold acceptMember
  repeat' (first
    | with_reducible assumption | with_reducible apply keeps_ite | with_reducible apply wrF_keeps | with_reducible apply takeUid_keeps
    | with_reducible apply occur_keeps | with_reducible apply countWrap_keeps | with_reducible apply sampleAccept_keeps
    | with_reducible apply passDecode_keeps | (intros; with_reducible assumption) | (intro t x ht) | (intro t ht) | split | dsimp only
    | with_reducible apply keeps_mk)

theorem arriveUnit_keeps {M : List Host.Cell → Prop} {z₀ : State} (s : State) (h : ReqHdr) (code addr len : Nat) (mask : BitVec 64) (opfmt
    : Nat) (tally : Bool) (run : Nat) (data : List Byte) (k₀ : Keeps M z₀ s) : Keeps M z₀ (arriveUnit s h code addr len mask opfmt tally run
    data) := by
  unfold arriveUnit
  repeat' (first
    | with_reducible assumption | with_reducible apply keeps_ite | with_reducible apply countSat_keeps
    | with_reducible apply countSlots_keeps | with_reducible apply malformed_keeps | with_reducible apply acceptMember_keeps
    | with_reducible apply keeps_foldl | (intros; with_reducible assumption) | (intro t x ht) | (intro t ht) | split | dsimp only
    | with_reducible apply keeps_mk)

theorem execReadReq_keeps {M : List Host.Cell → Prop} {z₀ : State} (h : ReqHdr) (addr : BitVec 32) (len : BitVec 7) (s : State) (k₀ : Keeps
    M z₀ s) : Answers M z₀ (execReadReq h addr len s) := by
  unfold execReadReq
  repeat' (first
    | with_reducible assumption | with_reducible apply answers_next | with_reducible apply answers_ite | with_reducible apply keeps_ite
    | with_reducible apply arriveUnit_keeps | (intros; with_reducible assumption) | (intro t x ht) | (intro t ht) | split | dsimp only
    | with_reducible apply keeps_mk)

theorem execWriteReq_keeps {M : List Host.Cell → Prop} {z₀ : State} (h : ReqHdr) (addr : BitVec 32) (len : BitVec 7) (mask : BitVec 64)
    (data : List Byte) (s : State) (k₀ : Keeps M z₀ s) : Answers M z₀ (execWriteReq h addr len mask data s) := by
  unfold execWriteReq
  repeat' (first
    | with_reducible assumption | with_reducible apply answers_next | with_reducible apply answers_ite | with_reducible apply keeps_ite
    | with_reducible apply arriveUnit_keeps | (intros; with_reducible assumption) | (intro t x ht) | (intro t ht) | split | dsimp only
    | with_reducible apply keeps_mk)

theorem execReadRun_keeps {M : List Host.Cell → Prop} {z₀ : State} (h : ReqHdr) (addr : BitVec 32) (len : BitVec 7) (run : BitVec 8) (s :
    State) (k₀ : Keeps M z₀ s) : Answers M z₀ (execReadRun h addr len run s) := by
  unfold execReadRun
  repeat' (first
    | with_reducible assumption | with_reducible apply answers_next | with_reducible apply answers_ite | with_reducible apply keeps_ite
    | with_reducible apply arriveUnit_keeps | (intros; with_reducible assumption) | (intro t x ht) | (intro t ht) | split | dsimp only
    | with_reducible apply keeps_mk)

theorem execWriteRun_keeps {M : List Host.Cell → Prop} {z₀ : State} (h : ReqHdr) (addr : BitVec 32) (len : BitVec 7) (run : BitVec 8) (data
    : List Byte) (s : State) (k₀ : Keeps M z₀ s) : Answers M z₀ (execWriteRun h addr len run data s) := by
  unfold execWriteRun
  repeat' (first
    | with_reducible assumption | with_reducible apply answers_next | with_reducible apply answers_ite | with_reducible apply keeps_ite
    | with_reducible apply arriveUnit_keeps | (intros; with_reducible assumption) | (intro t x ht) | (intro t ht) | split | dsimp only
    | with_reducible apply keeps_mk)

theorem execFaddReq_keeps {M : List Host.Cell → Prop} {z₀ : State} (h : ReqHdr) (addr : BitVec 32) (len : BitVec 7) (data : List Byte) (s :
    State) (k₀ : Keeps M z₀ s) : Answers M z₀ (execFaddReq h addr len data s) := by
  unfold execFaddReq
  repeat' (first
    | with_reducible assumption | with_reducible apply answers_next | with_reducible apply answers_ite | with_reducible apply keeps_ite
    | with_reducible apply arriveUnit_keeps | (intros; with_reducible assumption) | (intro t x ht) | (intro t ht) | split | dsimp only
    | with_reducible apply keeps_mk)

theorem execFandReq_keeps {M : List Host.Cell → Prop} {z₀ : State} (h : ReqHdr) (addr : BitVec 32) (len : BitVec 7) (data : List Byte) (s :
    State) (k₀ : Keeps M z₀ s) : Answers M z₀ (execFandReq h addr len data s) := by
  unfold execFandReq
  repeat' (first
    | with_reducible assumption | with_reducible apply answers_next | with_reducible apply answers_ite | with_reducible apply keeps_ite
    | with_reducible apply arriveUnit_keeps | (intros; with_reducible assumption) | (intro t x ht) | (intro t ht) | split | dsimp only
    | with_reducible apply keeps_mk)

theorem execForReq_keeps {M : List Host.Cell → Prop} {z₀ : State} (h : ReqHdr) (addr : BitVec 32) (len : BitVec 7) (data : List Byte) (s :
    State) (k₀ : Keeps M z₀ s) : Answers M z₀ (execForReq h addr len data s) := by
  unfold execForReq
  repeat' (first
    | with_reducible assumption | with_reducible apply answers_next | with_reducible apply answers_ite | with_reducible apply keeps_ite
    | with_reducible apply arriveUnit_keeps | (intros; with_reducible assumption) | (intro t x ht) | (intro t ht) | split | dsimp only
    | with_reducible apply keeps_mk)

theorem execFxorReq_keeps {M : List Host.Cell → Prop} {z₀ : State} (h : ReqHdr) (addr : BitVec 32) (len : BitVec 7) (data : List Byte) (s :
    State) (k₀ : Keeps M z₀ s) : Answers M z₀ (execFxorReq h addr len data s) := by
  unfold execFxorReq
  repeat' (first
    | with_reducible assumption | with_reducible apply answers_next | with_reducible apply answers_ite | with_reducible apply keeps_ite
    | with_reducible apply arriveUnit_keeps | (intros; with_reducible assumption) | (intro t x ht) | (intro t ht) | split | dsimp only
    | with_reducible apply keeps_mk)

theorem execSwapReq_keeps {M : List Host.Cell → Prop} {z₀ : State} (h : ReqHdr) (addr : BitVec 32) (len : BitVec 7) (data : List Byte) (s :
    State) (k₀ : Keeps M z₀ s) : Answers M z₀ (execSwapReq h addr len data s) := by
  unfold execSwapReq
  repeat' (first
    | with_reducible assumption | with_reducible apply answers_next | with_reducible apply answers_ite | with_reducible apply keeps_ite
    | with_reducible apply arriveUnit_keeps | (intros; with_reducible assumption) | (intro t x ht) | (intro t ht) | split | dsimp only
    | with_reducible apply keeps_mk)

theorem execCasReq_keeps {M : List Host.Cell → Prop} {z₀ : State} (h : ReqHdr) (addr : BitVec 32) (len : BitVec 7) (data : List Byte) (s :
    State) (k₀ : Keeps M z₀ s) : Answers M z₀ (execCasReq h addr len data s) := by
  unfold execCasReq
  repeat' (first
    | with_reducible assumption | with_reducible apply answers_next | with_reducible apply answers_ite | with_reducible apply keeps_ite
    | with_reducible apply arriveUnit_keeps | (intros; with_reducible assumption) | (intro t x ht) | (intro t ht) | split | dsimp only
    | with_reducible apply keeps_mk)

theorem execFminsReq_keeps {M : List Host.Cell → Prop} {z₀ : State} (h : ReqHdr) (addr : BitVec 32) (len : BitVec 7) (data : List Byte) (s
    : State) (k₀ : Keeps M z₀ s) : Answers M z₀ (execFminsReq h addr len data s) := by
  unfold execFminsReq
  repeat' (first
    | with_reducible assumption | with_reducible apply answers_next | with_reducible apply answers_ite | with_reducible apply keeps_ite
    | with_reducible apply arriveUnit_keeps | (intros; with_reducible assumption) | (intro t x ht) | (intro t ht) | split | dsimp only
    | with_reducible apply keeps_mk)

theorem execFminuReq_keeps {M : List Host.Cell → Prop} {z₀ : State} (h : ReqHdr) (addr : BitVec 32) (len : BitVec 7) (data : List Byte) (s
    : State) (k₀ : Keeps M z₀ s) : Answers M z₀ (execFminuReq h addr len data s) := by
  unfold execFminuReq
  repeat' (first
    | with_reducible assumption | with_reducible apply answers_next | with_reducible apply answers_ite | with_reducible apply keeps_ite
    | with_reducible apply arriveUnit_keeps | (intros; with_reducible assumption) | (intro t x ht) | (intro t ht) | split | dsimp only
    | with_reducible apply keeps_mk)

theorem execFmaxsReq_keeps {M : List Host.Cell → Prop} {z₀ : State} (h : ReqHdr) (addr : BitVec 32) (len : BitVec 7) (data : List Byte) (s
    : State) (k₀ : Keeps M z₀ s) : Answers M z₀ (execFmaxsReq h addr len data s) := by
  unfold execFmaxsReq
  repeat' (first
    | with_reducible assumption | with_reducible apply answers_next | with_reducible apply answers_ite | with_reducible apply keeps_ite
    | with_reducible apply arriveUnit_keeps | (intros; with_reducible assumption) | (intro t x ht) | (intro t ht) | split | dsimp only
    | with_reducible apply keeps_mk)

theorem execFmaxuReq_keeps {M : List Host.Cell → Prop} {z₀ : State} (h : ReqHdr) (addr : BitVec 32) (len : BitVec 7) (data : List Byte) (s
    : State) (k₀ : Keeps M z₀ s) : Answers M z₀ (execFmaxuReq h addr len data s) := by
  unfold execFmaxuReq
  repeat' (first
    | with_reducible assumption | with_reducible apply answers_next | with_reducible apply answers_ite | with_reducible apply keeps_ite
    | with_reducible apply arriveUnit_keeps | (intros; with_reducible assumption) | (intro t x ht) | (intro t ht) | split | dsimp only
    | with_reducible apply keeps_mk)

theorem execAccReq_keeps {M : List Host.Cell → Prop} {z₀ : State} (h : ReqHdr) (addr : BitVec 32) (len : BitVec 7) (opfmt : BitVec 4)
    (tally : Bool) (data : List Byte) (s : State) (k₀ : Keeps M z₀ s) : Answers M z₀ (execAccReq h addr len opfmt tally data s) := by
  unfold execAccReq
  repeat' (first
    | with_reducible assumption | with_reducible apply answers_next | with_reducible apply answers_ite | with_reducible apply keeps_ite
    | with_reducible apply arriveUnit_keeps | (intros; with_reducible assumption) | (intro t x ht) | (intro t ht) | split | dsimp only
    | with_reducible apply keeps_mk)

theorem execRdcvReq_keeps {M : List Host.Cell → Prop} {z₀ : State} (h : ReqHdr) (addr : BitVec 32) (len : BitVec 7) (s : State) (k₀ : Keeps
    M z₀ s) : Answers M z₀ (execRdcvReq h addr len s) := by
  unfold execRdcvReq
  repeat' (first
    | with_reducible assumption | with_reducible apply answers_next | with_reducible apply answers_ite | with_reducible apply keeps_ite
    | with_reducible apply arriveUnit_keeps | (intros; with_reducible assumption) | (intro t x ht) | (intro t ht) | split | dsimp only
    | with_reducible apply keeps_mk)

theorem execFenceReq_keeps {M : List Host.Cell → Prop} {z₀ : State} (h : ReqHdr) (s : State) (k₀ : Keeps M z₀ s) : Answers M z₀
    (execFenceReq h s) := by
  unfold execFenceReq
  repeat' (first
    | with_reducible assumption | with_reducible apply answers_next | with_reducible apply answers_ite | with_reducible apply keeps_ite
    | with_reducible apply arriveUnit_keeps | (intros; with_reducible assumption) | (intro t x ht) | (intro t ht) | split | dsimp only
    | with_reducible apply keeps_mk)

theorem execMalformedUnit_keeps {M : List Host.Cell → Prop} {z₀ : State} (port : BitVec 3) (s : State) (k₀ : Keeps M z₀ s) : Answers M z₀
    (execMalformedUnit port s) := by
  unfold execMalformedUnit
  repeat' (first
    | with_reducible assumption | with_reducible apply answers_next | with_reducible apply answers_ite | with_reducible apply keeps_ite
    | with_reducible apply malformed_keeps | (intros; with_reducible assumption) | (intro t x ht) | (intro t ht) | split | dsimp only
    | with_reducible apply keeps_mk)

theorem execOrderedRelease_keeps {M : List Host.Cell → Prop} {z₀ : State} (port : BitVec 3) (slot : BitVec 2) (s : State) (k₀ : Keeps M z₀
    s) : Answers M z₀ (execOrderedRelease port slot s) := by
  unfold execOrderedRelease
  repeat' (first
    | with_reducible assumption | with_reducible apply answers_next | with_reducible apply answers_ite | with_reducible apply keeps_ite
    | with_reducible apply passDecode_keeps | (intros; with_reducible assumption) | (intro t x ht) | (intro t ht) | split | dsimp only
    | with_reducible apply keeps_mk)

theorem countResponse_keeps {M : List Host.Cell → Prop} {z₀ : State} (s : State) (p : Nat) (t : Txn) (k₀ : Keeps M z₀ s) : Keeps M z₀
    (countResponse s p t) := by
  unfold countResponse
  repeat' (first
    | with_reducible assumption | with_reducible apply keeps_ite | with_reducible apply occur_keeps | with_reducible apply countSat_keeps
    | (intros; with_reducible assumption) | (intro t x ht) | (intro t ht) | split | dsimp only | with_reducible apply keeps_mk)

theorem sendResponse_keeps {M : List Host.Cell → Prop} {z₀ : State} (s : State) (p vc : Nat) (r : List Byte) (k₀ : Keeps M z₀ s) : Keeps M
    z₀ (sendResponse s p vc r) := by
  unfold sendResponse
  repeat' (first
    | with_reducible assumption | with_reducible apply keeps_ite | with_reducible apply setLink_keeps | with_reducible apply sendOn_keeps
    | (intros; with_reducible assumption) | (intro t x ht) | (intro t ht) | split | dsimp only | with_reducible apply keeps_mk)

theorem execResponseSend_keeps {M : List Host.Cell → Prop} {z₀ : State} (port : BitVec 3) (mgmt : Bool) (s : State) (k₀ : Keeps M z₀ s) :
    Answers M z₀ (execResponseSend port mgmt s) := by
  unfold execResponseSend
  repeat' (first
    | with_reducible assumption | with_reducible apply answers_next | with_reducible apply answers_ite | with_reducible apply keeps_ite
    | with_reducible apply emit_keeps | with_reducible apply settleFences_keeps | with_reducible apply samplePacked_keeps
    | with_reducible apply countResponse_keeps | with_reducible apply sendResponse_keeps | (intros; with_reducible assumption)
    | (intro t x ht) | (intro t ht) | split | dsimp only | with_reducible apply keeps_mk)

/-! ### Link -/

theorem takeRequest_keeps {M : List Host.Cell → Prop} {z₀ : State} (s : State) (p : Nat) (b : List Byte) (k₀ : Keeps M z₀ s) : Keeps M z₀
    (takeRequest s p b) := by
  unfold takeRequest
  repeat' (first
    | with_reducible assumption | with_reducible apply keeps_ite | with_reducible apply arriveUnit_keeps
    | (intros; with_reducible assumption) | (intro t x ht) | (intro t ht) | split | dsimp only | with_reducible apply keeps_mk)

theorem stateAfter_keeps {M : List Host.Cell → Prop} {z₀ s : State} {o : Host.Outcome State Fault Refusal} (h : Answers M z₀ o) : Keeps M
    z₀ (stateAfter s o) := by
  obtain ⟨t, rfl, k⟩ := h
  exact k

theorem takePairUnit_keeps {M : CellProp} {z₀ : State} (s : State) (p : Nat) (b : List Byte) (k₀ : Keeps M.holds z₀ s) : Keeps M.holds z₀
    (takePairUnit s p b) := by
  unfold takePairUnit
  repeat' (first
    | with_reducible assumption | with_reducible apply keeps_ite | with_reducible apply execLinesUnit_keeps
    | with_reducible apply execSemUnit_keeps | with_reducible apply execMbxUnit_keeps | with_reducible apply execVatUnit_keeps
    | with_reducible apply execAcceptUnit_keeps | with_reducible apply execHealReq_keeps | with_reducible apply execHealData_keeps
    | with_reducible apply execHelloUnit_keeps | with_reducible apply stateAfter_keeps | (intros; with_reducible assumption)
    | (intro t x ht) | (intro t ht) | split | dsimp only | with_reducible apply keeps_mk)

theorem takeUnit_keeps {M : CellProp} {z₀ : State} (s : State) (p : Nat) (b : List Byte) (k₀ : Keeps M.holds z₀ s) : Keeps M.holds z₀
    (takeUnit s p b) := by
  unfold takeUnit
  repeat' (first
    | with_reducible assumption | with_reducible apply keeps_ite | with_reducible apply setLink_keeps
    | with_reducible apply takeRequest_keeps | with_reducible apply takePairUnit_keeps | (intros; with_reducible assumption)
    | (intro t x ht) | (intro t ht) | split | dsimp only | with_reducible apply keeps_mk)

theorem takeSlot_keeps {M : CellProp} {z₀ : State} (s : State) (p : Nat) (slot : List Byte) (k₀ : Keeps M.holds z₀ s) : Keeps M.holds z₀
    (takeSlot s p slot) := by
  unfold takeSlot
  repeat' (first
    | with_reducible assumption | with_reducible apply keeps_ite | with_reducible apply setLink_keeps
    | with_reducible apply malformed_keeps | with_reducible apply takeUnit_keeps | (intros; with_reducible assumption) | (intro t x ht)
    | (intro t ht) | split | dsimp only | with_reducible apply keeps_mk)

theorem noteReceived_keeps {M : List Host.Cell → Prop} {z₀ : State} (s : State) (p : Nat) (used : Bool) (k₀ : Keeps M z₀ s) : Keeps M z₀
    (noteReceived s p used) := by
  unfold noteReceived
  repeat' (first
    | with_reducible assumption | with_reducible apply keeps_ite | with_reducible apply setPhy_keeps | with_reducible apply occur_keeps
    | (intros; with_reducible assumption) | (intro t x ht) | (intro t ht) | split | dsimp only | with_reducible apply keeps_mk)

theorem ackUpTo_keeps {M : List Host.Cell → Prop} {z₀ : State} (s : State) (p a : Nat) (k₀ : Keeps M z₀ s) : Keeps M z₀ (ackUpTo s p a) :=
    by
  unfold ackUpTo
  repeat' (first
    | with_reducible assumption | with_reducible apply keeps_ite | with_reducible apply wrF_keeps | with_reducible apply wrB_keeps
    | with_reducible apply setLink_keeps | (intros; with_reducible assumption) | (intro t x ht) | (intro t ht) | split | dsimp only
    | with_reducible apply keeps_mk)

theorem applyControl_keeps {M : List Host.Cell → Prop} {z₀ : State} (s : State) (p : Nat) (b : List Byte) (k₀ : Keeps M z₀ s) : Keeps M z₀
    (applyControl s p b) := by
  unfold applyControl
  repeat' (first
    | with_reducible assumption | with_reducible apply keeps_ite | with_reducible apply wrB_keeps | with_reducible apply setLink_keeps
    | with_reducible apply ackUpTo_keeps | (intros; with_reducible assumption) | (intro t x ht) | (intro t ht) | split | dsimp only
    | with_reducible apply keeps_mk)

theorem controlSent_keeps {M : List Host.Cell → Prop} {z₀ : State} (s : State) (p : Nat) (k₀ : Keeps M z₀ s) : Keeps M z₀ (controlSent s p)
    := by
  unfold controlSent
  repeat' (first
    | with_reducible assumption | with_reducible apply keeps_ite | with_reducible apply setLink_keeps | with_reducible apply countSat_keeps
    | (intros; with_reducible assumption) | (intro t x ht) | (intro t ht) | split | dsimp only | with_reducible apply keeps_mk)

theorem askReplay_keeps {M : List Host.Cell → Prop} {z₀ : State} (s : State) (p : Nat) (k₀ : Keeps M z₀ s) : Keeps M z₀ (askReplay s p) :=
    by
  unfold askReplay
  repeat' (first
    | with_reducible assumption | with_reducible apply keeps_ite | with_reducible apply wrB_keeps | with_reducible apply setLink_keeps
    | (intros; with_reducible assumption) | (intro t x ht) | (intro t ht) | split | dsimp only | with_reducible apply keeps_mk)

theorem acceptFlit_keeps {M : CellProp} {z₀ : State} (s : State) (p : Nat) (bs : List Byte) (lcs : Bool) (first : Nat) (k₀ : Keeps M.holds
    z₀ s) : Keeps M.holds z₀ (acceptFlit s p bs lcs first) := by
  unfold acceptFlit
  repeat' (first
    | with_reducible assumption | with_reducible apply keeps_ite | with_reducible apply wrF_keeps | with_reducible apply wrB_keeps
    | with_reducible apply setLink_keeps | with_reducible apply takeSlot_keeps | with_reducible apply noteReceived_keeps
    | with_reducible apply keeps_foldl | (intros; with_reducible assumption) | (intro t x ht) | (intro t ht) | split | dsimp only
    | with_reducible apply keeps_mk)

theorem execFlitReceive_keeps {M : CellProp} {z₀ : State} (port : BitVec 3) (symbols : List (List (BitVec 2))) (s : State) (k₀ : Keeps
    M.holds z₀ s) : Answers M.holds z₀ (execFlitReceive port symbols s) := by
  unfold execFlitReceive
  repeat' (first
    | with_reducible assumption | with_reducible apply answers_next | with_reducible apply answers_ite | with_reducible apply keeps_ite
    | with_reducible apply occur_keeps | with_reducible apply countSat_keeps | with_reducible apply flitTaken_keeps
    | with_reducible apply noteReceived_keeps | with_reducible apply applyControl_keeps | with_reducible apply askReplay_keeps
    | with_reducible apply acceptFlit_keeps | (intros; with_reducible assumption) | (intro t x ht) | (intro t ht) | split | dsimp only
    | with_reducible apply keeps_mk)

theorem execNakTimeout_keeps {M : List Host.Cell → Prop} {z₀ : State} (port : BitVec 3) (s : State) (k₀ : Keeps M z₀ s) : Answers M z₀
    (execNakTimeout port s) := by
  unfold execNakTimeout
  repeat' (first
    | with_reducible assumption | with_reducible apply answers_next | with_reducible apply answers_ite | with_reducible apply keeps_ite
    | with_reducible apply setLink_keeps | (intros; with_reducible assumption) | (intro t x ht) | (intro t ht) | split | dsimp only
    | with_reducible apply keeps_mk)

theorem execAckTimeout_keeps {M : List Host.Cell → Prop} {z₀ : State} (port : BitVec 3) (s : State) (k₀ : Keeps M z₀ s) : Answers M z₀
    (execAckTimeout port s) := by
  unfold execAckTimeout
  repeat' (first
    | with_reducible assumption | with_reducible apply answers_next | with_reducible apply answers_ite | with_reducible apply keeps_ite
    | with_reducible apply setLink_keeps | (intros; with_reducible assumption) | (intro t x ht) | (intro t ht) | split | dsimp only
    | with_reducible apply keeps_mk)

theorem sendFlit_keeps {M : List Host.Cell → Prop} {z₀ : State} (s : State) (p hdr : Nat) (slots : List Byte) (lcs : Bool) (k₀ : Keeps M z₀
    s) : Keeps M z₀ (sendFlit s p hdr slots lcs) := by
  unfold sendFlit
  repeat' (first
    | with_reducible assumption | with_reducible apply keeps_ite | with_reducible apply sendFlitBlocks_keeps
    | with_reducible apply controlSent_keeps | (intros; with_reducible assumption) | (intro t x ht) | (intro t ht) | split | dsimp only
    | with_reducible apply keeps_mk)

theorem sendIdle_keeps {M : List Host.Cell → Prop} {z₀ : State} (s : State) (p : Nat) (k₀ : Keeps M z₀ s) : Keeps M z₀ (sendIdle s p) := by
  unfold sendIdle
  repeat' (first
    | with_reducible assumption | with_reducible apply keeps_ite | with_reducible apply sendFlit_keeps
    | (intros; with_reducible assumption) | (intro t x ht) | (intro t ht) | split | dsimp only | with_reducible apply keeps_mk)

theorem noteSent_keeps {M : List Host.Cell → Prop} {z₀ : State} (s : State) (p : Nat) (k₀ : Keeps M z₀ s) : Keeps M z₀ (noteSent s p) := by
  unfold noteSent
  repeat' (first
    | with_reducible assumption | with_reducible apply keeps_ite | with_reducible apply setPhy_keeps | with_reducible apply occur_keeps
    | (intros; with_reducible assumption) | (intro t x ht) | (intro t ht) | split | dsimp only | with_reducible apply keeps_mk)

theorem sendReplay_keeps {M : List Host.Cell → Prop} {z₀ : State} (s : State) (p i : Nat) (k : KeptFlit) (k₀ : Keeps M z₀ s) : Keeps M z₀
    (sendReplay s p i k) := by
  unfold sendReplay
  repeat' (first
    | with_reducible assumption | with_reducible apply keeps_ite | with_reducible apply wrB_keeps | with_reducible apply setLink_keeps
    | with_reducible apply occur_keeps | with_reducible apply countSat_keeps | with_reducible apply sendFlit_keeps
    | with_reducible apply noteSent_keeps | (intros; with_reducible assumption) | (intro t x ht) | (intro t ht) | split | dsimp only
    | with_reducible apply keeps_mk)

theorem notePushes_keeps {M : List Host.Cell → Prop} {z₀ : State} (s : State) (p fseq : Nat) (ended : List (List Byte)) (k₀ : Keeps M z₀ s)
    : Keeps M z₀ (notePushes s p fseq ended) := by
  unfold notePushes
  repeat' (first
    | with_reducible assumption | with_reducible apply keeps_ite | with_reducible apply keeps_foldl | (intros; with_reducible assumption)
    | (intro t x ht) | (intro t ht) | split | dsimp only | with_reducible apply keeps_mk)

theorem sendNew_keeps {M : List Host.Cell → Prop} {z₀ : State} (s : State) (p : Nat) (f : Fill) (lcs : Bool) (k₀ : Keeps M z₀ s) : Keeps M
    z₀ (sendNew s p f lcs) := by
  unfold sendNew
  repeat' (first
    | with_reducible assumption | with_reducible apply keeps_ite | with_reducible apply wrF_keeps | with_reducible apply setLink_keeps
    | with_reducible apply sendFlit_keeps | with_reducible apply noteSent_keeps | with_reducible apply notePushes_keeps
    | with_reducible apply keeps_foldl | (intros; with_reducible assumption) | (intro t x ht) | (intro t ht) | split | dsimp only
    | with_reducible apply keeps_mk)

theorem execFlitSend_keeps {M : List Host.Cell → Prop} {z₀ : State} (port : BitVec 3) (s : State) (k₀ : Keeps M z₀ s) : Answers M z₀
    (execFlitSend port s) := by
  unfold execFlitSend
  repeat' (first
    | with_reducible assumption | with_reducible apply answers_next | with_reducible apply answers_ite | with_reducible apply keeps_ite
    | with_reducible apply sendIdle_keeps | with_reducible apply sendReplay_keeps | with_reducible apply sendNew_keeps
    | (intros; with_reducible assumption) | (intro t x ht) | (intro t ht) | split | dsimp only | with_reducible apply keeps_mk)

theorem execReplayFlits_keeps {M : List Host.Cell → Prop} {z₀ : State} (port : BitVec 3) (s : State) (k₀ : Keeps M z₀ s) : Answers M z₀
    (execReplayFlits port s) := by
  unfold execReplayFlits
  repeat' (first
    | with_reducible assumption | with_reducible apply answers_next | with_reducible apply answers_ite | with_reducible apply keeps_ite
    | with_reducible apply setLink_keeps | with_reducible apply replayKept_keeps | (intros; with_reducible assumption) | (intro t x ht)
    | (intro t ht) | split | dsimp only | with_reducible apply keeps_mk)

/-! ### RegWrites -/

theorem writeBy_keeps {M : List Host.Cell → Prop} {z₀ : State} (s : State) (by_ : RegBy) (key : Nat) (v : Word64) (k₀ : Keeps M z₀ s) :
    Keeps M z₀ (writeBy s by_ key v) := by
  unfold writeBy
  repeat' (first
    | with_reducible assumption | with_reducible apply keeps_ite | with_reducible apply scPost_keeps
    | with_reducible apply arriveUnit_keeps | (intros; with_reducible assumption) | (intro t x ht) | (intro t ht) | split | dsimp only
    | with_reducible apply keeps_mk)

theorem readBy_keeps {M : List Host.Cell → Prop} {z₀ : State} (s : State) (by_ : RegBy) (key : Nat) (k₀ : Keeps M z₀ s) : Keeps M z₀
    (readBy s by_ key) := by
  unfold readBy
  repeat' (first
    | with_reducible assumption | with_reducible apply keeps_ite | with_reducible apply scPost_keeps
    | with_reducible apply arriveUnit_keeps | (intros; with_reducible assumption) | (intro t x ht) | (intro t ht) | split | dsimp only
    | with_reducible apply keeps_mk)

theorem execTgtClaim_keeps {M : List Host.Cell → Prop} {z₀ : State} (by_ : RegBy) (t : BitVec 6) (s : State) (k₀ : Keeps M z₀ s) : Answers
    M z₀ (execTgtClaim by_ t s) := by
  unfold execTgtClaim
  repeat' (first
    | with_reducible assumption | with_reducible apply answers_next | with_reducible apply answers_ite | with_reducible apply keeps_ite
    | with_reducible apply readBy_keeps | (intros; with_reducible assumption) | (intro t x ht) | (intro t ht) | split | dsimp only
    | with_reducible apply keeps_mk)

theorem execSemClear_keeps {M : List Host.Cell → Prop} {z₀ : State} (by_ : RegBy) (v : Word64) (s : State) (k₀ : Keeps M z₀ s) : Answers M
    z₀ (execSemClear by_ v s) := by
  unfold execSemClear
  repeat' (first
    | with_reducible assumption | with_reducible apply answers_next | with_reducible apply answers_ite | with_reducible apply keeps_ite
    | with_reducible apply writeBy_keeps | (intros; with_reducible assumption) | (intro t x ht) | (intro t ht) | split | dsimp only
    | with_reducible apply keeps_mk)

theorem execSemStatClear_keeps {M : List Host.Cell → Prop} {z₀ : State} (by_ : RegBy) (v : Word64) (s : State) (k₀ : Keeps M z₀ s) :
    Answers M z₀ (execSemStatClear by_ v s) := by
  unfold execSemStatClear
  repeat' (first
    | with_reducible assumption | with_reducible apply answers_next | with_reducible apply answers_ite | with_reducible apply keeps_ite
    | with_reducible apply writeBy_keeps | (intros; with_reducible assumption) | (intro t x ht) | (intro t ht) | split | dsimp only
    | with_reducible apply keeps_mk)

theorem execMbxClear_keeps {M : List Host.Cell → Prop} {z₀ : State} (by_ : RegBy) (v : Word64) (s : State) (k₀ : Keeps M z₀ s) : Answers M
    z₀ (execMbxClear by_ v s) := by
  unfold execMbxClear
  repeat' (first
    | with_reducible assumption | with_reducible apply answers_next | with_reducible apply answers_ite | with_reducible apply keeps_ite
    | with_reducible apply writeBy_keeps | (intros; with_reducible assumption) | (intro t x ht) | (intro t ht) | split | dsimp only
    | with_reducible apply keeps_mk)

theorem execMbxStatClear_keeps {M : List Host.Cell → Prop} {z₀ : State} (by_ : RegBy) (v : Word64) (s : State) (k₀ : Keeps M z₀ s) :
    Answers M z₀ (execMbxStatClear by_ v s) := by
  unfold execMbxStatClear
  repeat' (first
    | with_reducible assumption | with_reducible apply answers_next | with_reducible apply answers_ite | with_reducible apply keeps_ite
    | with_reducible apply writeBy_keeps | (intros; with_reducible assumption) | (intro t x ht) | (intro t ht) | split | dsimp only
    | with_reducible apply keeps_mk)

theorem execArbStatClear_keeps {M : List Host.Cell → Prop} {z₀ : State} (by_ : RegBy) (v : Word64) (s : State) (k₀ : Keeps M z₀ s) :
    Answers M z₀ (execArbStatClear by_ v s) := by
  unfold execArbStatClear
  repeat' (first
    | with_reducible assumption | with_reducible apply answers_next | with_reducible apply answers_ite | with_reducible apply keeps_ite
    | with_reducible apply writeBy_keeps | (intros; with_reducible assumption) | (intro t x ht) | (intro t ht) | split | dsimp only
    | with_reducible apply keeps_mk)

theorem execVatCtlWrite_keeps {M : List Host.Cell → Prop} {z₀ : State} (by_ : RegBy) (vat : BitVec 10) (v : Word64) (s : State) (k₀ : Keeps
    M z₀ s) : Answers M z₀ (execVatCtlWrite by_ vat v s) := by
  unfold execVatCtlWrite
  repeat' (first
    | with_reducible assumption | with_reducible apply answers_next | with_reducible apply answers_ite | with_reducible apply keeps_ite
    | with_reducible apply writeBy_keeps | (intros; with_reducible assumption) | (intro t x ht) | (intro t ht) | split | dsimp only
    | with_reducible apply keeps_mk)

theorem execVatRearm_keeps {M : List Host.Cell → Prop} {z₀ : State} (by_ : RegBy) (vat : BitVec 10) (v : Word64) (s : State) (k₀ : Keeps M
    z₀ s) : Answers M z₀ (execVatRearm by_ vat v s) := by
  unfold execVatRearm
  repeat' (first
    | with_reducible assumption | with_reducible apply answers_next | with_reducible apply answers_ite | with_reducible apply keeps_ite
    | with_reducible apply writeBy_keeps | (intros; with_reducible assumption) | (intro t x ht) | (intro t ht) | split | dsimp only
    | with_reducible apply keeps_mk)

theorem execVatStatClear_keeps {M : List Host.Cell → Prop} {z₀ : State} (by_ : RegBy) (vat : BitVec 10) (v : Word64) (s : State) (k₀ :
    Keeps M z₀ s) : Answers M z₀ (execVatStatClear by_ vat v s) := by
  unfold execVatStatClear
  repeat' (first
    | with_reducible assumption | with_reducible apply answers_next | with_reducible apply answers_ite | with_reducible apply keeps_ite
    | with_reducible apply writeBy_keeps | (intros; with_reducible assumption) | (intro t x ht) | (intro t ht) | split | dsimp only
    | with_reducible apply keeps_mk)

theorem execRegisterWrite_keeps {M : List Host.Cell → Prop} {z₀ : State} (by_ : RegBy) (key : BitVec 23) (v : Word64) (s : State) (k₀ :
    Keeps M z₀ s) : Answers M z₀ (execRegisterWrite by_ key v s) := by
  unfold execRegisterWrite
  repeat' (first
    | with_reducible assumption | with_reducible apply answers_next | with_reducible apply answers_ite | with_reducible apply keeps_ite
    | with_reducible apply writeBy_keeps | (intros; with_reducible assumption) | (intro t x ht) | (intro t ht) | split | dsimp only
    | with_reducible apply keeps_mk)

theorem execQTailWrite_keeps {M : List Host.Cell → Prop} {z₀ : State} (by_ : RegBy) (e : BitVec 4) (q : BitVec 2) (v : Word64) (s : State)
    (k₀ : Keeps M z₀ s) : Answers M z₀ (execQTailWrite by_ e q v s) := by
  unfold execQTailWrite
  repeat' (first
    | with_reducible assumption | with_reducible apply answers_next | with_reducible apply answers_ite | with_reducible apply keeps_ite
    | with_reducible apply writeBy_keeps | (intros; with_reducible assumption) | (intro t x ht) | (intro t ht) | split | dsimp only
    | with_reducible apply keeps_mk)

theorem execQCfgWrite_keeps {M : List Host.Cell → Prop} {z₀ : State} (by_ : RegBy) (e : BitVec 4) (q : BitVec 2) (v : Word64) (s : State)
    (k₀ : Keeps M z₀ s) : Answers M z₀ (execQCfgWrite by_ e q v s) := by
  unfold execQCfgWrite
  repeat' (first
    | with_reducible assumption | with_reducible apply answers_next | with_reducible apply answers_ite | with_reducible apply keeps_ite
    | with_reducible apply writeBy_keeps | (intros; with_reducible assumption) | (intro t x ht) | (intro t ht) | split | dsimp only
    | with_reducible apply keeps_mk)

theorem execStopQueue_keeps {M : List Host.Cell → Prop} {z₀ : State} (by_ : RegBy) (e : BitVec 4) (q : BitVec 2) (v : Word64) (s : State)
    (k₀ : Keeps M z₀ s) : Answers M z₀ (execStopQueue by_ e q v s) := by
  unfold execStopQueue
  repeat' (first
    | with_reducible assumption | with_reducible apply answers_next | with_reducible apply answers_ite | with_reducible apply keeps_ite
    | with_reducible apply writeBy_keeps | (intros; with_reducible assumption) | (intro t x ht) | (intro t ht) | split | dsimp only
    | with_reducible apply keeps_mk)

theorem execGoQueue_keeps {M : List Host.Cell → Prop} {z₀ : State} (by_ : RegBy) (e : BitVec 4) (q : BitVec 2) (v : Word64) (s : State) (k₀
    : Keeps M z₀ s) : Answers M z₀ (execGoQueue by_ e q v s) := by
  unfold execGoQueue
  repeat' (first
    | with_reducible assumption | with_reducible apply answers_next | with_reducible apply answers_ite | with_reducible apply keeps_ite
    | with_reducible apply writeBy_keeps | (intros; with_reducible assumption) | (intro t x ht) | (intro t ht) | split | dsimp only
    | with_reducible apply keeps_mk)

theorem execResumeRetry_keeps {M : List Host.Cell → Prop} {z₀ : State} (by_ : RegBy) (e : BitVec 4) (q : BitVec 2) (v : Word64) (s : State)
    (k₀ : Keeps M z₀ s) : Answers M z₀ (execResumeRetry by_ e q v s) := by
  unfold execResumeRetry
  repeat' (first
    | with_reducible assumption | with_reducible apply answers_next | with_reducible apply answers_ite | with_reducible apply keeps_ite
    | with_reducible apply writeBy_keeps | (intros; with_reducible assumption) | (intro t x ht) | (intro t ht) | split | dsimp only
    | with_reducible apply keeps_mk)

theorem execResumeSkip_keeps {M : List Host.Cell → Prop} {z₀ : State} (by_ : RegBy) (e : BitVec 4) (q : BitVec 2) (v : Word64) (s : State)
    (k₀ : Keeps M z₀ s) : Answers M z₀ (execResumeSkip by_ e q v s) := by
  unfold execResumeSkip
  repeat' (first
    | with_reducible assumption | with_reducible apply answers_next | with_reducible apply answers_ite | with_reducible apply keeps_ite
    | with_reducible apply writeBy_keeps | (intros; with_reducible assumption) | (intro t x ht) | (intro t ht) | split | dsimp only
    | with_reducible apply keeps_mk)

theorem execOfflineWrite_keeps {M : List Host.Cell → Prop} {z₀ : State} (by_ : RegBy) (e : BitVec 4) (v : Word64) (s : State) (k₀ : Keeps M
    z₀ s) : Answers M z₀ (execOfflineWrite by_ e v s) := by
  unfold execOfflineWrite
  repeat' (first
    | with_reducible assumption | with_reducible apply answers_next | with_reducible apply answers_ite | with_reducible apply keeps_ite
    | with_reducible apply writeBy_keeps | (intros; with_reducible assumption) | (intro t x ht) | (intro t ht) | split | dsimp only
    | with_reducible apply keeps_mk)

theorem execEngineReset_keeps {M : List Host.Cell → Prop} {z₀ : State} (by_ : RegBy) (e : BitVec 4) (v : Word64) (s : State) (k₀ : Keeps M
    z₀ s) : Answers M z₀ (execEngineReset by_ e v s) := by
  unfold execEngineReset
  repeat' (first
    | with_reducible assumption | with_reducible apply answers_next | with_reducible apply answers_ite | with_reducible apply keeps_ite
    | with_reducible apply writeBy_keeps | (intros; with_reducible assumption) | (intro t x ht) | (intro t ht) | split | dsimp only
    | with_reducible apply keeps_mk)

theorem execMcCtlWrite_keeps {M : List Host.Cell → Prop} {z₀ : State} (by_ : RegBy) (ctx : BitVec 8) (v : Word64) (s : State) (k₀ : Keeps M
    z₀ s) : Answers M z₀ (execMcCtlWrite by_ ctx v s) := by
  unfold execMcCtlWrite
  repeat' (first
    | with_reducible assumption | with_reducible apply answers_next | with_reducible apply answers_ite | with_reducible apply keeps_ite
    | with_reducible apply writeBy_keeps | (intros; with_reducible assumption) | (intro t x ht) | (intro t ht) | split | dsimp only
    | with_reducible apply keeps_mk)

theorem execMcStatClear_keeps {M : List Host.Cell → Prop} {z₀ : State} (by_ : RegBy) (v : Word64) (s : State) (k₀ : Keeps M z₀ s) : Answers
    M z₀ (execMcStatClear by_ v s) := by
  unfold execMcStatClear
  repeat' (first
    | with_reducible assumption | with_reducible apply answers_next | with_reducible apply answers_ite | with_reducible apply keeps_ite
    | with_reducible apply writeBy_keeps | (intros; with_reducible assumption) | (intro t x ht) | (intro t ht) | split | dsimp only
    | with_reducible apply keeps_mk)

theorem execSetPend_keeps {M : List Host.Cell → Prop} {z₀ : State} (by_ : RegBy) (src : BitVec 13) (v : Word64) (s : State) (k₀ : Keeps M
    z₀ s) : Answers M z₀ (execSetPend by_ src v s) := by
  unfold execSetPend
  repeat' (first
    | with_reducible assumption | with_reducible apply answers_next | with_reducible apply answers_ite | with_reducible apply keeps_ite
    | with_reducible apply writeBy_keeps | (intros; with_reducible assumption) | (intro t x ht) | (intro t ht) | split | dsimp only
    | with_reducible apply keeps_mk)

theorem execPendingClear_keeps {M : List Host.Cell → Prop} {z₀ : State} (by_ : RegBy) (src : BitVec 13) (v : Word64) (s : State) (k₀ :
    Keeps M z₀ s) : Answers M z₀ (execPendingClear by_ src v s) := by
  unfold execPendingClear
  repeat' (first
    | with_reducible assumption | with_reducible apply answers_next | with_reducible apply answers_ite | with_reducible apply keeps_ite
    | with_reducible apply writeBy_keeps | (intros; with_reducible assumption) | (intro t x ht) | (intro t ht) | split | dsimp only
    | with_reducible apply keeps_mk)

theorem execTargetWrite_keeps {M : List Host.Cell → Prop} {z₀ : State} (by_ : RegBy) (src : BitVec 13) (v : Word64) (s : State) (k₀ : Keeps
    M z₀ s) : Answers M z₀ (execTargetWrite by_ src v s) := by
  unfold execTargetWrite
  repeat' (first
    | with_reducible assumption | with_reducible apply answers_next | with_reducible apply answers_ite | with_reducible apply keeps_ite
    | with_reducible apply writeBy_keeps | (intros; with_reducible assumption) | (intro t x ht) | (intro t ht) | split | dsimp only
    | with_reducible apply keeps_mk)

theorem execTgtEoi_keeps {M : List Host.Cell → Prop} {z₀ : State} (by_ : RegBy) (t : BitVec 6) (v : Word64) (s : State) (k₀ : Keeps M z₀ s)
    : Answers M z₀ (execTgtEoi by_ t v s) := by
  unfold execTgtEoi
  repeat' (first
    | with_reducible assumption | with_reducible apply answers_next | with_reducible apply answers_ite | with_reducible apply keeps_ite
    | with_reducible apply writeBy_keeps | (intros; with_reducible assumption) | (intro t x ht) | (intro t ht) | split | dsimp only
    | with_reducible apply keeps_mk)

theorem execAsleepWrite_keeps {M : List Host.Cell → Prop} {z₀ : State} (by_ : RegBy) (t : BitVec 6) (v : Word64) (s : State) (k₀ : Keeps M
    z₀ s) : Answers M z₀ (execAsleepWrite by_ t v s) := by
  unfold execAsleepWrite
  repeat' (first
    | with_reducible assumption | with_reducible apply answers_next | with_reducible apply answers_ite | with_reducible apply keeps_ite
    | with_reducible apply writeBy_keeps | (intros; with_reducible assumption) | (intro t x ht) | (intro t ht) | split | dsimp only
    | with_reducible apply keeps_mk)

theorem execLogClear_keeps {M : List Host.Cell → Prop} {z₀ : State} (by_ : RegBy) (v : Word64) (s : State) (k₀ : Keeps M z₀ s) : Answers M
    z₀ (execLogClear by_ v s) := by
  unfold execLogClear
  repeat' (first
    | with_reducible assumption | with_reducible apply answers_next | with_reducible apply answers_ite | with_reducible apply keeps_ite
    | with_reducible apply writeBy_keeps | (intros; with_reducible assumption) | (intro t x ht) | (intro t ht) | split | dsimp only
    | with_reducible apply keeps_mk)

theorem execIntStatClear_keeps {M : List Host.Cell → Prop} {z₀ : State} (by_ : RegBy) (v : Word64) (s : State) (k₀ : Keeps M z₀ s) :
    Answers M z₀ (execIntStatClear by_ v s) := by
  unfold execIntStatClear
  repeat' (first
    | with_reducible assumption | with_reducible apply answers_next | with_reducible apply answers_ite | with_reducible apply keeps_ite
    | with_reducible apply writeBy_keeps | (intros; with_reducible assumption) | (intro t x ht) | (intro t ht) | split | dsimp only
    | with_reducible apply keeps_mk)

theorem execIntInjectWrite_keeps {M : List Host.Cell → Prop} {z₀ : State} (by_ : RegBy) (v : Word64) (s : State) (k₀ : Keeps M z₀ s) :
    Answers M z₀ (execIntInjectWrite by_ v s) := by
  unfold execIntInjectWrite
  repeat' (first
    | with_reducible assumption | with_reducible apply answers_next | with_reducible apply answers_ite | with_reducible apply keeps_ite
    | with_reducible apply writeBy_keeps | (intros; with_reducible assumption) | (intro t x ht) | (intro t ht) | split | dsimp only
    | with_reducible apply keeps_mk)

theorem execTstCmdStart_keeps {M : List Host.Cell → Prop} {z₀ : State} (by_ : RegBy) (v : Word64) (s : State) (k₀ : Keeps M z₀ s) : Answers
    M z₀ (execTstCmdStart by_ v s) := by
  unfold execTstCmdStart
  repeat' (first
    | with_reducible assumption | with_reducible apply answers_next | with_reducible apply answers_ite | with_reducible apply keeps_ite
    | with_reducible apply writeBy_keeps | (intros; with_reducible assumption) | (intro t x ht) | (intro t ht) | split | dsimp only
    | with_reducible apply keeps_mk)

theorem execAbortTest_keeps {M : List Host.Cell → Prop} {z₀ : State} (by_ : RegBy) (v : Word64) (s : State) (k₀ : Keeps M z₀ s) : Answers M
    z₀ (execAbortTest by_ v s) := by
  unfold execAbortTest
  repeat' (first
    | with_reducible assumption | with_reducible apply answers_next | with_reducible apply answers_ite | with_reducible apply keeps_ite
    | with_reducible apply writeBy_keeps | (intros; with_reducible assumption) | (intro t x ht) | (intro t ht) | split | dsimp only
    | with_reducible apply keeps_mk)

theorem execTstStatClear_keeps {M : List Host.Cell → Prop} {z₀ : State} (by_ : RegBy) (v : Word64) (s : State) (k₀ : Keeps M z₀ s) :
    Answers M z₀ (execTstStatClear by_ v s) := by
  unfold execTstStatClear
  repeat' (first
    | with_reducible assumption | with_reducible apply answers_next | with_reducible apply answers_ite | with_reducible apply keeps_ite
    | with_reducible apply writeBy_keeps | (intros; with_reducible assumption) | (intro t x ht) | (intro t ht) | split | dsimp only
    | with_reducible apply keeps_mk)

theorem execRmpCmdGo_keeps {M : List Host.Cell → Prop} {z₀ : State} (by_ : RegBy) (v : Word64) (s : State) (k₀ : Keeps M z₀ s) : Answers M
    z₀ (execRmpCmdGo by_ v s) := by
  unfold execRmpCmdGo
  repeat' (first
    | with_reducible assumption | with_reducible apply answers_next | with_reducible apply answers_ite | with_reducible apply keeps_ite
    | with_reducible apply writeBy_keeps | (intros; with_reducible assumption) | (intro t x ht) | (intro t ht) | split | dsimp only
    | with_reducible apply keeps_mk)

theorem execRetCmdStart_keeps {M : List Host.Cell → Prop} {z₀ : State} (by_ : RegBy) (v : Word64) (s : State) (k₀ : Keeps M z₀ s) : Answers
    M z₀ (execRetCmdStart by_ v s) := by
  unfold execRetCmdStart
  repeat' (first
    | with_reducible assumption | with_reducible apply answers_next | with_reducible apply answers_ite | with_reducible apply keeps_ite
    | with_reducible apply writeBy_keeps | (intros; with_reducible assumption) | (intro t x ht) | (intro t ht) | split | dsimp only
    | with_reducible apply keeps_mk)

theorem execTstEngGo_keeps {M : List Host.Cell → Prop} {z₀ : State} (by_ : RegBy) (v : Word64) (s : State) (k₀ : Keeps M z₀ s) : Answers M
    z₀ (execTstEngGo by_ v s) := by
  unfold execTstEngGo
  repeat' (first
    | with_reducible assumption | with_reducible apply answers_next | with_reducible apply answers_ite | with_reducible apply keeps_ite
    | with_reducible apply writeBy_keeps | (intros; with_reducible assumption) | (intro t x ht) | (intro t ht) | split | dsimp only
    | with_reducible apply keeps_mk)

theorem execPtStatClear_keeps {M : List Host.Cell → Prop} {z₀ : State} (by_ : RegBy) (p : BitVec 3) (v : Word64) (s : State) (k₀ : Keeps M
    z₀ s) : Answers M z₀ (execPtStatClear by_ p v s) := by
  unfold execPtStatClear
  repeat' (first
    | with_reducible assumption | with_reducible apply answers_next | with_reducible apply answers_ite | with_reducible apply keeps_ite
    | with_reducible apply writeBy_keeps | (intros; with_reducible assumption) | (intro t x ht) | (intro t ht) | split | dsimp only
    | with_reducible apply keeps_mk)

theorem execLphRetrain_keeps {M : List Host.Cell → Prop} {z₀ : State} (by_ : RegBy) (p : BitVec 3) (v : Word64) (s : State) (k₀ : Keeps M
    z₀ s) : Answers M z₀ (execLphRetrain by_ p v s) := by
  unfold execLphRetrain
  repeat' (first
    | with_reducible assumption | with_reducible apply answers_next | with_reducible apply answers_ite | with_reducible apply keeps_ite
    | with_reducible apply writeBy_keeps | (intros; with_reducible assumption) | (intro t x ht) | (intro t ht) | split | dsimp only
    | with_reducible apply keeps_mk)

theorem execSpareNowWrite_keeps {M : List Host.Cell → Prop} {z₀ : State} (by_ : RegBy) (p : BitVec 3) (v : Word64) (s : State) (k₀ : Keeps
    M z₀ s) : Answers M z₀ (execSpareNowWrite by_ p v s) := by
  unfold execSpareNowWrite
  repeat' (first
    | with_reducible assumption | with_reducible apply answers_next | with_reducible apply answers_ite | with_reducible apply keeps_ite
    | with_reducible apply writeBy_keeps | (intros; with_reducible assumption) | (intro t x ht) | (intro t ht) | split | dsimp only
    | with_reducible apply keeps_mk)

theorem execUnspareWrite_keeps {M : List Host.Cell → Prop} {z₀ : State} (by_ : RegBy) (p : BitVec 3) (v : Word64) (s : State) (k₀ : Keeps M
    z₀ s) : Answers M z₀ (execUnspareWrite by_ p v s) := by
  unfold execUnspareWrite
  repeat' (first
    | with_reducible assumption | with_reducible apply answers_next | with_reducible apply answers_ite | with_reducible apply keeps_ite
    | with_reducible apply writeBy_keeps | (intros; with_reducible assumption) | (intro t x ht) | (intro t ht) | split | dsimp only
    | with_reducible apply keeps_mk)

theorem execLoopWrite_keeps {M : List Host.Cell → Prop} {z₀ : State} (by_ : RegBy) (p : BitVec 3) (v : Word64) (s : State) (k₀ : Keeps M z₀
    s) : Answers M z₀ (execLoopWrite by_ p v s) := by
  unfold execLoopWrite
  repeat' (first
    | with_reducible assumption | with_reducible apply answers_next | with_reducible apply answers_ite | with_reducible apply keeps_ite
    | with_reducible apply writeBy_keeps | (intros; with_reducible assumption) | (intro t x ht) | (intro t ht) | split | dsimp only
    | with_reducible apply keeps_mk)

theorem execMinClear_keeps {M : List Host.Cell → Prop} {z₀ : State} (by_ : RegBy) (p : BitVec 3) (lane : BitVec 4) (v : Word64) (s : State)
    (k₀ : Keeps M z₀ s) : Answers M z₀ (execMinClear by_ p lane v s) := by
  unfold execMinClear
  repeat' (first
    | with_reducible assumption | with_reducible apply answers_next | with_reducible apply answers_ite | with_reducible apply keeps_ite
    | with_reducible apply writeBy_keeps | (intros; with_reducible assumption) | (intro t x ht) | (intro t ht) | split | dsimp only
    | with_reducible apply keeps_mk)

theorem execLnStatClear_keeps {M : List Host.Cell → Prop} {z₀ : State} (by_ : RegBy) (v : Word64) (s : State) (k₀ : Keeps M z₀ s) : Answers
    M z₀ (execLnStatClear by_ v s) := by
  unfold execLnStatClear
  repeat' (first
    | with_reducible assumption | with_reducible apply answers_next | with_reducible apply answers_ite | with_reducible apply keeps_ite
    | with_reducible apply writeBy_keeps | (intros; with_reducible assumption) | (intro t x ht) | (intro t ht) | split | dsimp only
    | with_reducible apply keeps_mk)

theorem execPromoteWrite_keeps {M : List Host.Cell → Prop} {z₀ : State} (by_ : RegBy) (v : Word64) (s : State) (k₀ : Keeps M z₀ s) :
    Answers M z₀ (execPromoteWrite by_ v s) := by
  unfold execPromoteWrite
  repeat' (first
    | with_reducible assumption | with_reducible apply answers_next | with_reducible apply answers_ite | with_reducible apply keeps_ite
    | with_reducible apply writeBy_keeps | (intros; with_reducible assumption) | (intro t x ht) | (intro t ht) | split | dsimp only
    | with_reducible apply keeps_mk)

theorem execJoinWrite_keeps {M : List Host.Cell → Prop} {z₀ : State} (by_ : RegBy) (v : Word64) (s : State) (k₀ : Keeps M z₀ s) : Answers M
    z₀ (execJoinWrite by_ v s) := by
  unfold execJoinWrite
  repeat' (first
    | with_reducible assumption | with_reducible apply answers_next | with_reducible apply answers_ite | with_reducible apply keeps_ite
    | with_reducible apply writeBy_keeps | (intros; with_reducible assumption) | (intro t x ht) | (intro t ht) | split | dsimp only
    | with_reducible apply keeps_mk)

theorem execLeaveWrite_keeps {M : List Host.Cell → Prop} {z₀ : State} (by_ : RegBy) (v : Word64) (s : State) (k₀ : Keeps M z₀ s) : Answers
    M z₀ (execLeaveWrite by_ v s) := by
  unfold execLeaveWrite
  repeat' (first
    | with_reducible assumption | with_reducible apply answers_next | with_reducible apply answers_ite | with_reducible apply keeps_ite
    | with_reducible apply writeBy_keeps | (intros; with_reducible assumption) | (intro t x ht) | (intro t ht) | split | dsimp only
    | with_reducible apply keeps_mk)

theorem execPwrRegionWrite_keeps {M : List Host.Cell → Prop} {z₀ : State} (by_ : RegBy) (v : Word64) (s : State) (k₀ : Keeps M z₀ s) :
    Answers M z₀ (execPwrRegionWrite by_ v s) := by
  unfold execPwrRegionWrite
  repeat' (first
    | with_reducible assumption | with_reducible apply answers_next | with_reducible apply answers_ite | with_reducible apply keeps_ite
    | with_reducible apply writeBy_keeps | (intros; with_reducible assumption) | (intro t x ht) | (intro t ht) | split | dsimp only
    | with_reducible apply keeps_mk)

theorem execDevStateWrite_keeps {M : List Host.Cell → Prop} {z₀ : State} (by_ : RegBy) (v : Word64) (s : State) (k₀ : Keeps M z₀ s) :
    Answers M z₀ (execDevStateWrite by_ v s) := by
  unfold execDevStateWrite
  repeat' (first
    | with_reducible assumption | with_reducible apply answers_next | with_reducible apply answers_ite | with_reducible apply keeps_ite
    | with_reducible apply writeBy_keeps | (intros; with_reducible assumption) | (intro t x ht) | (intro t ht) | split | dsimp only
    | with_reducible apply keeps_mk)

theorem execWarmReset_keeps {M : List Host.Cell → Prop} {z₀ : State} (by_ : RegBy) (v : Word64) (s : State) (k₀ : Keeps M z₀ s) : Answers M
    z₀ (execWarmReset by_ v s) := by
  unfold execWarmReset
  repeat' (first
    | with_reducible assumption | with_reducible apply answers_next | with_reducible apply answers_ite | with_reducible apply keeps_ite
    | with_reducible apply writeBy_keeps | (intros; with_reducible assumption) | (intro t x ht) | (intro t ht) | split | dsimp only
    | with_reducible apply keeps_mk)

theorem execPortReset_keeps {M : List Host.Cell → Prop} {z₀ : State} (by_ : RegBy) (v : Word64) (s : State) (k₀ : Keeps M z₀ s) : Answers M
    z₀ (execPortReset by_ v s) := by
  unfold execPortReset
  repeat' (first
    | with_reducible assumption | with_reducible apply answers_next | with_reducible apply answers_ite | with_reducible apply keeps_ite
    | with_reducible apply writeBy_keeps | (intros; with_reducible assumption) | (intro t x ht) | (intro t ht) | split | dsimp only
    | with_reducible apply keeps_mk)

theorem execMgStatClear_keeps {M : List Host.Cell → Prop} {z₀ : State} (by_ : RegBy) (v : Word64) (s : State) (k₀ : Keeps M z₀ s) : Answers
    M z₀ (execMgStatClear by_ v s) := by
  unfold execMgStatClear
  repeat' (first
    | with_reducible assumption | with_reducible apply answers_next | with_reducible apply answers_ite | with_reducible apply keeps_ite
    | with_reducible apply writeBy_keeps | (intros; with_reducible assumption) | (intro t x ht) | (intro t ht) | split | dsimp only
    | with_reducible apply keeps_mk)

theorem execPcCfgWrite_keeps {M : List Host.Cell → Prop} {z₀ : State} (by_ : RegBy) (i : BitVec 6) (v : Word64) (s : State) (k₀ : Keeps M
    z₀ s) : Answers M z₀ (execPcCfgWrite by_ i v s) := by
  unfold execPcCfgWrite
  repeat' (first
    | with_reducible assumption | with_reducible apply answers_next | with_reducible apply answers_ite | with_reducible apply keeps_ite
    | with_reducible apply writeBy_keeps | (intros; with_reducible assumption) | (intro t x ht) | (intro t ht) | split | dsimp only
    | with_reducible apply keeps_mk)

theorem execFreezeCounters_keeps {M : List Host.Cell → Prop} {z₀ : State} (by_ : RegBy) (v : Word64) (s : State) (k₀ : Keeps M z₀ s) :
    Answers M z₀ (execFreezeCounters by_ v s) := by
  unfold execFreezeCounters
  repeat' (first
    | with_reducible assumption | with_reducible apply answers_next | with_reducible apply answers_ite | with_reducible apply keeps_ite
    | with_reducible apply writeBy_keeps | (intros; with_reducible assumption) | (intro t x ht) | (intro t ht) | split | dsimp only
    | with_reducible apply keeps_mk)

theorem execClearAll_keeps {M : List Host.Cell → Prop} {z₀ : State} (by_ : RegBy) (v : Word64) (s : State) (k₀ : Keeps M z₀ s) : Answers M
    z₀ (execClearAll by_ v s) := by
  unfold execClearAll
  repeat' (first
    | with_reducible assumption | with_reducible apply answers_next | with_reducible apply answers_ite | with_reducible apply keeps_ite
    | with_reducible apply writeBy_keeps | (intros; with_reducible assumption) | (intro t x ht) | (intro t ht) | split | dsimp only
    | with_reducible apply keeps_mk)

theorem execSmpCtlWrite_keeps {M : List Host.Cell → Prop} {z₀ : State} (by_ : RegBy) (v : Word64) (s : State) (k₀ : Keeps M z₀ s) : Answers
    M z₀ (execSmpCtlWrite by_ v s) := by
  unfold execSmpCtlWrite
  repeat' (first
    | with_reducible assumption | with_reducible apply answers_next | with_reducible apply answers_ite | with_reducible apply keeps_ite
    | with_reducible apply writeBy_keeps | (intros; with_reducible assumption) | (intro t x ht) | (intro t ht) | split | dsimp only
    | with_reducible apply keeps_mk)

theorem execSmpClear_keeps {M : List Host.Cell → Prop} {z₀ : State} (by_ : RegBy) (v : Word64) (s : State) (k₀ : Keeps M z₀ s) : Answers M
    z₀ (execSmpClear by_ v s) := by
  unfold execSmpClear
  repeat' (first
    | with_reducible assumption | with_reducible apply answers_next | with_reducible apply answers_ite | with_reducible apply keeps_ite
    | with_reducible apply writeBy_keeps | (intros; with_reducible assumption) | (intro t x ht) | (intro t ht) | split | dsimp only
    | with_reducible apply keeps_mk)

theorem execSmpIdxWrite_keeps {M : List Host.Cell → Prop} {z₀ : State} (by_ : RegBy) (v : Word64) (s : State) (k₀ : Keeps M z₀ s) : Answers
    M z₀ (execSmpIdxWrite by_ v s) := by
  unfold execSmpIdxWrite
  repeat' (first
    | with_reducible assumption | with_reducible apply answers_next | with_reducible apply answers_ite | with_reducible apply keeps_ite
    | with_reducible apply writeBy_keeps | (intros; with_reducible assumption) | (intro t x ht) | (intro t ht) | split | dsimp only
    | with_reducible apply keeps_mk)

theorem execTrIdxWrite_keeps {M : List Host.Cell → Prop} {z₀ : State} (by_ : RegBy) (v : Word64) (s : State) (k₀ : Keeps M z₀ s) : Answers
    M z₀ (execTrIdxWrite by_ v s) := by
  unfold execTrIdxWrite
  repeat' (first
    | with_reducible assumption | with_reducible apply answers_next | with_reducible apply answers_ite | with_reducible apply keeps_ite
    | with_reducible apply writeBy_keeps | (intros; with_reducible assumption) | (intro t x ht) | (intro t ht) | split | dsimp only
    | with_reducible apply keeps_mk)

theorem execTrClear_keeps {M : List Host.Cell → Prop} {z₀ : State} (by_ : RegBy) (v : Word64) (s : State) (k₀ : Keeps M z₀ s) : Answers M
    z₀ (execTrClear by_ v s) := by
  unfold execTrClear
  repeat' (first
    | with_reducible assumption | with_reducible apply answers_next | with_reducible apply answers_ite | with_reducible apply keeps_ite
    | with_reducible apply writeBy_keeps | (intros; with_reducible assumption) | (intro t x ht) | (intro t ht) | split | dsimp only
    | with_reducible apply keeps_mk)

theorem execCelCtlWrite_keeps {M : List Host.Cell → Prop} {z₀ : State} (by_ : RegBy) (v : Word64) (s : State) (k₀ : Keeps M z₀ s) : Answers
    M z₀ (execCelCtlWrite by_ v s) := by
  unfold execCelCtlWrite
  repeat' (first
    | with_reducible assumption | with_reducible apply answers_next | with_reducible apply answers_ite | with_reducible apply keeps_ite
    | with_reducible apply writeBy_keeps | (intros; with_reducible assumption) | (intro t x ht) | (intro t ht) | split | dsimp only
    | with_reducible apply keeps_mk)

end Sys2Proof.Machine
end

