-- ==== Sys2Proof/Laws/KeepsMgmt.lean ====
section
/-! SUPPORT. One lemma for each operation and each meaning of the system controller, fatal errors, the chain, the console and the commands:
it leaves the variant, device time and the queue of commands alone and keeps the canonical form of the memory; a meaning always answers
a next state. -/

namespace Sys2Proof.Machine

/-! ### ScAccess -/

theorem scClear_keeps {M : List Host.Cell → Prop} {z₀ : State} (s : State) (k₀ : Keeps M z₀ s) : Keeps M z₀ (scClear s) := by
  unfold scClear
  repeat' (first
    | with_reducible assumption | with_reducible apply keeps_ite | (intros; with_reducible assumption) | (intro t x ht) | (intro t ht)
    | split | dsimp only | with_reducible apply keeps_mk)

theorem scIssue_keeps {M : List Host.Cell → Prop} {z₀ : State} (s : State) (r : Req) (k₀ : Keeps M z₀ s) : Keeps M z₀ (scIssue s r) := by
  unfold scIssue
  repeat' (first
    | with_reducible assumption | with_reducible apply keeps_ite | with_reducible apply takeUid_keeps
    | with_reducible apply submitAccess_keeps | with_reducible apply submitReg_keeps | (intros; with_reducible assumption)
    | (intro t x ht) | (intro t ht) | split | dsimp only | with_reducible apply keeps_mk)

theorem scTake_keeps {M : List Host.Cell → Prop} {z₀ : State} (s : State) (k₀ : Keeps M z₀ s) : Keeps M z₀ (scTake s).2 := by
  unfold scTake
  split
  · rename_i a ha
    have h : Keeps M z₀ (scAnswer s a).2 := by
      unfold scAnswer
      exact scClear_keeps _ (keeps_ite (countSat_keeps _ _ _ _ _ k₀) k₀)
    generalize scAnswer s a = x at h
    dsimp only
    split
    · exact h
    · exact k₀
  · exact k₀

theorem scRequest_keeps {M : List Host.Cell → Prop} {z₀ : State} (s : State) (r : Req) (k₀ : Keeps M z₀ s) : Keeps M z₀ (scRequest s r).2
    := by
  unfold scRequest
  repeat' (first
    | with_reducible assumption | with_reducible apply keeps_ite | with_reducible apply scClear_keeps | with_reducible apply scIssue_keeps
    | with_reducible apply scTake_keeps | (intros; with_reducible assumption) | (intro t x ht) | (intro t ht) | split | dsimp only
    | with_reducible apply keeps_mk)

theorem scAccess_keeps {M : List Host.Cell → Prop} {z₀ : State} (s : State) (op : Op) (addr : Nat) (v : Word64) (k₀ : Keeps M z₀ s) : Keeps
    M z₀ (scAccess s op addr v).2 := by
  unfold scAccess
  repeat' (first
    | with_reducible assumption | with_reducible apply keeps_ite | with_reducible apply scRequest_keeps
    | (intros; with_reducible assumption) | (intro t x ht) | (intro t ht) | split | dsimp only | with_reducible apply keeps_mk)

theorem scLine_keeps {M : List Host.Cell → Prop} {z₀ : State} (s : State) (addr : Nat) (k₀ : Keeps M z₀ s) : Keeps M z₀ (scLine s addr).2
    := by
  unfold scLine
  repeat' (first
    | with_reducible assumption | with_reducible apply keeps_ite | with_reducible apply scRequest_keeps
    | (intros; with_reducible assumption) | (intro t x ht) | (intro t ht) | split | dsimp only | with_reducible apply keeps_mk)

theorem scRead_keeps {M : List Host.Cell → Prop} {z₀ : State} (s : State) (key : Nat) (k₀ : Keeps M z₀ s) : Keeps M z₀ (scRead s key).2 :=
    by
  unfold scRead
  repeat' (first
    | with_reducible assumption | with_reducible apply keeps_ite | with_reducible apply scAccess_keeps
    | (intros; with_reducible assumption) | (intro t x ht) | (intro t ht) | split | dsimp only | with_reducible apply keeps_mk)

theorem scWrite_keeps {M : List Host.Cell → Prop} {z₀ : State} (s : State) (key : Nat) (v : Word64) (k₀ : Keeps M z₀ s) : Keeps M z₀
    (scWrite s key v).2 := by
  unfold scWrite
  repeat' (first
    | with_reducible assumption | with_reducible apply keeps_ite | with_reducible apply scAccess_keeps
    | (intros; with_reducible assumption) | (intro t x ht) | (intro t ht) | split | dsimp only | with_reducible apply keeps_mk)

theorem scUpdate_keeps {M : List Host.Cell → Prop} {z₀ : State} (s : State) (key : Nat) (f : Word64 → Word64) (k₀ : Keeps M z₀ s) : Keeps M
    z₀ (scUpdate s key f).2 := by
  unfold scUpdate
  repeat' (first
    | with_reducible assumption | with_reducible apply keeps_ite | with_reducible apply scTake_keeps | with_reducible apply scRead_keeps
    | with_reducible apply scWrite_keeps | (intros; with_reducible assumption) | (intro t x ht) | (intro t ht) | split | dsimp only
    | with_reducible apply keeps_mk)

/-! ### Fatal -/

theorem setCellar_keeps {M : List Host.Cell → Prop} {z₀ : State} (s : State) (f : Cellar → Cellar) (k₀ : Keeps M z₀ s) : Keeps M z₀
    (setCellar s f) := by
  unfold setCellar
  repeat' (first
    | with_reducible assumption | with_reducible apply keeps_ite | (intros; with_reducible assumption) | (intro t x ht) | (intro t ht)
    | split | dsimp only | with_reducible apply keeps_mk)

theorem cellarIssue_keeps {M : List Host.Cell → Prop} {z₀ : State} (s : State) (op : Op) (addr : Nat) (bs : List Byte) (k₀ : Keeps M z₀ s)
    : Keeps M z₀ (cellarIssue s op addr bs) := by
  unfold cellarIssue
  repeat' (first
    | with_reducible assumption | with_reducible apply keeps_ite | with_reducible apply takeUid_keeps | with_reducible apply refuse_keeps
    | with_reducible apply toBanks_keeps | with_reducible apply setCellar_keeps | (intros; with_reducible assumption) | (intro t x ht)
    | (intro t ht) | split | dsimp only | with_reducible apply keeps_mk)

theorem cellarNext_keeps {M : List Host.Cell → Prop} {z₀ : State} (s : State) (k₀ : Keeps M z₀ s) : Keeps M z₀ (cellarNext s) := by
  unfold cellarNext
  repeat' (first
    | with_reducible assumption | with_reducible apply keeps_ite | with_reducible apply setCellar_keeps
    | with_reducible apply cellarIssue_keeps | (intros; with_reducible assumption) | (intro t x ht) | (intro t ht) | split | dsimp only
    | with_reducible apply keeps_mk)

theorem cellarTook_keeps {M : List Host.Cell → Prop} {z₀ : State} (s : State) (a : EngAcc) (k₀ : Keeps M z₀ s) : Keeps M z₀ (cellarTook s
    a) := by
  unfold cellarTook
  repeat' (first
    | with_reducible assumption | with_reducible apply keeps_ite | with_reducible apply countSat_keeps
    | with_reducible apply setCellar_keeps | (intros; with_reducible assumption) | (intro t x ht) | (intro t ht) | split | dsimp only
    | with_reducible apply keeps_mk)

theorem cellarCycle_keeps {M : List Host.Cell → Prop} {z₀ : State} (s : State) (k₀ : Keeps M z₀ s) : Keeps M z₀ (cellarCycle s) := by
  unfold cellarCycle
  repeat' (first
    | with_reducible assumption | with_reducible apply keeps_ite | with_reducible apply cellarNext_keeps
    | with_reducible apply cellarTook_keeps | (intros; with_reducible assumption) | (intro t x ht) | (intro t ht) | split | dsimp only
    | with_reducible apply keeps_mk)

theorem fatalResult_keeps {M : List Host.Cell → Prop} {z₀ : State} (s : State) (result : Nat) (k₀ : Keeps M z₀ s) : Keeps M z₀ (fatalResult
    s result) := by
  unfold fatalResult
  repeat' (first
    | with_reducible assumption | with_reducible apply keeps_ite | with_reducible apply wrF_keeps | with_reducible apply raiseSource_keeps
    | (intros; with_reducible assumption) | (intro t x ht) | (intro t ht) | split | dsimp only | with_reducible apply keeps_mk)

theorem fatalDetected_keeps {M : List Host.Cell → Prop} {z₀ : State} (s : State) (cause detail : Nat) (k₀ : Keeps M z₀ s) : Keeps M z₀
    (fatalDetected s cause detail) := by
  unfold fatalDetected
  repeat' (first
    | with_reducible assumption | with_reducible apply keeps_ite | with_reducible apply wr_keeps | with_reducible apply wrF_keeps
    | with_reducible apply wrB_keeps | with_reducible apply freezeCounters_keeps | (intros; with_reducible assumption) | (intro t x ht)
    | (intro t ht) | split | dsimp only | with_reducible apply keeps_mk)

theorem scOnFatal_keeps {M : List Host.Cell → Prop} {z₀ : State} (s : State) (k₀ : Keeps M z₀ s) : Keeps M z₀ (scOnFatal s) := by
  unfold scOnFatal
  repeat' (first
    | with_reducible assumption | with_reducible apply keeps_ite | with_reducible apply setEngState_keeps
    | with_reducible apply setCellar_keeps | with_reducible apply fatalResult_keeps | with_reducible apply keeps_foldl
    | (intros; with_reducible assumption) | (intro t x ht) | (intro t ht) | split | dsimp only | with_reducible apply keeps_mk)

theorem execFatalError_keeps {M : List Host.Cell → Prop} {z₀ : State} (cause : BitVec 8) (detail : BitVec 32) (s : State) (k₀ : Keeps M z₀
    s) : Answers M z₀ (execFatalError cause detail s) := by
  unfold execFatalError
  repeat' (first
    | with_reducible assumption | with_reducible apply answers_next | with_reducible apply answers_ite | with_reducible apply keeps_ite
    | with_reducible apply addSat_keeps | with_reducible apply fatalDetected_keeps | with_reducible apply scOnFatal_keeps
    | (intros; with_reducible assumption) | (intro t x ht) | (intro t ht) | split | dsimp only | with_reducible apply keeps_mk)

theorem execCellarRecordDone_keeps {M : List Host.Cell → Prop} {z₀ : State} (s : State) (k₀ : Keeps M z₀ s) : Answers M z₀
    (execCellarRecordDone s) := by
  unfold execCellarRecordDone
  repeat' (first
    | with_reducible assumption | with_reducible apply answers_next | with_reducible apply answers_ite | with_reducible apply keeps_ite
    | with_reducible apply fatalResult_keeps | (intros; with_reducible assumption) | (intro t x ht) | (intro t ht) | split | dsimp only
    | with_reducible apply keeps_mk)

theorem execFatalWatchdog_keeps {M : List Host.Cell → Prop} {z₀ : State} (s : State) (k₀ : Keeps M z₀ s) : Answers M z₀ (execFatalWatchdog
    s) := by
  unfold execFatalWatchdog
  repeat' (first
    | with_reducible assumption | with_reducible apply answers_next | with_reducible apply answers_ite | with_reducible apply keeps_ite
    | with_reducible apply fatalResult_keeps | (intros; with_reducible assumption) | (intro t x ht) | (intro t ht) | split | dsimp only
    | with_reducible apply keeps_mk)

/-! ### Mgmt -/

theorem passBytes_keeps {M : List Host.Cell → Prop} {z₀ : State} (s : State) (f : ChainFrame) (bytes : List Byte) (k₀ : Keeps M z₀ s) :
    Keeps M z₀ (passBytes s f bytes) := by
  unfold passBytes
  repeat' (first
    | with_reducible assumption | with_reducible apply keeps_ite | with_reducible apply emit_keeps | (intros; with_reducible assumption)
    | (intro t x ht) | (intro t ht) | split | dsimp only | with_reducible apply keeps_mk)

theorem passFrame_keeps {M : List Host.Cell → Prop} {z₀ : State} (s : State) (f : ChainFrame) (bytes : List Byte) (k₀ : Keeps M z₀ s) :
    Keeps M z₀ (passFrame s f bytes) := by
  unfold passFrame
  repeat' (first
    | with_reducible assumption | with_reducible apply keeps_ite | with_reducible apply passBytes_keeps
    | (intros; with_reducible assumption) | (intro t x ht) | (intro t ht) | split | dsimp only | with_reducible apply keeps_mk)

theorem passReply_keeps {M : List Host.Cell → Prop} {z₀ : State} (s : State) (f : ChainFrame) (bytes reply : List Byte) (k₀ : Keeps M z₀ s)
    : Keeps M z₀ (passReply s f bytes reply) := by
  unfold passReply
  repeat' (first
    | with_reducible assumption | with_reducible apply keeps_ite | with_reducible apply passBytes_keeps
    | (intros; with_reducible assumption) | (intro t x ht) | (intro t ht) | split | dsimp only | with_reducible apply keeps_mk)

theorem countFate_keeps {M : List Host.Cell → Prop} {z₀ : State} (s : State) (x : FrameFate) (k₀ : Keeps M z₀ s) : Keeps M z₀ (countFate s
    x) := by
  unfold countFate
  repeat' (first
    | with_reducible assumption | with_reducible apply keeps_ite | with_reducible apply countSat_keeps
    | (intros; with_reducible assumption) | (intro t x ht) | (intro t ht) | split | dsimp only | with_reducible apply keeps_mk)

theorem countActed_keeps {M : List Host.Cell → Prop} {z₀ : State} (s : State) (k₀ : Keeps M z₀ s) : Keeps M z₀ (countActed s) := by
  unfold countActed
  repeat' (first
    | with_reducible assumption | with_reducible apply keeps_ite | with_reducible apply countWrap_keeps
    | (intros; with_reducible assumption) | (intro t x ht) | (intro t ht) | split | dsimp only | with_reducible apply keeps_mk)

theorem badType_keeps {M : List Host.Cell → Prop} {z₀ : State} (s : State) (f : ChainFrame) (typ : Byte) (k₀ : Keeps M z₀ s) : Keeps M z₀
    (badType s f typ) := by
  unfold badType
  repeat' (first
    | with_reducible assumption | with_reducible apply keeps_ite | with_reducible apply countSat_keeps
    | with_reducible apply passFrame_keeps | with_reducible apply countFate_keeps | (intros; with_reducible assumption) | (intro t x ht)
    | (intro t ht) | split | dsimp only | with_reducible apply keeps_mk)

theorem execEnumFrame_keeps {M : List Host.Cell → Prop} {z₀ : State} (f : ChainFrame) (s : State) (k₀ : Keeps M z₀ s) : Answers M z₀
    (execEnumFrame f s) := by
  unfold execEnumFrame
  repeat' (first
    | with_reducible assumption | with_reducible apply answers_next | with_reducible apply answers_ite | with_reducible apply keeps_ite
    | with_reducible apply wr_keeps | with_reducible apply passFrame_keeps | with_reducible apply countFate_keeps
    | with_reducible apply countActed_keeps | with_reducible apply badType_keeps | (intros; with_reducible assumption) | (intro t x ht)
    | (intro t ht) | split | dsimp only | with_reducible apply keeps_mk)

theorem execPollFrame_keeps {M : List Host.Cell → Prop} {z₀ : State} (f : ChainFrame) (s : State) (k₀ : Keeps M z₀ s) : Answers M z₀
    (execPollFrame f s) := by
  unfold execPollFrame
  repeat' (first
    | with_reducible assumption | with_reducible apply answers_next | with_reducible apply answers_ite | with_reducible apply keeps_ite
    | with_reducible apply countSat_keeps | with_reducible apply passFrame_keeps | with_reducible apply passReply_keeps
    | with_reducible apply countFate_keeps | with_reducible apply countActed_keeps | with_reducible apply badType_keeps
    | (intros; with_reducible assumption) | (intro t x ht) | (intro t ht) | split | dsimp only | with_reducible apply keeps_mk)

theorem execStatusFrame_keeps {M : List Host.Cell → Prop} {z₀ : State} (f : ChainFrame) (s : State) (k₀ : Keeps M z₀ s) : Answers M z₀
    (execStatusFrame f s) := by
  unfold execStatusFrame
  repeat' (first
    | with_reducible assumption | with_reducible apply answers_next | with_reducible apply answers_ite | with_reducible apply keeps_ite
    | with_reducible apply passFrame_keeps | with_reducible apply passReply_keeps | with_reducible apply countFate_keeps
    | with_reducible apply countActed_keeps | with_reducible apply badType_keeps | (intros; with_reducible assumption) | (intro t x ht)
    | (intro t ht) | split | dsimp only | with_reducible apply keeps_mk)

theorem peekIssue_keeps {M : List Host.Cell → Prop} {z₀ : State} (s : State) (k₀ : Keeps M z₀ s) : Keeps M z₀ (peekIssue s) := by
  unfold peekIssue
  repeat' (first
    | with_reducible assumption | with_reducible apply keeps_ite | with_reducible apply takeUid_keeps
    | with_reducible apply submitReg_keeps | (intros; with_reducible assumption) | (intro t x ht) | (intro t ht) | split | dsimp only
    | with_reducible apply keeps_mk)

theorem peekBegin_keeps {M : List Host.Cell → Prop} {z₀ : State} (s : State) (a : Nat) (k₀ : Keeps M z₀ s) : Keeps M z₀ (peekBegin s a) :=
    by
  unfold peekBegin
  repeat' (first
    | with_reducible assumption | with_reducible apply keeps_ite | with_reducible apply peekIssue_keeps
    | (intros; with_reducible assumption) | (intro t x ht) | (intro t ht) | split | dsimp only | with_reducible apply keeps_mk)

theorem peekTake_keeps {M : List Host.Cell → Prop} {z₀ : State} (s : State) (k₀ : Keeps M z₀ s) : Keeps M z₀ (peekTake s) := by
  unfold peekTake
  repeat' (first
    | with_reducible assumption | with_reducible apply keeps_ite | (intros; with_reducible assumption) | (intro t x ht) | (intro t ht)
    | split | dsimp only | with_reducible apply keeps_mk)

theorem execPeekFrame_keeps {M : List Host.Cell → Prop} {z₀ : State} (f : ChainFrame) (s : State) (k₀ : Keeps M z₀ s) : Answers M z₀
    (execPeekFrame f s) := by
  unfold execPeekFrame
  repeat' (first
    | with_reducible assumption | with_reducible apply answers_next | with_reducible apply answers_ite | with_reducible apply keeps_ite
    | with_reducible apply passFrame_keeps | with_reducible apply passReply_keeps | with_reducible apply countFate_keeps
    | with_reducible apply countActed_keeps | with_reducible apply badType_keeps | with_reducible apply peekBegin_keeps
    | (intros; with_reducible assumption) | (intro t x ht) | (intro t ht) | split | dsimp only | with_reducible apply keeps_mk)

theorem execPeekDone_keeps {M : List Host.Cell → Prop} {z₀ : State} (s : State) (k₀ : Keeps M z₀ s) : Answers M z₀ (execPeekDone s) := by
  unfold execPeekDone
  repeat' (first
    | with_reducible assumption | with_reducible apply answers_next | with_reducible apply answers_ite | with_reducible apply keeps_ite
    | with_reducible apply peekIssue_keeps | with_reducible apply peekTake_keeps | (intros; with_reducible assumption) | (intro t x ht)
    | (intro t ht) | split | dsimp only | with_reducible apply keeps_mk)

theorem execUndefinedTypeFrame_keeps {M : List Host.Cell → Prop} {z₀ : State} (f : ChainFrame) (typ : Byte) (s : State) (k₀ : Keeps M z₀ s)
    : Answers M z₀ (execUndefinedTypeFrame f typ s) := by
  unfold execUndefinedTypeFrame
  repeat' (first
    | with_reducible assumption | with_reducible apply answers_next | with_reducible apply answers_ite | with_reducible apply keeps_ite
    | with_reducible apply badType_keeps | (intros; with_reducible assumption) | (intro t x ht) | (intro t ht) | split | dsimp only
    | with_reducible apply keeps_mk)

/-! ### ShexaText -/

theorem execLineFrame_keeps {M : List Host.Cell → Prop} {z₀ : State} (f : ChainFrame) (s : State) (k₀ : Keeps M z₀ s) : Answers M z₀
    (execLineFrame f s) := by
  unfold execLineFrame
  repeat' (first
    | with_reducible assumption | with_reducible apply answers_next | with_reducible apply answers_ite | with_reducible apply keeps_ite
    | with_reducible apply countSat_keeps | with_reducible apply passFrame_keeps | with_reducible apply countFate_keeps
    | with_reducible apply countActed_keeps | (intros; with_reducible assumption) | with_reducible apply cmdKeeps_ite | (intro t ws ht)
    | (intro t ht) | (intro n) | (intro t x ht) | (intro t ht) | split | dsimp only | with_reducible apply keeps_mk)

theorem setSess_keeps {M : List Host.Cell → Prop} {z₀ : State} (s : State) (x : Session) (v : SessState) (k₀ : Keeps M z₀ s) : Keeps M z₀
    (setSess s x v) := by
  unfold setSess
  repeat' (first
    | with_reducible assumption | with_reducible apply keeps_ite | (intros; with_reducible assumption) | with_reducible apply cmdKeeps_ite
    | (intro t ws ht) | (intro t ht) | (intro n) | (intro t x ht) | (intro t ht) | split | dsimp only | with_reducible apply keeps_mk)

theorem sendReply_keeps {M : List Host.Cell → Prop} {z₀ : State} (s : State) (x : Session) (r : Reply) (k₀ : Keeps M z₀ s) : Keeps M z₀
    (sendReply s x r) := by
  unfold sendReply
  repeat' (first
    | with_reducible assumption | with_reducible apply keeps_ite | with_reducible apply countSat_keeps
    | with_reducible apply consoleWrite_keeps | (intros; with_reducible assumption) | with_reducible apply cmdKeeps_ite | (intro t ws ht)
    | (intro t ht) | (intro n) | (intro t x ht) | (intro t ht) | split | dsimp only | with_reducible apply keeps_mk)

theorem replyOver_keeps {M : List Host.Cell → Prop} {z₀ : State} (s : State) (k₀ : Keeps M z₀ s) : Keeps M z₀ (replyOver s) := by
  unfold replyOver
  repeat' (first
    | with_reducible assumption | with_reducible apply keeps_ite | with_reducible apply consoleLine_keeps
    | with_reducible apply ownPrompt_keeps | with_reducible apply keeps_foldl | (intros; with_reducible assumption)
    | with_reducible apply cmdKeeps_ite | (intro t ws ht) | (intro t ht) | (intro n) | (intro t x ht) | (intro t ht) | split | dsimp only
    | with_reducible apply keeps_mk)

theorem afterReply_keeps {M : List Host.Cell → Prop} {z₀ : State} (s : State) (x : Session) (k₀ : Keeps M z₀ s) : Keeps M z₀ (afterReply s
    x) := by
  unfold afterReply
  repeat' (first
    | with_reducible assumption | with_reducible apply keeps_ite | with_reducible apply replyOver_keeps
    | (intros; with_reducible assumption) | with_reducible apply cmdKeeps_ite | (intro t ws ht) | (intro t ht) | (intro n)
    | (intro t x ht) | (intro t ht) | split | dsimp only | with_reducible apply keeps_mk)

theorem consoleTurn_keeps {M : List Host.Cell → Prop} {z₀ : State} (s : State) (k₀ : Keeps M z₀ s) : Keeps M z₀ (consoleTurn s) := by
  unfold consoleTurn
  repeat' (first
    | with_reducible assumption | with_reducible apply keeps_ite | with_reducible apply consoleWrite_keeps
    | with_reducible apply afterReply_keeps | (intros; with_reducible assumption) | with_reducible apply cmdKeeps_ite | (intro t ws ht)
    | (intro t ht) | (intro n) | (intro t x ht) | (intro t ht) | split | dsimp only | with_reducible apply keeps_mk)

theorem endLine_keeps {M : List Host.Cell → Prop} {z₀ : State} (s : State) (x : Session) (r : Reply) (k₀ : Keeps M z₀ s) : Keeps M z₀
    (endLine s x r) := by
  unfold endLine
  repeat' (first
    | with_reducible assumption | with_reducible apply keeps_ite | with_reducible apply sendReply_keeps
    | (intros; with_reducible assumption) | with_reducible apply cmdKeeps_ite | (intro t ws ht) | (intro t ht) | (intro n)
    | (intro t x ht) | (intro t ht) | split | dsimp only | with_reducible apply keeps_mk)

/-- The result of a command keeps, whatever follows its reply. -/
def CmdKeeps (M : List Host.Cell → Prop) (a : State) (r : CmdResult) : Prop := Keeps M a r.2.1 ∧ ∀ t, Keeps M a t → Keeps M a (r.2.2 t)

theorem cmdKeeps_mk {M : List Host.Cell → Prop} {a s : State} {o : Option Reply} {f : State → State} (k : Keeps M a s) (h : ∀ t, Keeps M a
    t → Keeps M a (f t)) :
    CmdKeeps M a (o, s, f) := ⟨k, h⟩

theorem cmdKeeps_ite {M : List Host.Cell → Prop} {a : State} {x y : CmdResult} {c : Prop} [Decidable c] (h : CmdKeeps M a x) (k : CmdKeeps M a y) :
    CmdKeeps M a (if c then x else y) := by
  split <;> assumption

theorem replied_keeps {M : List Host.Cell → Prop} {z₀ : State} (r : Reply) (s : State) (k₀ : Keeps M z₀ s) : CmdKeeps M z₀ (replied r s) :=
    cmdKeeps_mk k₀ (fun _ h => h)

theorem perhaps_keeps {M : List Host.Cell → Prop} {z₀ : State} (r : Option Reply) (s : State) (k₀ : Keeps M z₀ s) : CmdKeeps M z₀ (perhaps
    r s) := cmdKeeps_mk k₀ (fun _ h => h)

theorem repliedThen_keeps {M : List Host.Cell → Prop} {z₀ : State} (r : Reply) (s : State) (f : State → State) (k₀ : Keeps M z₀ s) (h : ∀
    t, Keeps M z₀ t → Keeps M z₀ (f t)) :
    CmdKeeps M z₀ (repliedThen r s f) := cmdKeeps_mk k₀ h

theorem finishLine_keeps {M : List Host.Cell → Prop} {z₀ : State} (x : Session) (res : CmdResult) (h : CmdKeeps M z₀ res) : Keeps M z₀
    (finishLine x res) := by
  unfold finishLine
  split
  · exact h.1
  · exact afterReply_keeps _ _ (h.2 _ (endLine_keeps _ _ _ (setSess_keeps _ _ _ (countWrap_keeps _ _ _ _ _ h.1))))

theorem runLine_keeps {M : List Host.Cell → Prop} {z₀ : State} (s : State) (x : Session) (row : ShexaRow) (keeper : Bool) (body : State →
    List (List Byte) → CmdResult)
    (k₀ : Keeps M z₀ s) (h : ∀ t ws, Keeps M z₀ t → CmdKeeps M z₀ (body t ws)) : Keeps M z₀ (runLine s x row keeper body) := by
  unfold runLine
  split
  · exact k₀
  · split
    · split
      · exact k₀
      · split
        · exact finishLine_keeps _ _ (cmdKeeps_ite (replied_keeps _ _ k₀) (h _ _ k₀))
        · exact k₀
    · exact k₀

/-! ### Shexa -/

theorem consoleEnd_keeps {M : List Host.Cell → Prop} {z₀ : State} (s : State) (k₀ : Keeps M z₀ s) : Keeps M z₀ (consoleEnd s) := by
  unfold consoleEnd
  repeat' (first
    | with_reducible assumption | with_reducible apply keeps_ite | (intros; with_reducible assumption) | with_reducible apply cmdKeeps_ite
    | (intro t ws ht) | (intro t ht) | (intro n) | (intro t x ht) | (intro t ht) | split | dsimp only | with_reducible apply keeps_mk)

theorem consoleKeep_keeps {M : List Host.Cell → Prop} {z₀ : State} (s : State) (c : Byte) (k₀ : Keeps M z₀ s) : Keeps M z₀ (consoleKeep s
    c) := by
  unfold consoleKeep
  repeat' (first
    | with_reducible assumption | with_reducible apply keeps_ite | (intros; with_reducible assumption) | with_reducible apply cmdKeeps_ite
    | (intro t ws ht) | (intro t ht) | (intro n) | (intro t x ht) | (intro t ht) | split | dsimp only | with_reducible apply keeps_mk)

theorem consoleBreakOff_keeps {M : List Host.Cell → Prop} {z₀ : State} (s : State) (k₀ : Keeps M z₀ s) : Keeps M z₀ (consoleBreakOff s) :=
    by
  unfold consoleBreakOff
  repeat' (first
    | with_reducible assumption | with_reducible apply keeps_ite | with_reducible apply replyOver_keeps
    | (intros; with_reducible assumption) | with_reducible apply cmdKeeps_ite | (intro t ws ht) | (intro t ht) | (intro n)
    | (intro t x ht) | (intro t ht) | split | dsimp only | with_reducible apply keeps_mk)

theorem consoleEdit_keeps {M : List Host.Cell → Prop} {z₀ : State} (s : State) (c : Byte) (k₀ : Keeps M z₀ s) : Keeps M z₀ (consoleEdit s
    c) := by
  unfold consoleEdit
  repeat' (first
    | with_reducible assumption | with_reducible apply keeps_ite | with_reducible apply consoleKeep_keeps
    | with_reducible apply consoleBreakOff_keeps | (intros; with_reducible assumption) | with_reducible apply cmdKeeps_ite
    | (intro t ws ht) | (intro t ht) | (intro n) | (intro t x ht) | (intro t ht) | split | dsimp only | with_reducible apply keeps_mk)

theorem execConsoleCharacter_keeps {M : List Host.Cell → Prop} {z₀ : State} (c : Byte) (s : State) (k₀ : Keeps M z₀ s) : Answers M z₀
    (execConsoleCharacter c s) := by
  unfold execConsoleCharacter
  repeat' (first
    | with_reducible assumption | with_reducible apply answers_next | with_reducible apply answers_ite | with_reducible apply keeps_ite
    | with_reducible apply emit_keeps | with_reducible apply consoleEnd_keeps | with_reducible apply consoleKeep_keeps
    | with_reducible apply consoleEdit_keeps | (intros; with_reducible assumption) | with_reducible apply cmdKeeps_ite | (intro t ws ht)
    | (intro t ht) | (intro n) | (intro t x ht) | (intro t ht) | split | dsimp only | with_reducible apply keeps_mk)

theorem execConsoleBreak_keeps {M : List Host.Cell → Prop} {z₀ : State} (s : State) (k₀ : Keeps M z₀ s) : Answers M z₀ (execConsoleBreak s)
    := by
  unfold execConsoleBreak
  repeat' (first
    | with_reducible assumption | with_reducible apply answers_next | with_reducible apply answers_ite | with_reducible apply keeps_ite
    | with_reducible apply wrF_keeps | (intros; with_reducible assumption) | with_reducible apply cmdKeeps_ite | (intro t ws ht)
    | (intro t ht) | (intro n) | (intro t x ht) | (intro t ht) | split | dsimp only | with_reducible apply keeps_mk)

theorem busyReply_keeps {M : List Host.Cell → Prop} {z₀ : State} (res : CmdResult) (busy : State → Bool) (h : CmdKeeps M z₀ res) : CmdKeeps
    M z₀ (busyReply res busy) := by
  unfold busyReply
  split
  · exact cmdKeeps_ite (cmdKeeps_mk h.1 h.2) h
  · exact h

theorem writeReply_keeps {M : List Host.Cell → Prop} {z₀ : State} (x : Option (Status × Nat) × State) (h : Keeps M z₀ x.2) : CmdKeeps M z₀
    (writeReply x) := cmdKeeps_mk h (fun _ h => h)

theorem cmdWrite_keeps {M : List Host.Cell → Prop} {z₀ : State} (s : State) (key : Nat) (v : Word64) (k₀ : Keeps M z₀ s) : CmdKeeps M z₀
    (cmdWrite s key v) :=
  writeReply_keeps _ (scWrite_keeps s key v k₀)

theorem writeAfter_keeps {M : List Host.Cell → Prop} {z₀ : State} (s : State) (f : State → Option (Status × Nat) × State) (k₀ : Keeps M z₀ s)
    (hf : ∀ t, Keeps M z₀ t → Keeps M z₀ (f t).2) : CmdKeeps M z₀ (writeAfter s f) := by
  have h := hf s k₀
  unfold writeAfter
  generalize f s = x at h
  obtain ⟨o, u⟩ := x
  cases o with
  | none => exact perhaps_keeps _ _ h
  | some p =>
    obtain ⟨st, v⟩ := p
    exact cmdKeeps_ite (repliedThen_keeps _ _ _ k₀ hf) (replied_keeps _ _ h)

theorem cmdWriteAfter_keeps {M : List Host.Cell → Prop} {z₀ : State} (s : State) (key : Nat) (v : Word64) (k₀ : Keeps M z₀ s) : CmdKeeps M
    z₀ (cmdWriteAfter s key v) :=
  writeAfter_keeps _ _ k₀ (fun _ h => scWrite_keeps _ _ _ h)

theorem setReply_keeps {M : List Host.Cell → Prop} {z₀ : State} (s : State) (key : Nat) (f : State → Option (Status × Nat) × State) (k₀ :
    Keeps M z₀ s)
    (hf : ∀ t, Keeps M z₀ t → Keeps M z₀ (f t).2) : CmdKeeps M z₀ (setReply s key f) := by
  unfold setReply
  exact cmdKeeps_ite (writeAfter_keeps _ _ k₀ hf) (writeReply_keeps _ (hf _ k₀))

theorem cmdSetFields_keeps {M : List Host.Cell → Prop} {z₀ : State} (s : State) (key : Nat) (l : List (Fld × Nat)) (k₀ : Keeps M z₀ s) :
    CmdKeeps M z₀ (cmdSetFields s key l) := by
  unfold cmdSetFields
  cases findRow key with
  | none => exact replied_keeps _ _ k₀
  | some r => exact writeReply_keeps _ (scUpdate_keeps _ _ _ k₀)

theorem withWords_keeps {M : List Host.Cell → Prop} {z₀ : State} (s : State) (ws : List (List Byte)) (n : Nat) (k : CmdResult) (k₀ : Keeps
    M z₀ s) (h_k : CmdKeeps M z₀ k) : CmdKeeps M z₀ (withWords s ws n k) := by
  unfold withWords
  repeat' (first
    | with_reducible assumption | with_reducible apply keeps_ite | with_reducible apply replied_keeps | (intros; with_reducible assumption)
    | with_reducible apply cmdKeeps_ite | (intro t ws ht) | (intro t ht) | (intro n) | exact h_k _ | (intro t x ht) | (intro t ht)
    | split | dsimp only | with_reducible apply keeps_mk)

theorem withArg_keeps {M : List Host.Cell → Prop} {z₀ : State} (s : State) (a : Option Nat) (k : Nat → CmdResult) (k₀ : Keeps M z₀ s) (h_k
    : ∀ n, CmdKeeps M z₀ (k n)) : CmdKeeps M z₀ (withArg s a k) := by
  unfold withArg
  repeat' (first
    | with_reducible assumption | with_reducible apply keeps_ite | with_reducible apply replied_keeps | (intros; with_reducible assumption)
    | with_reducible apply cmdKeeps_ite | (intro t ws ht) | (intro t ht) | (intro n) | exact h_k _ | (intro t x ht) | (intro t ht)
    | split | dsimp only | with_reducible apply keeps_mk)

theorem withPort_keeps {M : List Host.Cell → Prop} {z₀ : State} (s : State) (w : List Byte) (k : Nat → CmdResult) (k₀ : Keeps M z₀ s) (h_k
    : ∀ n, CmdKeeps M z₀ (k n)) : CmdKeeps M z₀ (withPort s w k) := by
  unfold withPort
  repeat' (first
    | with_reducible assumption | with_reducible apply keeps_ite | with_reducible apply replied_keeps | with_reducible apply withArg_keeps
    | (intros; with_reducible assumption) | with_reducible apply cmdKeeps_ite | (intro t ws ht) | (intro t ht) | (intro n) | exact h_k _
    | (intro t x ht) | (intro t ht) | split | dsimp only | with_reducible apply keeps_mk)

theorem withEngine_keeps {M : List Host.Cell → Prop} {z₀ : State} (s : State) (w : List Byte) (k : Nat → CmdResult) (k₀ : Keeps M z₀ s)
    (h_k : ∀ n, CmdKeeps M z₀ (k n)) : CmdKeeps M z₀ (withEngine s w k) := by
  unfold withEngine
  repeat' (first
    | with_reducible assumption | with_reducible apply keeps_ite | with_reducible apply replied_keeps | with_reducible apply withArg_keeps
    | (intros; with_reducible assumption) | with_reducible apply cmdKeeps_ite | (intro t ws ht) | (intro t ht) | (intro n) | exact h_k _
    | (intro t x ht) | (intro t ht) | split | dsimp only | with_reducible apply keeps_mk)

theorem withKeyword_keeps {M : List Host.Cell → Prop} {z₀ : State} (s : State) (words : List String) (w : List Byte) (k : Nat → CmdResult)
    (k₀ : Keeps M z₀ s) (h_k : ∀ n, CmdKeeps M z₀ (k n)) : CmdKeeps M z₀ (withKeyword s words w k) := by
  unfold withKeyword
  repeat' (first
    | with_reducible assumption | with_reducible apply keeps_ite | with_reducible apply replied_keeps | (intros; with_reducible assumption)
    | with_reducible apply cmdKeeps_ite | (intro t ws ht) | (intro t ht) | (intro n) | exact h_k _ | (intro t x ht) | (intro t ht)
    | split | dsimp only | with_reducible apply keeps_mk)

theorem withField_keeps {M : List Host.Cell → Prop} {z₀ : State} (s : State) (w : List Byte) (width : Nat) (k : Nat → CmdResult) (k₀ :
    Keeps M z₀ s) (h_k : ∀ n, CmdKeeps M z₀ (k n)) : CmdKeeps M z₀ (withField s w width k) := by
  unfold withField
  repeat' (first
    | with_reducible assumption | with_reducible apply keeps_ite | with_reducible apply replied_keeps | with_reducible apply withArg_keeps
    | (intros; with_reducible assumption) | with_reducible apply cmdKeeps_ite | (intro t ws ht) | (intro t ht) | (intro n) | exact h_k _
    | (intro t x ht) | (intro t ht) | split | dsimp only | with_reducible apply keeps_mk)

theorem freeLines_keeps {M : List Host.Cell → Prop} {z₀ : State} (s : State) (kind : Nat) (k₀ : Keeps M z₀ s) : CmdKeeps M z₀ (freeLines s
    kind) := by
  unfold freeLines
  repeat' (first
    | with_reducible assumption | with_reducible apply keeps_ite | with_reducible apply replied_keeps | (intros; with_reducible assumption)
    | with_reducible apply cmdKeeps_ite | (intro t ws ht) | (intro t ht) | (intro n) | (intro t x ht) | (intro t ht) | split | dsimp only
    | with_reducible apply keeps_mk)

theorem execHelpCmd_keeps {M : List Host.Cell → Prop} {z₀ : State} (sess : Session) (s : State) (k₀ : Keeps M z₀ s) : Answers M z₀
    (execHelpCmd sess s) := by
  unfold execHelpCmd
  repeat' (first
    | with_reducible assumption | with_reducible apply answers_next | with_reducible apply answers_ite | with_reducible apply keeps_ite
    | with_reducible apply runLine_keeps | with_reducible apply withWords_keeps | with_reducible apply withKeyword_keeps
    | with_reducible apply freeLines_keeps | (intros; with_reducible assumption) | with_reducible apply cmdKeeps_ite | (intro t ws ht)
    | (intro t ht) | (intro n) | (intro t x ht) | (intro t ht) | split | dsimp only | with_reducible apply keeps_mk)

theorem execShowCmd_keeps {M : List Host.Cell → Prop} {z₀ : State} (sess : Session) (s : State) (k₀ : Keeps M z₀ s) : Answers M z₀
    (execShowCmd sess s) := by
  unfold execShowCmd
  repeat' (first
    | with_reducible assumption | with_reducible apply answers_next | with_reducible apply answers_ite | with_reducible apply keeps_ite
    | with_reducible apply replied_keeps | with_reducible apply runLine_keeps | with_reducible apply withWords_keeps
    | with_reducible apply withPort_keeps | with_reducible apply withKeyword_keeps | with_reducible apply freeLines_keeps
    | (intros; with_reducible assumption) | with_reducible apply cmdKeeps_ite | (intro t ws ht) | (intro t ht) | (intro n)
    | (intro t x ht) | (intro t ht) | split | dsimp only | with_reducible apply keeps_mk)

theorem cmdRead_keeps {M : List Host.Cell → Prop} {z₀ : State} (s : State) (keeper : Bool) (a : Nat) (shown : Nat → List Byte) (k₀ : Keeps
    M z₀ s) : CmdKeeps M z₀ (cmdRead s keeper a shown) := by
  unfold cmdRead
  repeat' (first
    | with_reducible assumption | with_reducible apply keeps_ite | with_reducible apply scAccess_keeps | with_reducible apply replied_keeps
    | with_reducible apply perhaps_keeps | (intros; with_reducible assumption) | with_reducible apply cmdKeeps_ite | (intro t ws ht)
    | (intro t ht) | (intro n) | (intro t x ht) | (intro t ht) | split | dsimp only | with_reducible apply keeps_mk)

theorem execGetCmd_keeps {M : List Host.Cell → Prop} {z₀ : State} (sess : Session) (s : State) (k₀ : Keeps M z₀ s) : Answers M z₀
    (execGetCmd sess s) := by
  unfold execGetCmd
  repeat' (first
    | with_reducible assumption | with_reducible apply answers_next | with_reducible apply answers_ite | with_reducible apply keeps_ite
    | with_reducible apply replied_keeps | with_reducible apply runLine_keeps | with_reducible apply withWords_keeps
    | with_reducible apply cmdRead_keeps | (intros; with_reducible assumption) | with_reducible apply cmdKeeps_ite | (intro t ws ht)
    | (intro t ht) | (intro n) | (intro t x ht) | (intro t ht) | split | dsimp only | with_reducible apply keeps_mk)

theorem execSetCmd_keeps {M : List Host.Cell → Prop} {z₀ : State} (sess : Session) (s : State) (k₀ : Keeps M z₀ s) : Answers M z₀
    (execSetCmd sess s) := by
  unfold execSetCmd
  repeat' (first
    | with_reducible assumption | with_reducible apply answers_next | with_reducible apply answers_ite | with_reducible apply keeps_ite
    | with_reducible apply scAccess_keeps | with_reducible apply scWrite_keeps | with_reducible apply scUpdate_keeps
    | with_reducible apply replied_keeps | with_reducible apply runLine_keeps | with_reducible apply setReply_keeps
    | with_reducible apply withWords_keeps | with_reducible apply withField_keeps | (intros; with_reducible assumption)
    | with_reducible apply cmdKeeps_ite | (intro t ws ht) | (intro t ht) | (intro n) | (intro t x ht) | (intro t ht) | split | dsimp only
    | with_reducible apply keeps_mk)

theorem modeAfter_keeps {M : List Host.Cell → Prop} {z₀ : State} (sess : Session) (machine : Bool) (s : State) (k₀ : Keeps M z₀ s) : Keeps
    M z₀ (modeAfter sess machine s) := by
  unfold modeAfter
  repeat' (first
    | with_reducible assumption | with_reducible apply keeps_ite | with_reducible apply setSess_keeps | (intros; with_reducible assumption)
    | with_reducible apply cmdKeeps_ite | (intro t ws ht) | (intro t ht) | (intro n) | (intro t x ht) | (intro t ht) | split | dsimp only
    | with_reducible apply keeps_mk)

theorem execModeHuman_keeps {M : List Host.Cell → Prop} {z₀ : State} (sess : Session) (s : State) (k₀ : Keeps M z₀ s) : Answers M z₀
    (execModeHuman sess s) := by
  unfold execModeHuman
  repeat' (first
    | with_reducible assumption | with_reducible apply answers_next | with_reducible apply answers_ite | with_reducible apply keeps_ite
    | with_reducible apply repliedThen_keeps | with_reducible apply runLine_keeps | with_reducible apply withWords_keeps
    | with_reducible apply modeAfter_keeps | (intros; with_reducible assumption) | with_reducible apply cmdKeeps_ite | (intro t ws ht)
    | (intro t ht) | (intro n) | (intro t x ht) | (intro t ht) | split | dsimp only | with_reducible apply keeps_mk)

theorem execModeMachine_keeps {M : List Host.Cell → Prop} {z₀ : State} (sess : Session) (s : State) (k₀ : Keeps M z₀ s) : Answers M z₀
    (execModeMachine sess s) := by
  unfold execModeMachine
  repeat' (first
    | with_reducible assumption | with_reducible apply answers_next | with_reducible apply answers_ite | with_reducible apply keeps_ite
    | with_reducible apply repliedThen_keeps | with_reducible apply runLine_keeps | with_reducible apply withWords_keeps
    | with_reducible apply modeAfter_keeps | (intros; with_reducible assumption) | with_reducible apply cmdKeeps_ite | (intro t ws ht)
    | (intro t ht) | (intro n) | (intro t x ht) | (intro t ht) | split | dsimp only | with_reducible apply keeps_mk)

theorem setLevel_keeps {M : List Host.Cell → Prop} {z₀ : State} (s : State) (sess : Session) (keeper : Bool) (k₀ : Keeps M z₀ s) : Keeps M
    z₀ (setLevel s sess keeper) := by
  unfold setLevel
  repeat' (first
    | with_reducible assumption | with_reducible apply keeps_ite | with_reducible apply setSess_keeps | (intros; with_reducible assumption)
    | with_reducible apply cmdKeeps_ite | (intro t ws ht) | (intro t ht) | (intro n) | (intro t x ht) | (intro t ht) | split | dsimp only
    | with_reducible apply keeps_mk)

theorem failedUnlock_keeps {M : List Host.Cell → Prop} {z₀ : State} (s : State) (k₀ : Keeps M z₀ s) : Keeps M z₀ (failedUnlock s) := by
  unfold failedUnlock
  repeat' (first
    | with_reducible assumption | with_reducible apply keeps_ite | with_reducible apply wrF_keeps | with_reducible apply wrB_keeps
    | with_reducible apply addSat_keeps | (intros; with_reducible assumption) | with_reducible apply cmdKeeps_ite | (intro t ws ht)
    | (intro t ht) | (intro n) | (intro t x ht) | (intro t ht) | split | dsimp only | with_reducible apply keeps_mk)

theorem execUnlockCmd_keeps {M : List Host.Cell → Prop} {z₀ : State} (sess : Session) (s : State) (k₀ : Keeps M z₀ s) : Answers M z₀
    (execUnlockCmd sess s) := by
  unfold execUnlockCmd
  repeat' (first
    | with_reducible assumption | with_reducible apply answers_next | with_reducible apply answers_ite | with_reducible apply keeps_ite
    | with_reducible apply wrF_keeps | with_reducible apply replied_keeps | with_reducible apply runLine_keeps
    | with_reducible apply withWords_keeps | with_reducible apply setLevel_keeps | with_reducible apply failedUnlock_keeps
    | (intros; with_reducible assumption) | with_reducible apply cmdKeeps_ite | (intro t ws ht) | (intro t ht) | (intro n)
    | (intro t x ht) | (intro t ht) | split | dsimp only | with_reducible apply keeps_mk)

theorem execLockCmd_keeps {M : List Host.Cell → Prop} {z₀ : State} (sess : Session) (s : State) (k₀ : Keeps M z₀ s) : Answers M z₀
    (execLockCmd sess s) := by
  unfold execLockCmd
  repeat' (first
    | with_reducible assumption | with_reducible apply answers_next | with_reducible apply answers_ite | with_reducible apply keeps_ite
    | with_reducible apply replied_keeps | with_reducible apply runLine_keeps | with_reducible apply withWords_keeps
    | with_reducible apply setLevel_keeps | (intros; with_reducible assumption) | with_reducible apply cmdKeeps_ite | (intro t ws ht)
    | (intro t ht) | (intro n) | (intro t x ht) | (intro t ht) | split | dsimp only | with_reducible apply keeps_mk)

theorem execPhraseCmd_keeps {M : List Host.Cell → Prop} {z₀ : State} (sess : Session) (s : State) (k₀ : Keeps M z₀ s) : Answers M z₀
    (execPhraseCmd sess s) := by
  unfold execPhraseCmd
  repeat' (first
    | with_reducible assumption | with_reducible apply answers_next | with_reducible apply answers_ite | with_reducible apply keeps_ite
    | with_reducible apply replied_keeps | with_reducible apply runLine_keeps | with_reducible apply withWords_keeps
    | with_reducible apply failedUnlock_keeps | (intros; with_reducible assumption) | with_reducible apply cmdKeeps_ite | (intro t ws ht)
    | (intro t ht) | (intro n) | (intro t x ht) | (intro t ht) | split | dsimp only | with_reducible apply keeps_mk)

theorem execKeeperTimeout_keeps {M : List Host.Cell → Prop} {z₀ : State} (sess : Session) (s : State) (k₀ : Keeps M z₀ s) : Answers M z₀
    (execKeeperTimeout sess s) := by
  unfold execKeeperTimeout
  repeat' (first
    | with_reducible assumption | with_reducible apply answers_next | with_reducible apply answers_ite | with_reducible apply keeps_ite
    | with_reducible apply setLevel_keeps | (intros; with_reducible assumption) | with_reducible apply cmdKeeps_ite | (intro t ws ht)
    | (intro t ht) | (intro n) | (intro t x ht) | (intro t ht) | split | dsimp only | with_reducible apply keeps_mk)

theorem execLockoutTick_keeps {M : List Host.Cell → Prop} {z₀ : State} (s : State) (k₀ : Keeps M z₀ s) : Answers M z₀ (execLockoutTick s)
    := by
  unfold execLockoutTick
  repeat' (first
    | with_reducible assumption | with_reducible apply answers_next | with_reducible apply answers_ite | with_reducible apply keeps_ite
    | with_reducible apply wrF_keeps | with_reducible apply wrB_keeps | (intros; with_reducible assumption)
    | with_reducible apply cmdKeeps_ite | (intro t ws ht) | (intro t ht) | (intro n) | (intro t x ht) | (intro t ht) | split | dsimp only
    | with_reducible apply keeps_mk)

theorem cmdPortBit_keeps {M : List Host.Cell → Prop} {z₀ : State} (s : State) (key p : Nat) (on : Bool) (k₀ : Keeps M z₀ s) : CmdKeeps M z₀
    (cmdPortBit s key p on) :=
  writeReply_keeps _ (scUpdate_keeps _ _ _ k₀)

theorem execGrantPriv_keeps {M : List Host.Cell → Prop} {z₀ : State} (sess : Session) (s : State) (k₀ : Keeps M z₀ s) : Answers M z₀
    (execGrantPriv sess s) := by
  unfold execGrantPriv
  repeat' (first
    | with_reducible assumption | with_reducible apply answers_next | with_reducible apply answers_ite | with_reducible apply keeps_ite
    | with_reducible apply runLine_keeps | with_reducible apply withWords_keeps | with_reducible apply withPort_keeps
    | with_reducible apply cmdPortBit_keeps | (intros; with_reducible assumption) | with_reducible apply cmdKeeps_ite | (intro t ws ht)
    | (intro t ht) | (intro n) | (intro t x ht) | (intro t ht) | split | dsimp only | with_reducible apply keeps_mk)

theorem execGrantUnpriv_keeps {M : List Host.Cell → Prop} {z₀ : State} (sess : Session) (s : State) (k₀ : Keeps M z₀ s) : Answers M z₀
    (execGrantUnpriv sess s) := by
  unfold execGrantUnpriv
  repeat' (first
    | with_reducible assumption | with_reducible apply answers_next | with_reducible apply answers_ite | with_reducible apply keeps_ite
    | with_reducible apply runLine_keeps | with_reducible apply withWords_keeps | with_reducible apply withPort_keeps
    | with_reducible apply cmdPortBit_keeps | (intros; with_reducible assumption) | with_reducible apply cmdKeeps_ite | (intro t ws ht)
    | (intro t ht) | (intro n) | (intro t x ht) | (intro t ht) | split | dsimp only | with_reducible apply keeps_mk)

theorem execPortEnable_keeps {M : List Host.Cell → Prop} {z₀ : State} (sess : Session) (s : State) (k₀ : Keeps M z₀ s) : Answers M z₀
    (execPortEnable sess s) := by
  unfold execPortEnable
  repeat' (first
    | with_reducible assumption | with_reducible apply answers_next | with_reducible apply answers_ite | with_reducible apply keeps_ite
    | with_reducible apply portEnable_keeps | with_reducible apply runLine_keeps | with_reducible apply withWords_keeps
    | with_reducible apply withPort_keeps | with_reducible apply cmdPortBit_keeps | (intros; with_reducible assumption)
    | with_reducible apply cmdKeeps_ite | (intro t ws ht) | (intro t ht) | (intro n) | (intro t x ht) | (intro t ht) | split | dsimp only
    | with_reducible apply keeps_mk)

theorem execPortDisable_keeps {M : List Host.Cell → Prop} {z₀ : State} (sess : Session) (s : State) (k₀ : Keeps M z₀ s) : Answers M z₀
    (execPortDisable sess s) := by
  unfold execPortDisable
  repeat' (first
    | with_reducible assumption | with_reducible apply answers_next | with_reducible apply answers_ite | with_reducible apply keeps_ite
    | with_reducible apply runLine_keeps | with_reducible apply withWords_keeps | with_reducible apply withPort_keeps
    | with_reducible apply cmdPortBit_keeps | (intros; with_reducible assumption) | with_reducible apply cmdKeeps_ite | (intro t ws ht)
    | (intro t ht) | (intro n) | (intro t x ht) | (intro t ht) | split | dsimp only | with_reducible apply keeps_mk)

theorem execPortResetCommand_keeps {M : List Host.Cell → Prop} {z₀ : State} (sess : Session) (s : State) (k₀ : Keeps M z₀ s) : Answers M z₀
    (execPortResetCommand sess s) := by
  unfold execPortResetCommand
  repeat' (first
    | with_reducible assumption | with_reducible apply answers_next | with_reducible apply answers_ite | with_reducible apply keeps_ite
    | with_reducible apply runLine_keeps | with_reducible apply cmdWrite_keeps | with_reducible apply withWords_keeps
    | with_reducible apply withPort_keeps | (intros; with_reducible assumption) | with_reducible apply cmdKeeps_ite | (intro t ws ht)
    | (intro t ht) | (intro n) | (intro t x ht) | (intro t ht) | split | dsimp only | with_reducible apply keeps_mk)

theorem execPortRetrain_keeps {M : List Host.Cell → Prop} {z₀ : State} (sess : Session) (s : State) (k₀ : Keeps M z₀ s) : Answers M z₀
    (execPortRetrain sess s) := by
  unfold execPortRetrain
  repeat' (first
    | with_reducible assumption | with_reducible apply answers_next | with_reducible apply answers_ite | with_reducible apply keeps_ite
    | with_reducible apply runLine_keeps | with_reducible apply cmdSetFields_keeps | with_reducible apply withWords_keeps
    | with_reducible apply withPort_keeps | (intros; with_reducible assumption) | with_reducible apply cmdKeeps_ite | (intro t ws ht)
    | (intro t ht) | (intro n) | (intro t x ht) | (intro t ht) | split | dsimp only | with_reducible apply keeps_mk)

theorem execPortSpare_keeps {M : List Host.Cell → Prop} {z₀ : State} (sess : Session) (s : State) (k₀ : Keeps M z₀ s) : Answers M z₀
    (execPortSpare sess s) := by
  unfold execPortSpare
  repeat' (first
    | with_reducible assumption | with_reducible apply answers_next | with_reducible apply answers_ite | with_reducible apply keeps_ite
    | with_reducible apply runLine_keeps | with_reducible apply cmdSetFields_keeps | with_reducible apply withWords_keeps
    | with_reducible apply withPort_keeps | with_reducible apply withField_keeps | (intros; with_reducible assumption)
    | with_reducible apply cmdKeeps_ite | (intro t ws ht) | (intro t ht) | (intro n) | (intro t x ht) | (intro t ht) | split | dsimp only
    | with_reducible apply keeps_mk)

theorem execPortUnspare_keeps {M : List Host.Cell → Prop} {z₀ : State} (sess : Session) (s : State) (k₀ : Keeps M z₀ s) : Answers M z₀
    (execPortUnspare sess s) := by
  unfold execPortUnspare
  repeat' (first
    | with_reducible assumption | with_reducible apply answers_next | with_reducible apply answers_ite | with_reducible apply keeps_ite
    | with_reducible apply runLine_keeps | with_reducible apply cmdSetFields_keeps | with_reducible apply withWords_keeps
    | with_reducible apply withPort_keeps | (intros; with_reducible assumption) | with_reducible apply cmdKeeps_ite | (intro t ws ht)
    | (intro t ht) | (intro n) | (intro t x ht) | (intro t ht) | split | dsimp only | with_reducible apply keeps_mk)

theorem execPortRates_keeps {M : List Host.Cell → Prop} {z₀ : State} (sess : Session) (s : State) (k₀ : Keeps M z₀ s) : Answers M z₀
    (execPortRates sess s) := by
  unfold execPortRates
  repeat' (first
    | with_reducible assumption | with_reducible apply answers_next | with_reducible apply answers_ite | with_reducible apply keeps_ite
    | with_reducible apply runLine_keeps | with_reducible apply cmdSetFields_keeps | with_reducible apply withWords_keeps
    | with_reducible apply withPort_keeps | with_reducible apply withField_keeps | (intros; with_reducible assumption)
    | with_reducible apply cmdKeeps_ite | (intro t ws ht) | (intro t ht) | (intro n) | (intro t x ht) | (intro t ht) | split | dsimp only
    | with_reducible apply keeps_mk)

theorem execBankRetire_keeps {M : List Host.Cell → Prop} {z₀ : State} (sess : Session) (s : State) (k₀ : Keeps M z₀ s) : Answers M z₀
    (execBankRetire sess s) := by
  unfold execBankRetire
  repeat' (first
    | with_reducible assumption | with_reducible apply answers_next | with_reducible apply answers_ite | with_reducible apply keeps_ite
    | with_reducible apply busyReply_keeps | with_reducible apply replied_keeps | with_reducible apply runLine_keeps
    | with_reducible apply cmdWrite_keeps | with_reducible apply withWords_keeps | with_reducible apply withArg_keeps
    | with_reducible apply withEngine_keeps | with_reducible apply withKeyword_keeps | (intros; with_reducible assumption)
    | with_reducible apply cmdKeeps_ite | (intro t ws ht) | (intro t ht) | (intro n) | (intro t x ht) | (intro t ht) | split | dsimp only
    | with_reducible apply keeps_mk)

theorem execBankRemap_keeps {M : List Host.Cell → Prop} {z₀ : State} (sess : Session) (s : State) (k₀ : Keeps M z₀ s) : Answers M z₀
    (execBankRemap sess s) := by
  unfold execBankRemap
  repeat' (first
    | with_reducible assumption | with_reducible apply answers_next | with_reducible apply answers_ite | with_reducible apply keeps_ite
    | with_reducible apply busyReply_keeps | with_reducible apply replied_keeps | with_reducible apply runLine_keeps
    | with_reducible apply cmdWrite_keeps | with_reducible apply withWords_keeps | with_reducible apply withArg_keeps
    | with_reducible apply withField_keeps | (intros; with_reducible assumption) | with_reducible apply cmdKeeps_ite | (intro t ws ht)
    | (intro t ht) | (intro n) | (intro t x ht) | (intro t ht) | split | dsimp only | with_reducible apply keeps_mk)

theorem execEngineOffline_keeps {M : List Host.Cell → Prop} {z₀ : State} (sess : Session) (s : State) (k₀ : Keeps M z₀ s) : Answers M z₀
    (execEngineOffline sess s) := by
  unfold execEngineOffline
  repeat' (first
    | with_reducible assumption | with_reducible apply answers_next | with_reducible apply answers_ite | with_reducible apply keeps_ite
    | with_reducible apply runLine_keeps | with_reducible apply cmdSetFields_keeps | with_reducible apply withWords_keeps
    | with_reducible apply withEngine_keeps | (intros; with_reducible assumption) | with_reducible apply cmdKeeps_ite | (intro t ws ht)
    | (intro t ht) | (intro n) | (intro t x ht) | (intro t ht) | split | dsimp only | with_reducible apply keeps_mk)

theorem execEngineOnline_keeps {M : List Host.Cell → Prop} {z₀ : State} (sess : Session) (s : State) (k₀ : Keeps M z₀ s) : Answers M z₀
    (execEngineOnline sess s) := by
  unfold execEngineOnline
  repeat' (first
    | with_reducible assumption | with_reducible apply answers_next | with_reducible apply answers_ite | with_reducible apply keeps_ite
    | with_reducible apply runLine_keeps | with_reducible apply cmdSetFields_keeps | with_reducible apply withWords_keeps
    | with_reducible apply withEngine_keeps | (intros; with_reducible assumption) | with_reducible apply cmdKeeps_ite | (intro t ws ht)
    | (intro t ht) | (intro n) | (intro t x ht) | (intro t ht) | split | dsimp only | with_reducible apply keeps_mk)

theorem execEngineResetCommand_keeps {M : List Host.Cell → Prop} {z₀ : State} (sess : Session) (s : State) (k₀ : Keeps M z₀ s) : Answers M
    z₀ (execEngineResetCommand sess s) := by
  unfold execEngineResetCommand
  repeat' (first
    | with_reducible assumption | with_reducible apply answers_next | with_reducible apply answers_ite | with_reducible apply keeps_ite
    | with_reducible apply runLine_keeps | with_reducible apply cmdSetFields_keeps | with_reducible apply withWords_keeps
    | with_reducible apply withEngine_keeps | (intros; with_reducible assumption) | with_reducible apply cmdKeeps_ite | (intro t ws ht)
    | (intro t ht) | (intro n) | (intro t x ht) | (intro t ht) | split | dsimp only | with_reducible apply keeps_mk)

theorem execEngineTest_keeps {M : List Host.Cell → Prop} {z₀ : State} (sess : Session) (s : State) (k₀ : Keeps M z₀ s) : Answers M z₀
    (execEngineTest sess s) := by
  unfold execEngineTest
  repeat' (first
    | with_reducible assumption | with_reducible apply answers_next | with_reducible apply answers_ite | with_reducible apply keeps_ite
    | with_reducible apply runLine_keeps | with_reducible apply cmdWrite_keeps | with_reducible apply withWords_keeps
    | with_reducible apply withEngine_keeps | (intros; with_reducible assumption) | with_reducible apply cmdKeeps_ite | (intro t ws ht)
    | (intro t ht) | (intro n) | (intro t x ht) | (intro t ht) | split | dsimp only | with_reducible apply keeps_mk)

theorem cmdTest_keeps {M : List Host.Cell → Prop} {z₀ : State} (s : State) (u mode g : Nat) (opts : List (List Byte)) (k₀ : Keeps M z₀ s) :
    CmdKeeps M z₀ (cmdTest s u mode g opts) := by
  unfold cmdTest
  split
  · exact replied_keeps _ _ k₀
  · exact cmdKeeps_ite (replied_keeps _ _ k₀) (busyReply_keeps _ _ (cmdWrite_keeps _ _ _ k₀))

theorem execTestCmd_keeps {M : List Host.Cell → Prop} {z₀ : State} (sess : Session) (s : State) (k₀ : Keeps M z₀ s) : Answers M z₀
    (execTestCmd sess s) := by
  unfold execTestCmd
  repeat' (first
    | with_reducible assumption | with_reducible apply answers_next | with_reducible apply answers_ite | with_reducible apply keeps_ite
    | with_reducible apply replied_keeps | with_reducible apply runLine_keeps | with_reducible apply withArg_keeps
    | with_reducible apply withKeyword_keeps | with_reducible apply withField_keeps | with_reducible apply cmdTest_keeps
    | (intros; with_reducible assumption) | with_reducible apply cmdKeeps_ite | (intro t ws ht) | (intro t ht) | (intro n)
    | (intro t x ht) | (intro t ht) | split | dsimp only | with_reducible apply keeps_mk)

theorem execScrubOn_keeps {M : List Host.Cell → Prop} {z₀ : State} (sess : Session) (s : State) (k₀ : Keeps M z₀ s) : Answers M z₀
    (execScrubOn sess s) := by
  unfold execScrubOn
  repeat' (first
    | with_reducible assumption | with_reducible apply answers_next | with_reducible apply answers_ite | with_reducible apply keeps_ite
    | with_reducible apply runLine_keeps | with_reducible apply cmdSetFields_keeps | with_reducible apply withWords_keeps
    | (intros; with_reducible assumption) | with_reducible apply cmdKeeps_ite | (intro t ws ht) | (intro t ht) | (intro n)
    | (intro t x ht) | (intro t ht) | split | dsimp only | with_reducible apply keeps_mk)

theorem execScrubOff_keeps {M : List Host.Cell → Prop} {z₀ : State} (sess : Session) (s : State) (k₀ : Keeps M z₀ s) : Answers M z₀
    (execScrubOff sess s) := by
  unfold execScrubOff
  repeat' (first
    | with_reducible assumption | with_reducible apply answers_next | with_reducible apply answers_ite | with_reducible apply keeps_ite
    | with_reducible apply runLine_keeps | with_reducible apply cmdSetFields_keeps | with_reducible apply withWords_keeps
    | (intros; with_reducible assumption) | with_reducible apply cmdKeeps_ite | (intro t ws ht) | (intro t ht) | (intro n)
    | (intro t x ht) | (intro t ht) | split | dsimp only | with_reducible apply keeps_mk)

theorem execScrubPeriod_keeps {M : List Host.Cell → Prop} {z₀ : State} (sess : Session) (s : State) (k₀ : Keeps M z₀ s) : Answers M z₀
    (execScrubPeriod sess s) := by
  unfold execScrubPeriod
  repeat' (first
    | with_reducible assumption | with_reducible apply answers_next | with_reducible apply answers_ite | with_reducible apply keeps_ite
    | with_reducible apply runLine_keeps | with_reducible apply cmdSetFields_keeps | with_reducible apply withWords_keeps
    | with_reducible apply withField_keeps | (intros; with_reducible assumption) | with_reducible apply cmdKeeps_ite | (intro t ws ht)
    | (intro t ht) | (intro n) | (intro t x ht) | (intro t ht) | split | dsimp only | with_reducible apply keeps_mk)

theorem execPairRole_keeps {M : List Host.Cell → Prop} {z₀ : State} (sess : Session) (s : State) (k₀ : Keeps M z₀ s) : Answers M z₀
    (execPairRole sess s) := by
  unfold execPairRole
  repeat' (first
    | with_reducible assumption | with_reducible apply answers_next | with_reducible apply answers_ite | with_reducible apply keeps_ite
    | with_reducible apply runLine_keeps | with_reducible apply cmdSetFields_keeps | with_reducible apply withWords_keeps
    | with_reducible apply withKeyword_keeps | (intros; with_reducible assumption) | with_reducible apply cmdKeeps_ite | (intro t ws ht)
    | (intro t ht) | (intro n) | (intro t x ht) | (intro t ht) | split | dsimp only | with_reducible apply keeps_mk)

theorem execPairPorts_keeps {M : List Host.Cell → Prop} {z₀ : State} (sess : Session) (s : State) (k₀ : Keeps M z₀ s) : Answers M z₀
    (execPairPorts sess s) := by
  unfold execPairPorts
  repeat' (first
    | with_reducible assumption | with_reducible apply answers_next | with_reducible apply answers_ite | with_reducible apply keeps_ite
    | with_reducible apply replied_keeps | with_reducible apply runLine_keeps | with_reducible apply cmdSetFields_keeps
    | with_reducible apply withWords_keeps | with_reducible apply withArg_keeps | (intros; with_reducible assumption)
    | with_reducible apply cmdKeeps_ite | (intro t ws ht) | (intro t ht) | (intro n) | (intro t x ht) | (intro t ht) | split | dsimp only
    | with_reducible apply keeps_mk)

theorem execPairMirror_keeps {M : List Host.Cell → Prop} {z₀ : State} (sess : Session) (s : State) (k₀ : Keeps M z₀ s) : Answers M z₀
    (execPairMirror sess s) := by
  unfold execPairMirror
  repeat' (first
    | with_reducible assumption | with_reducible apply answers_next | with_reducible apply answers_ite | with_reducible apply keeps_ite
    | with_reducible apply runLine_keeps | with_reducible apply cmdSetFields_keeps | with_reducible apply withWords_keeps
    | with_reducible apply withField_keeps | (intros; with_reducible assumption) | with_reducible apply cmdKeeps_ite | (intro t ws ht)
    | (intro t ht) | (intro n) | (intro t x ht) | (intro t ht) | split | dsimp only | with_reducible apply keeps_mk)

theorem execPairJoin_keeps {M : List Host.Cell → Prop} {z₀ : State} (sess : Session) (s : State) (k₀ : Keeps M z₀ s) : Answers M z₀
    (execPairJoin sess s) := by
  unfold execPairJoin
  repeat' (first
    | with_reducible assumption | with_reducible apply answers_next | with_reducible apply answers_ite | with_reducible apply keeps_ite
    | with_reducible apply runLine_keeps | with_reducible apply cmdSetFields_keeps | with_reducible apply withWords_keeps
    | with_reducible apply withKeyword_keeps | (intros; with_reducible assumption) | with_reducible apply cmdKeeps_ite | (intro t ws ht)
    | (intro t ht) | (intro n) | (intro t x ht) | (intro t ht) | split | dsimp only | with_reducible apply keeps_mk)

theorem execPairPromote_keeps {M : List Host.Cell → Prop} {z₀ : State} (sess : Session) (s : State) (k₀ : Keeps M z₀ s) : Answers M z₀
    (execPairPromote sess s) := by
  unfold execPairPromote
  repeat' (first
    | with_reducible assumption | with_reducible apply answers_next | with_reducible apply answers_ite | with_reducible apply keeps_ite
    | with_reducible apply runLine_keeps | with_reducible apply cmdSetFields_keeps | with_reducible apply withWords_keeps
    | (intros; with_reducible assumption) | with_reducible apply cmdKeeps_ite | (intro t ws ht) | (intro t ht) | (intro n)
    | (intro t x ht) | (intro t ht) | split | dsimp only | with_reducible apply keeps_mk)

theorem execPairLeave_keeps {M : List Host.Cell → Prop} {z₀ : State} (sess : Session) (s : State) (k₀ : Keeps M z₀ s) : Answers M z₀
    (execPairLeave sess s) := by
  unfold execPairLeave
  repeat' (first
    | with_reducible assumption | with_reducible apply answers_next | with_reducible apply answers_ite | with_reducible apply keeps_ite
    | with_reducible apply runLine_keeps | with_reducible apply cmdSetFields_keeps | with_reducible apply withWords_keeps
    | (intros; with_reducible assumption) | with_reducible apply cmdKeeps_ite | (intro t ws ht) | (intro t ht) | (intro n)
    | (intro t x ht) | (intro t ht) | split | dsimp only | with_reducible apply keeps_mk)

theorem execRecordStart_keeps {M : List Host.Cell → Prop} {z₀ : State} (sess : Session) (s : State) (k₀ : Keeps M z₀ s) : Answers M z₀
    (execRecordStart sess s) := by
  unfold execRecordStart
  repeat' (first
    | with_reducible assumption | with_reducible apply answers_next | with_reducible apply answers_ite | with_reducible apply keeps_ite
    | with_reducible apply runLine_keeps | with_reducible apply withWords_keeps | with_reducible apply freeLines_keeps
    | (intros; with_reducible assumption) | with_reducible apply cmdKeeps_ite | (intro t ws ht) | (intro t ht) | (intro n)
    | (intro t x ht) | (intro t ht) | split | dsimp only | with_reducible apply keeps_mk)

theorem cellarReply_keeps {M : List Host.Cell → Prop} {z₀ : State} (s : State) (k₀ : Keeps M z₀ s) : CmdKeeps M z₀ (cellarReply s) := by
  unfold cellarReply
  repeat' (first
    | with_reducible assumption | with_reducible apply keeps_ite | with_reducible apply replied_keeps | (intros; with_reducible assumption)
    | with_reducible apply cmdKeeps_ite | (intro t ws ht) | (intro t ht) | (intro n) | (intro t x ht) | (intro t ht) | split | dsimp only
    | with_reducible apply keeps_mk)

theorem cellarCheck_keeps {M : List Host.Cell → Prop} {z₀ : State} (s : State) (k₀ : Keeps M z₀ s) : CmdKeeps M z₀ (cellarCheck s) := by
  unfold cellarCheck
  repeat' (first
    | with_reducible assumption | with_reducible apply keeps_ite | with_reducible apply scLine_keeps | with_reducible apply replied_keeps
    | with_reducible apply perhaps_keeps | with_reducible apply cellarReply_keeps | (intros; with_reducible assumption)
    | with_reducible apply cmdKeeps_ite | (intro t ws ht) | (intro t ht) | (intro n) | (intro t x ht) | (intro t ht) | split | dsimp only
    | with_reducible apply keeps_mk)

theorem execRecordCellar_keeps {M : List Host.Cell → Prop} {z₀ : State} (sess : Session) (s : State) (k₀ : Keeps M z₀ s) : Answers M z₀
    (execRecordCellar sess s) := by
  unfold execRecordCellar
  repeat' (first
    | with_reducible assumption | with_reducible apply answers_next | with_reducible apply answers_ite | with_reducible apply keeps_ite
    | with_reducible apply runLine_keeps | with_reducible apply withWords_keeps | with_reducible apply cellarCheck_keeps
    | (intros; with_reducible assumption) | with_reducible apply cmdKeeps_ite | (intro t ws ht) | (intro t ht) | (intro n)
    | (intro t x ht) | (intro t ht) | split | dsimp only | with_reducible apply keeps_mk)

theorem execResetWarm_keeps {M : List Host.Cell → Prop} {z₀ : State} (sess : Session) (s : State) (k₀ : Keeps M z₀ s) : Answers M z₀
    (execResetWarm sess s) := by
  unfold execResetWarm
  repeat' (first
    | with_reducible assumption | with_reducible apply answers_next | with_reducible apply answers_ite | with_reducible apply keeps_ite
    | with_reducible apply replied_keeps | with_reducible apply runLine_keeps | with_reducible apply cmdWriteAfter_keeps
    | with_reducible apply withWords_keeps | with_reducible apply withKeyword_keeps | (intros; with_reducible assumption)
    | with_reducible apply cmdKeeps_ite | (intro t ws ht) | (intro t ht) | (intro n) | (intro t x ht) | (intro t ht) | split | dsimp only
    | with_reducible apply keeps_mk)

theorem execResetPort_keeps {M : List Host.Cell → Prop} {z₀ : State} (sess : Session) (s : State) (k₀ : Keeps M z₀ s) : Answers M z₀
    (execResetPort sess s) := by
  unfold execResetPort
  repeat' (first
    | with_reducible assumption | with_reducible apply answers_next | with_reducible apply answers_ite | with_reducible apply keeps_ite
    | with_reducible apply resetPort_keeps | with_reducible apply runLine_keeps | with_reducible apply cmdWriteAfter_keeps
    | with_reducible apply withWords_keeps | with_reducible apply withPort_keeps | (intros; with_reducible assumption)
    | with_reducible apply cmdKeeps_ite | (intro t ws ht) | (intro t ht) | (intro n) | (intro t x ht) | (intro t ht) | split | dsimp only
    | with_reducible apply keeps_mk)

theorem execConsoleBaud_keeps {M : List Host.Cell → Prop} {z₀ : State} (sess : Session) (s : State) (k₀ : Keeps M z₀ s) : Answers M z₀
    (execConsoleBaud sess s) := by
  unfold execConsoleBaud
  repeat' (first
    | with_reducible assumption | with_reducible apply answers_next | with_reducible apply answers_ite | with_reducible apply keeps_ite
    | with_reducible apply replied_keeps | with_reducible apply runLine_keeps | with_reducible apply cmdWriteAfter_keeps
    | with_reducible apply withWords_keeps | with_reducible apply withArg_keeps | (intros; with_reducible assumption)
    | with_reducible apply cmdKeeps_ite | (intro t ws ht) | (intro t ht) | (intro n) | (intro t x ht) | (intro t ht) | split | dsimp only
    | with_reducible apply keeps_mk)

theorem execUnknownCommand_keeps {M : List Host.Cell → Prop} {z₀ : State} (sess : Session) (s : State) (k₀ : Keeps M z₀ s) : Answers M z₀
    (execUnknownCommand sess s) := by
  unfold execUnknownCommand
  repeat' (first
    | with_reducible assumption | with_reducible apply answers_next | with_reducible apply answers_ite | with_reducible apply keeps_ite
    | with_reducible apply afterReply_keeps | with_reducible apply endLine_keeps | (intros; with_reducible assumption)
    | with_reducible apply cmdKeeps_ite | (intro t ws ht) | (intro t ht) | (intro n) | (intro t x ht) | (intro t ht) | split | dsimp only
    | with_reducible apply keeps_mk)

/-! ### Tick -/

theorem occurIf_keeps {M : List Host.Cell → Prop} {z₀ : State} (s : State) (c : Bool) (ev : Nat) (k₀ : Keeps M z₀ s) : Keeps M z₀ (occurIf
    s c ev) := by
  unfold occurIf
  repeat' (first
    | with_reducible assumption | with_reducible apply keeps_ite | with_reducible apply occur_keeps | (intros; with_reducible assumption)
    | (intro t x ht) | (intro t ht) | split | dsimp only | with_reducible apply keeps_mk)

theorem cycleEvents_keeps {M : List Host.Cell → Prop} {z₀ : State} (s : State) (k₀ : Keeps M z₀ s) : Keeps M z₀ (cycleEvents s) := by
  unfold cycleEvents
  repeat' (first
    | with_reducible assumption | with_reducible apply keeps_ite | with_reducible apply occur_keeps | with_reducible apply occurIf_keeps
    | with_reducible apply keeps_foldl | (intros; with_reducible assumption) | (intro t x ht) | (intro t ht) | split | dsimp only
    | with_reducible apply keeps_mk)

theorem ownWork_keeps {M : CellProp} {z₀ : State} (s : State) (k₀ : Keeps M.holds z₀ s) : Keeps M.holds z₀ (ownWork s) := by
  unfold ownWork
  repeat' (first
    | with_reducible assumption | with_reducible apply keeps_ite | with_reducible apply semUnitTurn_keeps
    | with_reducible apply mbxUnitTurn_keeps | with_reducible apply agentsCycle_keeps | with_reducible apply trainingCycle_keeps
    | with_reducible apply idleCycle_keeps | with_reducible apply warmStep_keeps | with_reducible apply cellarCycle_keeps
    | with_reducible apply consoleTurn_keeps | with_reducible apply keeps_foldl | (intros; with_reducible assumption) | (intro t x ht)
    | (intro t ht) | split | dsimp only | with_reducible apply keeps_mk)

end Sys2Proof.Machine
end

