-- ==== Sys2Proof/WellFormed.lean ====
section
/-! DEFINITION. Commands whose operands have the lengths and ranges that the spec gives them (R310, R311, R374, R419 and the unit
tables): what a sender of commands can spell. -/

namespace Sys2Proof
open Machine

/-- Symbols of the nine receive lanes of a port, each silent or a block of 128 PAM4 symbols or 256 NRZ symbols (R268, R271). -/
def symbolsFit (symbols : List (List (BitVec 2))) : Bool :=
  symbols.length = 9 && symbols.all (fun x => x.length = 0 || x.length = 128 || x.length = 256)

/-- The eyes of a lane: three, or one, each with a level spacing (R272). -/
def eyesValid (eyes : List Eye) : Bool := (eyes.length = 1 || eyes.length = 3) && eyes.all (fun e => e.spacing != 0)

/-- A chain frame whose payload has the length that LEN says, with the bytes received after its CRC (R373, R374). -/
def frameFits (f : ChainFrame) : Bool :=
  f.len.toNat ≤ 250 && f.payload.length = f.len.toNat && f.rest.length = f.received - (f.len.toNat + 5)

/-- Whether a command's operands are well formed. -/
def wellFormed (i : Instr) : Bool :=
  match i with
  | .readReq _ _ len => !headerMalformed 1 len.toNat 0
  | .writeReq _ _ len _ data => !headerMalformed 2 len.toNat 0 && data.length = len.toNat
  | .readRun _ _ len run => !headerMalformed 3 len.toNat run.toNat
  | .writeRun _ _ len run data => !headerMalformed 4 len.toNat run.toNat && data.length = 64 * run.toNat
  | .faddReq _ _ len data => !headerMalformed 0x10 len.toNat 0 && data.length = len.toNat
  | .fandReq _ _ len data => !headerMalformed 0x11 len.toNat 0 && data.length = len.toNat
  | .forReq _ _ len data => !headerMalformed 0x12 len.toNat 0 && data.length = len.toNat
  | .fxorReq _ _ len data => !headerMalformed 0x13 len.toNat 0 && data.length = len.toNat
  | .swapReq _ _ len data => !headerMalformed 0x14 len.toNat 0 && data.length = len.toNat
  | .casReq _ _ len data => !headerMalformed 0x15 len.toNat 0 && data.length = 2 * len.toNat
  | .fminsReq _ _ len data => !headerMalformed 0x16 len.toNat 0 && data.length = len.toNat
  | .fminuReq _ _ len data => !headerMalformed 0x17 len.toNat 0 && data.length = len.toNat
  | .fmaxsReq _ _ len data => !headerMalformed 0x18 len.toNat 0 && data.length = len.toNat
  | .fmaxuReq _ _ len data => !headerMalformed 0x19 len.toNat 0 && data.length = len.toNat
  | .accReq _ _ len opfmt _ data => !headerMalformed 0x20 len.toNat 0 && data.length = payloadLen 0x20 len.toNat opfmt.toNat 0
  | .rdcvReq _ _ len => !headerMalformed 0x21 len.toNat 0
  | .fenceReq _ => true
  | .malformedUnit _ => true
  | .orderedRelease _ _ => true
  | .bankSlot _ => true
  | .arbitrationSettingApply => true
  | .tallyStep => true
  | .semTry => true
  | .semRelease => true
  | .semTicket => true
  | .semServe => true
  | .semPeek => true
  | .stateWrite => true
  | .notifyRead => true
  | .notifyWrite => true
  | .semClear _ _ => true
  | .semClearStep => true
  | .semStatClear _ _ => true
  | .payloadWrite => true
  | .mailboxRead => true
  | .doorbell => true
  | .mailboxClaim => true
  | .bindingWrite => true
  | .mailboxCommit => true
  | .mbxClear _ _ => true
  | .mbxClearStep => true
  | .mbxStatClear _ _ => true
  | .arbStatClear _ _ => true
  | .vatCtlWrite _ _ _ => true
  | .vatRearm _ _ _ => true
  | .vatStatClear _ _ _ => true
  | .registerWrite _ key _ => key.toNat % 8 = 0
  | .responseSend _ _ => true
  | .engineIssue _ => true
  | .nopDesc _ _ => true
  | .copyDesc _ _ => true
  | .fillDesc _ _ => true
  | .gatherDesc _ _ => true
  | .scatterDesc _ _ => true
  | .accumDesc _ _ => true
  | .crcDesc _ _ => true
  | .compareDesc _ _ => true
  | .semaTry _ _ => true
  | .semaRelease _ _ => true
  | .semaTicket _ _ => true
  | .semaServe _ _ => true
  | .semaPeek _ _ => true
  | .semaNotify _ _ => true
  | .postDesc _ _ => true
  | .waitTally _ _ => true
  | .waitCompletions _ _ => true
  | .waitFree _ _ => true
  | .waitTake _ _ => true
  | .waitReevaluate _ _ => true
  | .waitTimeout _ _ => true
  | .pushDesc _ _ => true
  | .descriptorFence _ _ => true
  | .matchArrive _ _ => true
  | .matchPost _ _ => true
  | .matchProbe _ _ => true
  | .matchCancel _ _ => true
  | .accessReissue _ _ => true
  | .descriptorRetire _ _ => true
  | .qTailWrite _ _ _ _ => true
  | .qCfgWrite _ _ _ _ => true
  | .stopQueue _ _ _ _ => true
  | .goQueue _ _ _ _ => true
  | .resumeRetry _ _ _ _ => true
  | .resumeSkip _ _ _ _ => true
  | .offlineWrite _ _ _ => true
  | .engineOfflineDone _ => true
  | .engineReset _ _ _ => true
  | .rackCopyLine _ => true
  | .mcCtlWrite _ _ _ => true
  | .mcStatClear _ _ => true
  | .intcCycle => true
  | .setPend _ src _ => src.toNat < 4132
  | .pendingClear _ src _ => src.toNat < 4132
  | .targetWrite _ src _ => src.toNat < 4132
  | .tgtClaim _ t => t.toNat < 36
  | .tgtEoi _ t _ => t.toNat < 36
  | .asleepWrite _ t _ => t.toNat < 36
  | .messageSend _ => true
  | .scrubVisit => true
  | .logWrite => true
  | .remapCopy => true
  | .logClear _ _ => true
  | .intStatClear _ _ => true
  | .intInjectWrite _ _ => true
  | .bgGroupBegin _ => true
  | .holdTimeout _ => true
  | .tstCmdStart _ _ => true
  | .foregroundTestEnd => true
  | .abortTest _ _ => true
  | .tstStatClear _ _ => true
  | .rmpCmdGo _ _ => true
  | .retCmdStart _ _ => true
  | .tstEngGo _ _ => true
  | .engineSelftestEnd _ _ => true
  | .flitReceive _ symbols => symbolsFit symbols
  | .nakTimeout _ => true
  | .ackTimeout _ => true
  | .flitSend _ => true
  | .replayFlits _ => true
  | .ptStatClear _ _ _ => true
  | .emfUpdate _ lane rx => lane.toNat < 9 && eyesValid rx.eyes
  | .readaptTimeout _ lane => lane.toNat < 9
  | .markerMissing _ lane => lane.toNat < 9
  | .eiIdleTimeout _ => true
  | .eiReq marker => marker.bytes.length = 32
  | .eiAck marker => marker.bytes.length = 32
  | .eiNak marker => marker.bytes.length = 32
  | .eiExit _ => true
  | .wakeBurst _ => true
  | .eiExitTimeout _ => true
  | .retrainReq marker => marker.bytes.length = 32
  | .retrainTimeout _ => true
  | .trainingBlock _ lane rx block => lane.toNat < 9 && block.length = 32 && eyesValid rx.eyes
  | .trainingTimeout _ => true
  | .signalLoss _ => true
  | .downBackoffEnd _ => true
  | .unansweredBackoffEnd _ => true
  | .lphRetrain _ _ _ => true
  | .spareNowWrite _ _ _ => true
  | .unspareWrite _ _ _ => true
  | .loopWrite _ _ _ => true
  | .minClear _ _ lane _ => lane.toNat < 9
  | .lnStatClear _ _ => true
  | .linesUnit _ _ _ lmask data => data.length = 64 * ((List.range 16).filter (fun k => lmask.getLsbD k)).length
  | .semUnit _ _ _ _ _ => true
  | .mbxUnit _ _ _ parts _ data => data.length = 32 * ((List.range 7).filter (fun k => parts.getLsbD k)).length
  | .vatUnit _ _ _ data => data.length = 64
  | .acceptUnit _ _ => true
  | .helloUnit _ _ => true
  | .helloSend => true
  | .pairPortLoss _ => true
  | .promoteWrite _ _ => true
  | .autoPromote => true
  | .joinWrite _ _ => true
  | .leaveWrite _ _ => true
  | .syncCopy => true
  | .healReq _ _ _ => true
  | .healData _ _ _ good data => data.length = (if good then 64 else 0)
  | .pwrRegionWrite _ _ => true
  | .retainWakeDone _ => true
  | .retainIdleTimeout _ => true
  | .offWakeDone _ => true
  | .devStateWrite _ _ => true
  | .holdEntry _ => true
  | .holdEnd _ => true
  | .brownoutReset => true
  | .powerOn => true
  | .railFail _ => true
  | .pinReset => true
  | .warmReset _ _ => true
  | .portReset _ _ => true
  | .startStep _ => true
  | .s8Timeout => true
  | .s9Timeout => true
  | .refclkLoss => true
  | .refclkReturn => true
  | .scHalt => true
  | .fatalError cause _ => 1 ≤ cause.toNat && cause.toNat ≤ 4
  | .cellarRecordDone => true
  | .fatalWatchdog => true
  | .enumFrame f => frameFits f
  | .lineFrame f => frameFits f
  | .pollFrame f => frameFits f
  | .statusFrame f => frameFits f
  | .peekFrame f => frameFits f
  | .peekDone => true
  | .consoleCharacter _ => true
  | .consoleBreak => true
  | .helpCmd _ => true
  | .showCmd _ => true
  | .getCmd _ => true
  | .setCmd _ => true
  | .modeHuman _ => true
  | .modeMachine _ => true
  | .unlockCmd _ => true
  | .lockCmd _ => true
  | .phraseCmd _ => true
  | .grantPriv _ => true
  | .grantUnpriv _ => true
  | .portEnable _ => true
  | .portDisable _ => true
  | .portResetCommand _ => true
  | .portRetrain _ => true
  | .portSpare _ => true
  | .portUnspare _ => true
  | .portRates _ => true
  | .bankRetire _ => true
  | .bankRemap _ => true
  | .engineOffline _ => true
  | .engineOnline _ => true
  | .engineResetCommand _ => true
  | .engineTest _ => true
  | .testCmd _ => true
  | .scrubOn _ => true
  | .scrubOff _ => true
  | .scrubPeriod _ => true
  | .pairRole _ => true
  | .pairPorts _ => true
  | .pairMirror _ => true
  | .pairJoin _ => true
  | .pairPromote _ => true
  | .pairLeave _ => true
  | .recordStart _ => true
  | .recordCellar _ => true
  | .resetWarm _ => true
  | .resetPort _ => true
  | .consoleBaud _ => true
  | .keeperTimeout _ => true
  | .lockoutTick => true
  | .mgStatClear _ _ => true
  | .pcCfgWrite _ _ _ => true
  | .freezeCounters _ _ => true
  | .clearAll _ _ => true
  | .smpCtlWrite _ _ => true
  | .smpClear _ _ => true
  | .smpIdxWrite _ _ => true
  | .trIdxWrite _ _ => true
  | .trClear _ _ => true
  | .celCtlWrite _ _ => true
  | .resetNRise => true
  | .undefinedTypeFrame f _ => frameFits f
  | .unknownCommand _ => true
  | .lossOfLock _ lane => lane.toNat < 9
  | .retainEntryDone _ => true
  | .s4Timeout => true
  | .spareTestPassBegin _ => true
  | .scRepairPolicy _ => true

end Sys2Proof
end

