-- ==== Sys2Proof/Laws/PerInstr.lean ====
section
/-! SUPPORT. Statements about every command as syntax, one lemma for each constructor: a well-formed command carries at most 1,024 bytes of
data, the 16 lines of the longest write run or of a LINES unit (R311, R329). -/

namespace Sys2Proof.Laws
open Machine

/-- The bytes of data that a command carries. -/
def payloadBytes : Instr → Nat
  | .readReq _ _ _ => 0
  | .writeReq _ _ _ _ data => data.length
  | .readRun _ _ _ _ => 0
  | .writeRun _ _ _ _ data => data.length
  | .faddReq _ _ _ data => data.length
  | .fandReq _ _ _ data => data.length
  | .forReq _ _ _ data => data.length
  | .fxorReq _ _ _ data => data.length
  | .swapReq _ _ _ data => data.length
  | .casReq _ _ _ data => data.length
  | .fminsReq _ _ _ data => data.length
  | .fminuReq _ _ _ data => data.length
  | .fmaxsReq _ _ _ data => data.length
  | .fmaxuReq _ _ _ data => data.length
  | .accReq _ _ _ _ _ data => data.length
  | .rdcvReq _ _ _ => 0
  | .fenceReq _ => 0
  | .malformedUnit _ => 0
  | .orderedRelease _ _ => 0
  | .bankSlot _ => 0
  | .arbitrationSettingApply => 0
  | .tallyStep => 0
  | .semTry => 0
  | .semRelease => 0
  | .semTicket => 0
  | .semServe => 0
  | .semPeek => 0
  | .stateWrite => 0
  | .notifyRead => 0
  | .notifyWrite => 0
  | .semClear _ _ => 0
  | .semClearStep => 0
  | .semStatClear _ _ => 0
  | .payloadWrite => 0
  | .mailboxRead => 0
  | .doorbell => 0
  | .mailboxClaim => 0
  | .bindingWrite => 0
  | .mailboxCommit => 0
  | .mbxClear _ _ => 0
  | .mbxClearStep => 0
  | .mbxStatClear _ _ => 0
  | .arbStatClear _ _ => 0
  | .vatCtlWrite _ _ _ => 0
  | .vatRearm _ _ _ => 0
  | .vatStatClear _ _ _ => 0
  | .registerWrite _ _ _ => 0
  | .responseSend _ _ => 0
  | .engineIssue _ => 0
  | .nopDesc _ _ => 0
  | .copyDesc _ _ => 0
  | .fillDesc _ _ => 0
  | .gatherDesc _ _ => 0
  | .scatterDesc _ _ => 0
  | .accumDesc _ _ => 0
  | .crcDesc _ _ => 0
  | .compareDesc _ _ => 0
  | .semaTry _ _ => 0
  | .semaRelease _ _ => 0
  | .semaTicket _ _ => 0
  | .semaServe _ _ => 0
  | .semaPeek _ _ => 0
  | .semaNotify _ _ => 0
  | .postDesc _ _ => 0
  | .waitTally _ _ => 0
  | .waitCompletions _ _ => 0
  | .waitFree _ _ => 0
  | .waitTake _ _ => 0
  | .waitReevaluate _ _ => 0
  | .waitTimeout _ _ => 0
  | .pushDesc _ _ => 0
  | .descriptorFence _ _ => 0
  | .matchArrive _ _ => 0
  | .matchPost _ _ => 0
  | .matchProbe _ _ => 0
  | .matchCancel _ _ => 0
  | .accessReissue _ _ => 0
  | .descriptorRetire _ _ => 0
  | .qTailWrite _ _ _ _ => 0
  | .qCfgWrite _ _ _ _ => 0
  | .stopQueue _ _ _ _ => 0
  | .goQueue _ _ _ _ => 0
  | .resumeRetry _ _ _ _ => 0
  | .resumeSkip _ _ _ _ => 0
  | .offlineWrite _ _ _ => 0
  | .engineOfflineDone _ => 0
  | .engineReset _ _ _ => 0
  | .rackCopyLine _ => 0
  | .mcCtlWrite _ _ _ => 0
  | .mcStatClear _ _ => 0
  | .intcCycle => 0
  | .setPend _ _ _ => 0
  | .pendingClear _ _ _ => 0
  | .targetWrite _ _ _ => 0
  | .tgtClaim _ _ => 0
  | .tgtEoi _ _ _ => 0
  | .asleepWrite _ _ _ => 0
  | .messageSend _ => 0
  | .scrubVisit => 0
  | .logWrite => 0
  | .remapCopy => 0
  | .logClear _ _ => 0
  | .intStatClear _ _ => 0
  | .intInjectWrite _ _ => 0
  | .bgGroupBegin _ => 0
  | .holdTimeout _ => 0
  | .tstCmdStart _ _ => 0
  | .foregroundTestEnd => 0
  | .abortTest _ _ => 0
  | .tstStatClear _ _ => 0
  | .rmpCmdGo _ _ => 0
  | .retCmdStart _ _ => 0
  | .tstEngGo _ _ => 0
  | .engineSelftestEnd _ _ => 0
  | .flitReceive _ symbols => (symbols.map List.length).sum / 4
  | .nakTimeout _ => 0
  | .ackTimeout _ => 0
  | .flitSend _ => 0
  | .replayFlits _ => 0
  | .ptStatClear _ _ _ => 0
  | .emfUpdate _ _ _ => 0
  | .readaptTimeout _ _ => 0
  | .markerMissing _ _ => 0
  | .eiIdleTimeout _ => 0
  | .eiReq marker => marker.bytes.length
  | .eiAck marker => marker.bytes.length
  | .eiNak marker => marker.bytes.length
  | .eiExit _ => 0
  | .wakeBurst _ => 0
  | .eiExitTimeout _ => 0
  | .retrainReq marker => marker.bytes.length
  | .retrainTimeout _ => 0
  | .trainingBlock _ _ _ block => block.length
  | .trainingTimeout _ => 0
  | .signalLoss _ => 0
  | .downBackoffEnd _ => 0
  | .unansweredBackoffEnd _ => 0
  | .lphRetrain _ _ _ => 0
  | .spareNowWrite _ _ _ => 0
  | .unspareWrite _ _ _ => 0
  | .loopWrite _ _ _ => 0
  | .minClear _ _ _ _ => 0
  | .lnStatClear _ _ => 0
  | .linesUnit _ _ _ _ data => data.length
  | .semUnit _ _ _ _ _ => 0
  | .mbxUnit _ _ _ _ _ data => data.length
  | .vatUnit _ _ _ data => data.length
  | .acceptUnit _ _ => 0
  | .helloUnit _ _ => 0
  | .helloSend => 0
  | .pairPortLoss _ => 0
  | .promoteWrite _ _ => 0
  | .autoPromote => 0
  | .joinWrite _ _ => 0
  | .leaveWrite _ _ => 0
  | .syncCopy => 0
  | .healReq _ _ _ => 0
  | .healData _ _ _ _ data => data.length
  | .pwrRegionWrite _ _ => 0
  | .retainWakeDone _ => 0
  | .retainIdleTimeout _ => 0
  | .offWakeDone _ => 0
  | .devStateWrite _ _ => 0
  | .holdEntry _ => 0
  | .holdEnd _ => 0
  | .brownoutReset => 0
  | .powerOn => 0
  | .railFail _ => 0
  | .pinReset => 0
  | .warmReset _ _ => 0
  | .portReset _ _ => 0
  | .startStep _ => 0
  | .s8Timeout => 0
  | .s9Timeout => 0
  | .refclkLoss => 0
  | .refclkReturn => 0
  | .scHalt => 0
  | .fatalError _ _ => 0
  | .cellarRecordDone => 0
  | .fatalWatchdog => 0
  | .enumFrame f => f.payload.length
  | .lineFrame f => f.payload.length
  | .pollFrame f => f.payload.length
  | .statusFrame f => f.payload.length
  | .peekFrame f => f.payload.length
  | .peekDone => 0
  | .consoleCharacter _ => 0
  | .consoleBreak => 0
  | .helpCmd _ => 0
  | .showCmd _ => 0
  | .getCmd _ => 0
  | .setCmd _ => 0
  | .modeHuman _ => 0
  | .modeMachine _ => 0
  | .unlockCmd _ => 0
  | .lockCmd _ => 0
  | .phraseCmd _ => 0
  | .grantPriv _ => 0
  | .grantUnpriv _ => 0
  | .portEnable _ => 0
  | .portDisable _ => 0
  | .portResetCommand _ => 0
  | .portRetrain _ => 0
  | .portSpare _ => 0
  | .portUnspare _ => 0
  | .portRates _ => 0
  | .bankRetire _ => 0
  | .bankRemap _ => 0
  | .engineOffline _ => 0
  | .engineOnline _ => 0
  | .engineResetCommand _ => 0
  | .engineTest _ => 0
  | .testCmd _ => 0
  | .scrubOn _ => 0
  | .scrubOff _ => 0
  | .scrubPeriod _ => 0
  | .pairRole _ => 0
  | .pairPorts _ => 0
  | .pairMirror _ => 0
  | .pairJoin _ => 0
  | .pairPromote _ => 0
  | .pairLeave _ => 0
  | .recordStart _ => 0
  | .recordCellar _ => 0
  | .resetWarm _ => 0
  | .resetPort _ => 0
  | .consoleBaud _ => 0
  | .keeperTimeout _ => 0
  | .lockoutTick => 0
  | .mgStatClear _ _ => 0
  | .pcCfgWrite _ _ _ => 0
  | .freezeCounters _ _ => 0
  | .clearAll _ _ => 0
  | .smpCtlWrite _ _ => 0
  | .smpClear _ _ => 0
  | .smpIdxWrite _ _ => 0
  | .trIdxWrite _ _ => 0
  | .trClear _ _ => 0
  | .celCtlWrite _ _ => 0
  | .resetNRise => 0
  | .undefinedTypeFrame f _ => f.payload.length
  | .unknownCommand _ => 0
  | .lossOfLock _ _ => 0
  | .retainEntryDone _ => 0
  | .s4Timeout => 0
  | .spareTestPassBegin _ => 0
  | .scRepairPolicy _ => 0


namespace Payload

/-- A well-formed command carries at most 1,024 bytes. -/
def Statement (i : Instr) : Prop := wellFormed i = true → payloadBytes i ≤ 1024

/-- The selected parts of a unit are at most as many as there are parts. -/
theorem selected_le (n : Nat) (p : Nat → Bool) : ((List.range n).filter p).length ≤ n := by
  simpa using List.length_filter_le p (List.range n)

theorem readReq (h : ReqHdr) (addr : BitVec 32) (len : BitVec 7) : Statement (.readReq h addr len) := fun _ => Nat.zero_le _
theorem writeReq (h : ReqHdr) (addr : BitVec 32) (len : BitVec 7) (mask : BitVec 64) (data : List Byte)
    : Statement (.writeReq h addr len mask data) := by
  intro h
  have := len.isLt
  have h := of_decide_eq_true (Bool.and_eq_true_iff.mp h).2
  show List.length _ ≤ 1024
  omega
theorem readRun (h : ReqHdr) (addr : BitVec 32) (len : BitVec 7) (run : BitVec 8) : Statement (.readRun h addr len run) := fun _ => Nat.zero_le _
theorem writeRun (h : ReqHdr) (addr : BitVec 32) (len : BitVec 7) (run : BitVec 8) (data : List Byte)
    : Statement (.writeRun h addr len run data) := by
  intro h
  have h1 := (Bool.and_eq_true_iff.mp h).1
  have h2 := of_decide_eq_true (Bool.and_eq_true_iff.mp h).2
  simp [headerMalformed, isRun] at h1
  show List.length _ ≤ 1024
  omega
theorem faddReq (h : ReqHdr) (addr : BitVec 32) (len : BitVec 7) (data : List Byte) : Statement (.faddReq h addr len data) := by
  intro h
  have := len.isLt
  have h := of_decide_eq_true (Bool.and_eq_true_iff.mp h).2
  show List.length _ ≤ 1024
  omega
theorem fandReq (h : ReqHdr) (addr : BitVec 32) (len : BitVec 7) (data : List Byte) : Statement (.fandReq h addr len data) := by
  intro h
  have := len.isLt
  have h := of_decide_eq_true (Bool.and_eq_true_iff.mp h).2
  show List.length _ ≤ 1024
  omega
theorem forReq (h : ReqHdr) (addr : BitVec 32) (len : BitVec 7) (data : List Byte) : Statement (.forReq h addr len data) := by
  intro h
  have := len.isLt
  have h := of_decide_eq_true (Bool.and_eq_true_iff.mp h).2
  show List.length _ ≤ 1024
  omega
theorem fxorReq (h : ReqHdr) (addr : BitVec 32) (len : BitVec 7) (data : List Byte) : Statement (.fxorReq h addr len data) := by
  intro h
  have := len.isLt
  have h := of_decide_eq_true (Bool.and_eq_true_iff.mp h).2
  show List.length _ ≤ 1024
  omega
theorem swapReq (h : ReqHdr) (addr : BitVec 32) (len : BitVec 7) (data : List Byte) : Statement (.swapReq h addr len data) := by
  intro h
  have := len.isLt
  have h := of_decide_eq_true (Bool.and_eq_true_iff.mp h).2
  show List.length _ ≤ 1024
  omega
theorem casReq (h : ReqHdr) (addr : BitVec 32) (len : BitVec 7) (data : List Byte) : Statement (.casReq h addr len data) := by
  intro h
  have := len.isLt
  have h := of_decide_eq_true (Bool.and_eq_true_iff.mp h).2
  show List.length _ ≤ 1024
  omega
theorem fminsReq (h : ReqHdr) (addr : BitVec 32) (len : BitVec 7) (data : List Byte) : Statement (.fminsReq h addr len data) := by
  intro h
  have := len.isLt
  have h := of_decide_eq_true (Bool.and_eq_true_iff.mp h).2
  show List.length _ ≤ 1024
  omega
theorem fminuReq (h : ReqHdr) (addr : BitVec 32) (len : BitVec 7) (data : List Byte) : Statement (.fminuReq h addr len data) := by
  intro h
  have := len.isLt
  have h := of_decide_eq_true (Bool.and_eq_true_iff.mp h).2
  show List.length _ ≤ 1024
  omega
theorem fmaxsReq (h : ReqHdr) (addr : BitVec 32) (len : BitVec 7) (data : List Byte) : Statement (.fmaxsReq h addr len data) := by
  intro h
  have := len.isLt
  have h := of_decide_eq_true (Bool.and_eq_true_iff.mp h).2
  show List.length _ ≤ 1024
  omega
theorem fmaxuReq (h : ReqHdr) (addr : BitVec 32) (len : BitVec 7) (data : List Byte) : Statement (.fmaxuReq h addr len data) := by
  intro h
  have := len.isLt
  have h := of_decide_eq_true (Bool.and_eq_true_iff.mp h).2
  show List.length _ ≤ 1024
  omega
theorem accReq (h : ReqHdr) (addr : BitVec 32) (len : BitVec 7) (opfmt : BitVec 4) (tally : Bool) (data : List Byte)
    : Statement (.accReq h addr len opfmt tally data) := by
  intro h
  have := len.isLt
  have h := of_decide_eq_true (Bool.and_eq_true_iff.mp h).2
  simp only [payloadLen] at h
  show List.length _ ≤ 1024
  split at h <;> omega
theorem rdcvReq (h : ReqHdr) (addr : BitVec 32) (len : BitVec 7) : Statement (.rdcvReq h addr len) := fun _ => Nat.zero_le _
theorem fenceReq (h : ReqHdr) : Statement (.fenceReq h) := fun _ => Nat.zero_le _
theorem malformedUnit (port : BitVec 3) : Statement (.malformedUnit port) := fun _ => Nat.zero_le _
theorem orderedRelease (port : BitVec 3) (slot : BitVec 2) : Statement (.orderedRelease port slot) := fun _ => Nat.zero_le _
theorem bankSlot (bank : BitVec 6) : Statement (.bankSlot bank) := fun _ => Nat.zero_le _
theorem arbitrationSettingApply : Statement (.arbitrationSettingApply) := fun _ => Nat.zero_le _
theorem tallyStep : Statement (.tallyStep) := fun _ => Nat.zero_le _
theorem semTry : Statement (.semTry) := fun _ => Nat.zero_le _
theorem semRelease : Statement (.semRelease) := fun _ => Nat.zero_le _
theorem semTicket : Statement (.semTicket) := fun _ => Nat.zero_le _
theorem semServe : Statement (.semServe) := fun _ => Nat.zero_le _
theorem semPeek : Statement (.semPeek) := fun _ => Nat.zero_le _
theorem stateWrite : Statement (.stateWrite) := fun _ => Nat.zero_le _
theorem notifyRead : Statement (.notifyRead) := fun _ => Nat.zero_le _
theorem notifyWrite : Statement (.notifyWrite) := fun _ => Nat.zero_le _
theorem semClear (by_ : RegBy) (v : Word64) : Statement (.semClear by_ v) := fun _ => Nat.zero_le _
theorem semClearStep : Statement (.semClearStep) := fun _ => Nat.zero_le _
theorem semStatClear (by_ : RegBy) (v : Word64) : Statement (.semStatClear by_ v) := fun _ => Nat.zero_le _
theorem payloadWrite : Statement (.payloadWrite) := fun _ => Nat.zero_le _
theorem mailboxRead : Statement (.mailboxRead) := fun _ => Nat.zero_le _
theorem doorbell : Statement (.doorbell) := fun _ => Nat.zero_le _
theorem mailboxClaim : Statement (.mailboxClaim) := fun _ => Nat.zero_le _
theorem bindingWrite : Statement (.bindingWrite) := fun _ => Nat.zero_le _
theorem mailboxCommit : Statement (.mailboxCommit) := fun _ => Nat.zero_le _
theorem mbxClear (by_ : RegBy) (v : Word64) : Statement (.mbxClear by_ v) := fun _ => Nat.zero_le _
theorem mbxClearStep : Statement (.mbxClearStep) := fun _ => Nat.zero_le _
theorem mbxStatClear (by_ : RegBy) (v : Word64) : Statement (.mbxStatClear by_ v) := fun _ => Nat.zero_le _
theorem arbStatClear (by_ : RegBy) (v : Word64) : Statement (.arbStatClear by_ v) := fun _ => Nat.zero_le _
theorem vatCtlWrite (by_ : RegBy) (vat : BitVec 10) (v : Word64) : Statement (.vatCtlWrite by_ vat v) := fun _ => Nat.zero_le _
theorem vatRearm (by_ : RegBy) (vat : BitVec 10) (v : Word64) : Statement (.vatRearm by_ vat v) := fun _ => Nat.zero_le _
theorem vatStatClear (by_ : RegBy) (vat : BitVec 10) (v : Word64) : Statement (.vatStatClear by_ vat v) := fun _ => Nat.zero_le _
theorem registerWrite (by_ : RegBy) (key : BitVec 23) (v : Word64) : Statement (.registerWrite by_ key v) := fun _ => Nat.zero_le _
theorem responseSend (port : BitVec 3) (mgmt : Bool) : Statement (.responseSend port mgmt) := fun _ => Nat.zero_le _
theorem engineIssue (e : BitVec 4) : Statement (.engineIssue e) := fun _ => Nat.zero_le _
theorem nopDesc (e : BitVec 4) (q : BitVec 2) : Statement (.nopDesc e q) := fun _ => Nat.zero_le _
theorem copyDesc (e : BitVec 4) (q : BitVec 2) : Statement (.copyDesc e q) := fun _ => Nat.zero_le _
theorem fillDesc (e : BitVec 4) (q : BitVec 2) : Statement (.fillDesc e q) := fun _ => Nat.zero_le _
theorem gatherDesc (e : BitVec 4) (q : BitVec 2) : Statement (.gatherDesc e q) := fun _ => Nat.zero_le _
theorem scatterDesc (e : BitVec 4) (q : BitVec 2) : Statement (.scatterDesc e q) := fun _ => Nat.zero_le _
theorem accumDesc (e : BitVec 4) (q : BitVec 2) : Statement (.accumDesc e q) := fun _ => Nat.zero_le _
theorem crcDesc (e : BitVec 4) (q : BitVec 2) : Statement (.crcDesc e q) := fun _ => Nat.zero_le _
theorem compareDesc (e : BitVec 4) (q : BitVec 2) : Statement (.compareDesc e q) := fun _ => Nat.zero_le _
theorem semaTry (e : BitVec 4) (q : BitVec 2) : Statement (.semaTry e q) := fun _ => Nat.zero_le _
theorem semaRelease (e : BitVec 4) (q : BitVec 2) : Statement (.semaRelease e q) := fun _ => Nat.zero_le _
theorem semaTicket (e : BitVec 4) (q : BitVec 2) : Statement (.semaTicket e q) := fun _ => Nat.zero_le _
theorem semaServe (e : BitVec 4) (q : BitVec 2) : Statement (.semaServe e q) := fun _ => Nat.zero_le _
theorem semaPeek (e : BitVec 4) (q : BitVec 2) : Statement (.semaPeek e q) := fun _ => Nat.zero_le _
theorem semaNotify (e : BitVec 4) (q : BitVec 2) : Statement (.semaNotify e q) := fun _ => Nat.zero_le _
theorem postDesc (e : BitVec 4) (q : BitVec 2) : Statement (.postDesc e q) := fun _ => Nat.zero_le _
theorem waitTally (e : BitVec 4) (q : BitVec 2) : Statement (.waitTally e q) := fun _ => Nat.zero_le _
theorem waitCompletions (e : BitVec 4) (q : BitVec 2) : Statement (.waitCompletions e q) := fun _ => Nat.zero_le _
theorem waitFree (e : BitVec 4) (q : BitVec 2) : Statement (.waitFree e q) := fun _ => Nat.zero_le _
theorem waitTake (e : BitVec 4) (q : BitVec 2) : Statement (.waitTake e q) := fun _ => Nat.zero_le _
theorem waitReevaluate (e : BitVec 4) (q : BitVec 2) : Statement (.waitReevaluate e q) := fun _ => Nat.zero_le _
theorem waitTimeout (e : BitVec 4) (q : BitVec 2) : Statement (.waitTimeout e q) := fun _ => Nat.zero_le _
theorem pushDesc (e : BitVec 4) (q : BitVec 2) : Statement (.pushDesc e q) := fun _ => Nat.zero_le _
theorem descriptorFence (e : BitVec 4) (q : BitVec 2) : Statement (.descriptorFence e q) := fun _ => Nat.zero_le _
theorem matchArrive (e : BitVec 4) (q : BitVec 2) : Statement (.matchArrive e q) := fun _ => Nat.zero_le _
theorem matchPost (e : BitVec 4) (q : BitVec 2) : Statement (.matchPost e q) := fun _ => Nat.zero_le _
theorem matchProbe (e : BitVec 4) (q : BitVec 2) : Statement (.matchProbe e q) := fun _ => Nat.zero_le _
theorem matchCancel (e : BitVec 4) (q : BitVec 2) : Statement (.matchCancel e q) := fun _ => Nat.zero_le _
theorem accessReissue (e : BitVec 4) (q : BitVec 2) : Statement (.accessReissue e q) := fun _ => Nat.zero_le _
theorem descriptorRetire (e : BitVec 4) (q : BitVec 2) : Statement (.descriptorRetire e q) := fun _ => Nat.zero_le _
theorem qTailWrite (by_ : RegBy) (e : BitVec 4) (q : BitVec 2) (v : Word64) : Statement (.qTailWrite by_ e q v) := fun _ => Nat.zero_le _
theorem qCfgWrite (by_ : RegBy) (e : BitVec 4) (q : BitVec 2) (v : Word64) : Statement (.qCfgWrite by_ e q v) := fun _ => Nat.zero_le _
theorem stopQueue (by_ : RegBy) (e : BitVec 4) (q : BitVec 2) (v : Word64) : Statement (.stopQueue by_ e q v) := fun _ => Nat.zero_le _
theorem goQueue (by_ : RegBy) (e : BitVec 4) (q : BitVec 2) (v : Word64) : Statement (.goQueue by_ e q v) := fun _ => Nat.zero_le _
theorem resumeRetry (by_ : RegBy) (e : BitVec 4) (q : BitVec 2) (v : Word64) : Statement (.resumeRetry by_ e q v) := fun _ => Nat.zero_le _
theorem resumeSkip (by_ : RegBy) (e : BitVec 4) (q : BitVec 2) (v : Word64) : Statement (.resumeSkip by_ e q v) := fun _ => Nat.zero_le _
theorem offlineWrite (by_ : RegBy) (e : BitVec 4) (v : Word64) : Statement (.offlineWrite by_ e v) := fun _ => Nat.zero_le _
theorem engineOfflineDone (e : BitVec 4) : Statement (.engineOfflineDone e) := fun _ => Nat.zero_le _
theorem engineReset (by_ : RegBy) (e : BitVec 4) (v : Word64) : Statement (.engineReset by_ e v) := fun _ => Nat.zero_le _
theorem rackCopyLine (e : BitVec 4) : Statement (.rackCopyLine e) := fun _ => Nat.zero_le _
theorem mcCtlWrite (by_ : RegBy) (ctx : BitVec 8) (v : Word64) : Statement (.mcCtlWrite by_ ctx v) := fun _ => Nat.zero_le _
theorem mcStatClear (by_ : RegBy) (v : Word64) : Statement (.mcStatClear by_ v) := fun _ => Nat.zero_le _
theorem intcCycle : Statement (.intcCycle) := fun _ => Nat.zero_le _
theorem setPend (by_ : RegBy) (src : BitVec 13) (v : Word64) : Statement (.setPend by_ src v) := fun _ => Nat.zero_le _
theorem pendingClear (by_ : RegBy) (src : BitVec 13) (v : Word64) : Statement (.pendingClear by_ src v) := fun _ => Nat.zero_le _
theorem targetWrite (by_ : RegBy) (src : BitVec 13) (v : Word64) : Statement (.targetWrite by_ src v) := fun _ => Nat.zero_le _
theorem tgtClaim (by_ : RegBy) (t : BitVec 6) : Statement (.tgtClaim by_ t) := fun _ => Nat.zero_le _
theorem tgtEoi (by_ : RegBy) (t : BitVec 6) (v : Word64) : Statement (.tgtEoi by_ t v) := fun _ => Nat.zero_le _
theorem asleepWrite (by_ : RegBy) (t : BitVec 6) (v : Word64) : Statement (.asleepWrite by_ t v) := fun _ => Nat.zero_le _
theorem messageSend (port : BitVec 3) : Statement (.messageSend port) := fun _ => Nat.zero_le _
theorem scrubVisit : Statement (.scrubVisit) := fun _ => Nat.zero_le _
theorem logWrite : Statement (.logWrite) := fun _ => Nat.zero_le _
theorem remapCopy : Statement (.remapCopy) := fun _ => Nat.zero_le _
theorem logClear (by_ : RegBy) (v : Word64) : Statement (.logClear by_ v) := fun _ => Nat.zero_le _
theorem intStatClear (by_ : RegBy) (v : Word64) : Statement (.intStatClear by_ v) := fun _ => Nat.zero_le _
theorem intInjectWrite (by_ : RegBy) (v : Word64) : Statement (.intInjectWrite by_ v) := fun _ => Nat.zero_le _
theorem bgGroupBegin (bank : BitVec 6) : Statement (.bgGroupBegin bank) := fun _ => Nat.zero_le _
theorem holdTimeout (bank : BitVec 6) : Statement (.holdTimeout bank) := fun _ => Nat.zero_le _
theorem tstCmdStart (by_ : RegBy) (v : Word64) : Statement (.tstCmdStart by_ v) := fun _ => Nat.zero_le _
theorem foregroundTestEnd : Statement (.foregroundTestEnd) := fun _ => Nat.zero_le _
theorem abortTest (by_ : RegBy) (v : Word64) : Statement (.abortTest by_ v) := fun _ => Nat.zero_le _
theorem tstStatClear (by_ : RegBy) (v : Word64) : Statement (.tstStatClear by_ v) := fun _ => Nat.zero_le _
theorem rmpCmdGo (by_ : RegBy) (v : Word64) : Statement (.rmpCmdGo by_ v) := fun _ => Nat.zero_le _
theorem retCmdStart (by_ : RegBy) (v : Word64) : Statement (.retCmdStart by_ v) := fun _ => Nat.zero_le _
theorem tstEngGo (by_ : RegBy) (v : Word64) : Statement (.tstEngGo by_ v) := fun _ => Nat.zero_le _
theorem engineSelftestEnd (e : BitVec 4) (passed : Bool) : Statement (.engineSelftestEnd e passed) := fun _ => Nat.zero_le _
/-- Symbols of at most 256 a lane. -/
theorem symbols_le (l : List (List (BitVec 2))) (h : ∀ x ∈ l, x.length ≤ 256) : (l.map List.length).sum ≤ 256 * l.length := by
  induction l with
  | nil => simp
  | cons x l ih =>
    have h1 := h x (by simp)
    have h2 := ih (fun y hy => h y (by simp [hy]))
    simp only [List.map_cons, List.sum_cons, List.length_cons]
    omega

theorem flitReceive (port : BitVec 3) (symbols : List (List (BitVec 2))) : Statement (.flitReceive port symbols) := by
  intro h
  have h : symbolsFit symbols = true := h
  simp only [symbolsFit, Bool.and_eq_true, decide_eq_true_eq, List.all_eq_true, Bool.or_eq_true] at h
  have := symbols_le symbols (fun x hx => by have := h.2 x hx; omega)
  have := h.1
  simp only [payloadBytes]
  omega
theorem nakTimeout (port : BitVec 3) : Statement (.nakTimeout port) := fun _ => Nat.zero_le _
theorem ackTimeout (port : BitVec 3) : Statement (.ackTimeout port) := fun _ => Nat.zero_le _
theorem flitSend (port : BitVec 3) : Statement (.flitSend port) := fun _ => Nat.zero_le _
theorem replayFlits (port : BitVec 3) : Statement (.replayFlits port) := fun _ => Nat.zero_le _
theorem ptStatClear (by_ : RegBy) (p : BitVec 3) (v : Word64) : Statement (.ptStatClear by_ p v) := fun _ => Nat.zero_le _
theorem emfUpdate (port : BitVec 3) (lane : BitVec 4) (rx : LaneObs) : Statement (.emfUpdate port lane rx) := fun _ => Nat.zero_le _
theorem readaptTimeout (port : BitVec 3) (lane : BitVec 4) : Statement (.readaptTimeout port lane) := fun _ => Nat.zero_le _
theorem markerMissing (port : BitVec 3) (lane : BitVec 4) : Statement (.markerMissing port lane) := fun _ => Nat.zero_le _
theorem eiIdleTimeout (port : BitVec 3) : Statement (.eiIdleTimeout port) := fun _ => Nat.zero_le _
theorem eiReq (marker : MarkerIn) : Statement (.eiReq marker) := by
  intro h
  have h := of_decide_eq_true h
  show List.length _ ≤ 1024
  omega
theorem eiAck (marker : MarkerIn) : Statement (.eiAck marker) := by
  intro h
  have h := of_decide_eq_true h
  show List.length _ ≤ 1024
  omega
theorem eiNak (marker : MarkerIn) : Statement (.eiNak marker) := by
  intro h
  have h := of_decide_eq_true h
  show List.length _ ≤ 1024
  omega
theorem eiExit (port : BitVec 3) : Statement (.eiExit port) := fun _ => Nat.zero_le _
theorem wakeBurst (port : BitVec 3) : Statement (.wakeBurst port) := fun _ => Nat.zero_le _
theorem eiExitTimeout (port : BitVec 3) : Statement (.eiExitTimeout port) := fun _ => Nat.zero_le _
theorem retrainReq (marker : MarkerIn) : Statement (.retrainReq marker) := by
  intro h
  have h := of_decide_eq_true h
  show List.length _ ≤ 1024
  omega
theorem retrainTimeout (port : BitVec 3) : Statement (.retrainTimeout port) := fun _ => Nat.zero_le _
theorem trainingBlock (port : BitVec 3) (lane : BitVec 4) (rx : LaneReport) (block : List Byte)
    : Statement (.trainingBlock port lane rx block) := by
  intro h
  have h := of_decide_eq_true (Bool.and_eq_true_iff.mp (Bool.and_eq_true_iff.mp h).1).2
  show List.length _ ≤ 1024
  omega
theorem trainingTimeout (port : BitVec 3) : Statement (.trainingTimeout port) := fun _ => Nat.zero_le _
theorem signalLoss (port : BitVec 3) : Statement (.signalLoss port) := fun _ => Nat.zero_le _
theorem downBackoffEnd (port : BitVec 3) : Statement (.downBackoffEnd port) := fun _ => Nat.zero_le _
theorem unansweredBackoffEnd (port : BitVec 3) : Statement (.unansweredBackoffEnd port) := fun _ => Nat.zero_le _
theorem lphRetrain (by_ : RegBy) (p : BitVec 3) (v : Word64) : Statement (.lphRetrain by_ p v) := fun _ => Nat.zero_le _
theorem spareNowWrite (by_ : RegBy) (p : BitVec 3) (v : Word64) : Statement (.spareNowWrite by_ p v) := fun _ => Nat.zero_le _
theorem unspareWrite (by_ : RegBy) (p : BitVec 3) (v : Word64) : Statement (.unspareWrite by_ p v) := fun _ => Nat.zero_le _
theorem loopWrite (by_ : RegBy) (p : BitVec 3) (v : Word64) : Statement (.loopWrite by_ p v) := fun _ => Nat.zero_le _
theorem minClear (by_ : RegBy) (p : BitVec 3) (lane : BitVec 4) (v : Word64) : Statement (.minClear by_ p lane v) := fun _ => Nat.zero_le _
theorem lnStatClear (by_ : RegBy) (v : Word64) : Statement (.lnStatClear by_ v) := fun _ => Nat.zero_le _
theorem linesUnit (port : BitVec 3) (utag : BitVec 12) (base : BitVec 32) (lmask : BitVec 16) (data : List Byte)
    : Statement (.linesUnit port utag base lmask data) := by
  intro h
  have := selected_le 16 (fun k => lmask.getLsbD k)
  have h := of_decide_eq_true h
  show List.length _ ≤ 1024
  omega
theorem semUnit (port : BitVec 3) (utag : BitVec 12) (n : BitVec 16) (state : Word64) (binding : Word64)
    : Statement (.semUnit port utag n state binding) := fun _ => Nat.zero_le _
theorem mbxUnit (port : BitVec 3) (utag : BitVec 12) (n : BitVec 16) (parts : BitVec 7) (isOpen : Bool) (data : List Byte)
    : Statement (.mbxUnit port utag n parts isOpen data) := by
  intro h
  have := selected_le 7 (fun k => parts.getLsbD k)
  have h := of_decide_eq_true h
  show List.length _ ≤ 1024
  omega
theorem vatUnit (port : BitVec 3) (utag : BitVec 12) (n : BitVec 16) (data : List Byte) : Statement (.vatUnit port utag n data) := by
  intro h
  have h := of_decide_eq_true h
  show List.length _ ≤ 1024
  omega
theorem acceptUnit (port : BitVec 3) (utags : List (BitVec 12)) : Statement (.acceptUnit port utags) := fun _ => Nat.zero_le _
theorem helloUnit (port : BitVec 3) (f : HelloFields) : Statement (.helloUnit port f) := fun _ => Nat.zero_le _
theorem helloSend : Statement (.helloSend) := fun _ => Nat.zero_le _
theorem pairPortLoss (port : BitVec 3) : Statement (.pairPortLoss port) := fun _ => Nat.zero_le _
theorem promoteWrite (by_ : RegBy) (v : Word64) : Statement (.promoteWrite by_ v) := fun _ => Nat.zero_le _
theorem autoPromote : Statement (.autoPromote) := fun _ => Nat.zero_le _
theorem joinWrite (by_ : RegBy) (v : Word64) : Statement (.joinWrite by_ v) := fun _ => Nat.zero_le _
theorem leaveWrite (by_ : RegBy) (v : Word64) : Statement (.leaveWrite by_ v) := fun _ => Nat.zero_le _
theorem syncCopy : Statement (.syncCopy) := fun _ => Nat.zero_le _
theorem healReq (port : BitVec 3) (utag : BitVec 12) (addr : BitVec 32) : Statement (.healReq port utag addr) := fun _ => Nat.zero_le _
theorem healData (port : BitVec 3) (utag : BitVec 12) (addr : BitVec 32) (good : Bool) (data : List Byte)
    : Statement (.healData port utag addr good data) := by
  intro h
  have h : decide (data.length = (if good then 64 else 0)) = true := h
  simp at h
  show List.length _ ≤ 1024
  split at h <;> omega
theorem pwrRegionWrite (by_ : RegBy) (v : Word64) : Statement (.pwrRegionWrite by_ v) := fun _ => Nat.zero_le _
theorem retainWakeDone (region : BitVec 3) : Statement (.retainWakeDone region) := fun _ => Nat.zero_le _
theorem retainIdleTimeout (region : BitVec 3) : Statement (.retainIdleTimeout region) := fun _ => Nat.zero_le _
theorem offWakeDone (region : BitVec 3) : Statement (.offWakeDone region) := fun _ => Nat.zero_le _
theorem devStateWrite (by_ : RegBy) (v : Word64) : Statement (.devStateWrite by_ v) := fun _ => Nat.zero_le _
theorem holdEntry (mv : BitVec 16) : Statement (.holdEntry mv) := fun _ => Nat.zero_le _
theorem holdEnd (minMv : BitVec 16) : Statement (.holdEnd minMv) := fun _ => Nat.zero_le _
theorem brownoutReset : Statement (.brownoutReset) := fun _ => Nat.zero_le _
theorem powerOn : Statement (.powerOn) := fun _ => Nat.zero_le _
theorem railFail (vio : Bool) : Statement (.railFail vio) := fun _ => Nat.zero_le _
theorem pinReset : Statement (.pinReset) := fun _ => Nat.zero_le _
theorem warmReset (by_ : RegBy) (v : Word64) : Statement (.warmReset by_ v) := fun _ => Nat.zero_le _
theorem portReset (by_ : RegBy) (v : Word64) : Statement (.portReset by_ v) := fun _ => Nat.zero_le _
theorem startStep (rep : StepReport) : Statement (.startStep rep) := fun _ => Nat.zero_le _
theorem s8Timeout : Statement (.s8Timeout) := fun _ => Nat.zero_le _
theorem s9Timeout : Statement (.s9Timeout) := fun _ => Nat.zero_le _
theorem refclkLoss : Statement (.refclkLoss) := fun _ => Nat.zero_le _
theorem refclkReturn : Statement (.refclkReturn) := fun _ => Nat.zero_le _
theorem scHalt : Statement (.scHalt) := fun _ => Nat.zero_le _
theorem fatalError (cause : BitVec 8) (detail : BitVec 32) : Statement (.fatalError cause detail) := fun _ => Nat.zero_le _
theorem cellarRecordDone : Statement (.cellarRecordDone) := fun _ => Nat.zero_le _
theorem fatalWatchdog : Statement (.fatalWatchdog) := fun _ => Nat.zero_le _
theorem enumFrame (f : ChainFrame) : Statement (.enumFrame f) := by
  intro h
  have := f.len.isLt
  have h := of_decide_eq_true (Bool.and_eq_true_iff.mp (Bool.and_eq_true_iff.mp h).1).2
  show List.length _ ≤ 1024
  omega
theorem lineFrame (f : ChainFrame) : Statement (.lineFrame f) := by
  intro h
  have := f.len.isLt
  have h := of_decide_eq_true (Bool.and_eq_true_iff.mp (Bool.and_eq_true_iff.mp h).1).2
  show List.length _ ≤ 1024
  omega
theorem pollFrame (f : ChainFrame) : Statement (.pollFrame f) := by
  intro h
  have := f.len.isLt
  have h := of_decide_eq_true (Bool.and_eq_true_iff.mp (Bool.and_eq_true_iff.mp h).1).2
  show List.length _ ≤ 1024
  omega
theorem statusFrame (f : ChainFrame) : Statement (.statusFrame f) := by
  intro h
  have := f.len.isLt
  have h := of_decide_eq_true (Bool.and_eq_true_iff.mp (Bool.and_eq_true_iff.mp h).1).2
  show List.length _ ≤ 1024
  omega
theorem peekFrame (f : ChainFrame) : Statement (.peekFrame f) := by
  intro h
  have := f.len.isLt
  have h := of_decide_eq_true (Bool.and_eq_true_iff.mp (Bool.and_eq_true_iff.mp h).1).2
  show List.length _ ≤ 1024
  omega
theorem peekDone : Statement (.peekDone) := fun _ => Nat.zero_le _
theorem consoleCharacter (c : Byte) : Statement (.consoleCharacter c) := fun _ => Nat.zero_le _
theorem consoleBreak : Statement (.consoleBreak) := fun _ => Nat.zero_le _
theorem helpCmd (sess : Session) : Statement (.helpCmd sess) := fun _ => Nat.zero_le _
theorem showCmd (sess : Session) : Statement (.showCmd sess) := fun _ => Nat.zero_le _
theorem getCmd (sess : Session) : Statement (.getCmd sess) := fun _ => Nat.zero_le _
theorem setCmd (sess : Session) : Statement (.setCmd sess) := fun _ => Nat.zero_le _
theorem modeHuman (sess : Session) : Statement (.modeHuman sess) := fun _ => Nat.zero_le _
theorem modeMachine (sess : Session) : Statement (.modeMachine sess) := fun _ => Nat.zero_le _
theorem unlockCmd (sess : Session) : Statement (.unlockCmd sess) := fun _ => Nat.zero_le _
theorem lockCmd (sess : Session) : Statement (.lockCmd sess) := fun _ => Nat.zero_le _
theorem phraseCmd (sess : Session) : Statement (.phraseCmd sess) := fun _ => Nat.zero_le _
theorem grantPriv (sess : Session) : Statement (.grantPriv sess) := fun _ => Nat.zero_le _
theorem grantUnpriv (sess : Session) : Statement (.grantUnpriv sess) := fun _ => Nat.zero_le _
theorem portEnable (sess : Session) : Statement (.portEnable sess) := fun _ => Nat.zero_le _
theorem portDisable (sess : Session) : Statement (.portDisable sess) := fun _ => Nat.zero_le _
theorem portResetCommand (sess : Session) : Statement (.portResetCommand sess) := fun _ => Nat.zero_le _
theorem portRetrain (sess : Session) : Statement (.portRetrain sess) := fun _ => Nat.zero_le _
theorem portSpare (sess : Session) : Statement (.portSpare sess) := fun _ => Nat.zero_le _
theorem portUnspare (sess : Session) : Statement (.portUnspare sess) := fun _ => Nat.zero_le _
theorem portRates (sess : Session) : Statement (.portRates sess) := fun _ => Nat.zero_le _
theorem bankRetire (sess : Session) : Statement (.bankRetire sess) := fun _ => Nat.zero_le _
theorem bankRemap (sess : Session) : Statement (.bankRemap sess) := fun _ => Nat.zero_le _
theorem engineOffline (sess : Session) : Statement (.engineOffline sess) := fun _ => Nat.zero_le _
theorem engineOnline (sess : Session) : Statement (.engineOnline sess) := fun _ => Nat.zero_le _
theorem engineResetCommand (sess : Session) : Statement (.engineResetCommand sess) := fun _ => Nat.zero_le _
theorem engineTest (sess : Session) : Statement (.engineTest sess) := fun _ => Nat.zero_le _
theorem testCmd (sess : Session) : Statement (.testCmd sess) := fun _ => Nat.zero_le _
theorem scrubOn (sess : Session) : Statement (.scrubOn sess) := fun _ => Nat.zero_le _
theorem scrubOff (sess : Session) : Statement (.scrubOff sess) := fun _ => Nat.zero_le _
theorem scrubPeriod (sess : Session) : Statement (.scrubPeriod sess) := fun _ => Nat.zero_le _
theorem pairRole (sess : Session) : Statement (.pairRole sess) := fun _ => Nat.zero_le _
theorem pairPorts (sess : Session) : Statement (.pairPorts sess) := fun _ => Nat.zero_le _
theorem pairMirror (sess : Session) : Statement (.pairMirror sess) := fun _ => Nat.zero_le _
theorem pairJoin (sess : Session) : Statement (.pairJoin sess) := fun _ => Nat.zero_le _
theorem pairPromote (sess : Session) : Statement (.pairPromote sess) := fun _ => Nat.zero_le _
theorem pairLeave (sess : Session) : Statement (.pairLeave sess) := fun _ => Nat.zero_le _
theorem recordStart (sess : Session) : Statement (.recordStart sess) := fun _ => Nat.zero_le _
theorem recordCellar (sess : Session) : Statement (.recordCellar sess) := fun _ => Nat.zero_le _
theorem resetWarm (sess : Session) : Statement (.resetWarm sess) := fun _ => Nat.zero_le _
theorem resetPort (sess : Session) : Statement (.resetPort sess) := fun _ => Nat.zero_le _
theorem consoleBaud (sess : Session) : Statement (.consoleBaud sess) := fun _ => Nat.zero_le _
theorem keeperTimeout (sess : Session) : Statement (.keeperTimeout sess) := fun _ => Nat.zero_le _
theorem lockoutTick : Statement (.lockoutTick) := fun _ => Nat.zero_le _
theorem mgStatClear (by_ : RegBy) (v : Word64) : Statement (.mgStatClear by_ v) := fun _ => Nat.zero_le _
theorem pcCfgWrite (by_ : RegBy) (i : BitVec 6) (v : Word64) : Statement (.pcCfgWrite by_ i v) := fun _ => Nat.zero_le _
theorem freezeCounters (by_ : RegBy) (v : Word64) : Statement (.freezeCounters by_ v) := fun _ => Nat.zero_le _
theorem clearAll (by_ : RegBy) (v : Word64) : Statement (.clearAll by_ v) := fun _ => Nat.zero_le _
theorem smpCtlWrite (by_ : RegBy) (v : Word64) : Statement (.smpCtlWrite by_ v) := fun _ => Nat.zero_le _
theorem smpClear (by_ : RegBy) (v : Word64) : Statement (.smpClear by_ v) := fun _ => Nat.zero_le _
theorem smpIdxWrite (by_ : RegBy) (v : Word64) : Statement (.smpIdxWrite by_ v) := fun _ => Nat.zero_le _
theorem trIdxWrite (by_ : RegBy) (v : Word64) : Statement (.trIdxWrite by_ v) := fun _ => Nat.zero_le _
theorem trClear (by_ : RegBy) (v : Word64) : Statement (.trClear by_ v) := fun _ => Nat.zero_le _
theorem celCtlWrite (by_ : RegBy) (v : Word64) : Statement (.celCtlWrite by_ v) := fun _ => Nat.zero_le _
theorem resetNRise : Statement (.resetNRise) := fun _ => Nat.zero_le _
theorem undefinedTypeFrame (f : ChainFrame) (typ : Byte) : Statement (.undefinedTypeFrame f typ) := by
  intro h
  have := f.len.isLt
  have h := of_decide_eq_true (Bool.and_eq_true_iff.mp (Bool.and_eq_true_iff.mp h).1).2
  show List.length _ ≤ 1024
  omega
theorem unknownCommand (sess : Session) : Statement (.unknownCommand sess) := fun _ => Nat.zero_le _
theorem lossOfLock (port : BitVec 3) (lane : BitVec 4) : Statement (.lossOfLock port lane) := fun _ => Nat.zero_le _
theorem retainEntryDone (region : BitVec 3) : Statement (.retainEntryDone region) := fun _ => Nat.zero_le _
theorem s4Timeout : Statement (.s4Timeout) := fun _ => Nat.zero_le _
theorem spareTestPassBegin (spare : BitVec 1) : Statement (.spareTestPassBegin spare) := fun _ => Nat.zero_le _
theorem scRepairPolicy (bank : BitVec 6) : Statement (.scRepairPolicy bank) := fun _ => Nat.zero_le _

end Payload
end Sys2Proof.Laws
end

