-- ==== Sys2Proof/Laws/Regs.lean ====
section
/-! SUPPORT. The register file: a register reads back what was written into it, and a write leaves every other register and every other
field of the state alone. -/

namespace Sys2Proof.Machine

/-- Three equal copies outvote nothing. -/
@[simp] theorem majority_same (w : Word64) : majority (w, w, w) = w := by
  simp [majority]

/-- A register reads back what was written into it, a triple-kept word from its three copies (R236). -/
@[simp] theorem rd_wr_same (s : State) (key : Nat) (w : Word64) : rd (wr s key w) key = w := by
  unfold rd wr
  cases h : tkIndex key with
  | none => simp
  | some n =>
    by_cases hn : 16 ≤ n
    · simp only [hn, ite_true, sget_sset_same, tkCopies, majority_same]
      ext i
      simp only [BitVec.getElem_or, BitVec.getElem_and, BitVec.getElem_not]
      cases w[i] <;> cases (tkMask n)[i] <;> rfl
    · have hm : tkMask n = BitVec.allOnes 64 := by simp [tkMask, hn]
      simp only [hn, ite_false, tkCopies, sget_sset_same, majority_same, hm, BitVec.and_allOnes]

/-- A write leaves every other register alone: one that shares no triple-kept word with it. -/
theorem rd_wr_other (s : State) {key j : Nat} (w : Word64) (h : j ≠ key) (ht : tkIndex j = none ∨ tkIndex j ≠ tkIndex key) :
    rd (wr s key w) j = rd s j := by
  unfold rd wr
  cases hk : tkIndex key with
  | none =>
    cases hj : tkIndex j with
    | none => simp [sget_sset_ne _ _ _ _ h]
    | some m => simp [sget_sset_ne _ _ _ _ h, tkCopies]
  | some n =>
    cases hj : tkIndex j with
    | none => by_cases hn : 16 ≤ n <;> simp [hn, sget_sset_ne _ _ _ _ h]
    | some m =>
      have hm : m ≠ n := by
        intro e
        rw [hj, hk, e] at ht
        simp at ht
      by_cases hn : 16 ≤ n <;> by_cases hm' : 16 ≤ m <;>
        simp [hn, hm', sget_sset_ne _ _ _ _ h, sget_sset_ne _ _ _ _ hm, tkCopies]

/-- A write of a register touches the register file only. -/
theorem wr_eq (s : State) (key : Nat) (w : Word64) : ∃ r k, wr s key w = { s with regs := r, tk := k } := by
  unfold wr
  cases tkIndex key with
  | none => exact ⟨_, s.tk, rfl⟩
  | some n =>
    dsimp only
    split
    · exact ⟨_, _, rfl⟩
    · exact ⟨s.regs, _, rfl⟩

/-- Replacing a field of a register touches the register file only. -/
theorem wrF_eq (s : State) (key : Nat) (f : Fld) (v : Nat) : ∃ r k, wrF s key f v = { s with regs := r, tk := k } := wr_eq _ _ _
/-- Setting a one-bit field touches the register file only. -/
theorem wrB_eq (s : State) (key : Nat) (f : Fld) (b : Bool) : ∃ r k, wrB s key f b = { s with regs := r, tk := k } := wr_eq _ _ _
/-- A saturating count touches the register file only. -/
theorem addSat_eq (s : State) (key : Nat) (f : Fld) (n : Nat) : ∃ r k, addSat s key f n = { s with regs := r, tk := k } := wr_eq _ _ _
/-- A wrapping count touches the register file only. -/
theorem addWrap_eq (s : State) (key : Nat) (f : Fld) (n : Nat) : ∃ r k, addWrap s key f n = { s with regs := r, tk := k } := wr_eq _ _ _

/-- The whole word after a field is replaced. -/
@[simp] theorem rd_wrF_same (s : State) (key : Nat) (f : Fld) (v : Nat) : rd (wrF s key f v) key = setF (rd s key) f v := rd_wr_same _ _ _
/-- Replacing a field leaves every other register alone. -/
theorem rd_wrF_other (s : State) {key j : Nat} (f : Fld) (v : Nat) (h : j ≠ key) (ht : tkIndex j = none ∨ tkIndex j ≠ tkIndex key) :
    rd (wrF s key f v) j = rd s j := rd_wr_other _ _ h ht

end Sys2Proof.Machine
end

