-- ==== Sys2Proof/Laws/State.lean ====
section
/-! SUPPORT. What the named updates of the state leave alone, field by field, and what their readers then give. -/

namespace Sys2Proof.Machine

/-! ### setBank -/

@[simp] theorem setBank_pending (s : State) (b : Nat) (v : Bank) : (setBank s b v).pending = s.pending := rfl
@[simp] theorem setBank_variant (s : State) (b : Nat) (v : Bank) : (setBank s b v).variant = s.variant := rfl
@[simp] theorem setBank_time (s : State) (b : Nat) (v : Bank) : (setBank s b v).time = s.time := rfl
@[simp] theorem setBank_free (s : State) (b : Nat) (v : Bank) : (setBank s b v).free = s.free := rfl
@[simp] theorem setBank_nextUid (s : State) (b : Nat) (v : Bank) : (setBank s b v).nextUid = s.nextUid := rfl
@[simp] theorem setBank_regs (s : State) (b : Nat) (v : Bank) : (setBank s b v).regs = s.regs := rfl
@[simp] theorem setBank_statCleared (s : State) (b : Nat) (v : Bank) : (setBank s b v).statCleared = s.statCleared := rfl
@[simp] theorem setBank_tk (s : State) (b : Nat) (v : Bank) : (setBank s b v).tk = s.tk := rfl
@[simp] theorem setBank_cells (s : State) (b : Nat) (v : Bank) : (setBank s b v).cells = s.cells := rfl
@[simp] theorem setBank_txns (s : State) (b : Nat) (v : Bank) : (setBank s b v).txns = s.txns := rfl
@[simp] theorem setBank_heldOrd (s : State) (b : Nat) (v : Bank) : (setBank s b v).heldOrd = s.heldOrd := rfl
@[simp] theorem setBank_semq (s : State) (b : Nat) (v : Bank) : (setBank s b v).semq = s.semq := rfl
@[simp] theorem setBank_semStage (s : State) (b : Nat) (v : Bank) : (setBank s b v).semStage = s.semStage := rfl
@[simp] theorem setBank_semServed (s : State) (b : Nat) (v : Bank) : (setBank s b v).semServed = s.semServed := rfl
@[simp] theorem setBank_semClearAt (s : State) (b : Nat) (v : Bank) : (setBank s b v).semClearAt = s.semClearAt := rfl
@[simp] theorem setBank_mbxq (s : State) (b : Nat) (v : Bank) : (setBank s b v).mbxq = s.mbxq := rfl
@[simp] theorem setBank_mbxStage (s : State) (b : Nat) (v : Bank) : (setBank s b v).mbxStage = s.mbxStage := rfl
@[simp] theorem setBank_mbxServed (s : State) (b : Nat) (v : Bank) : (setBank s b v).mbxServed = s.mbxServed := rfl
@[simp] theorem setBank_mbxClearAt (s : State) (b : Nat) (v : Bank) : (setBank s b v).mbxClearAt = s.mbxClearAt := rfl
@[simp] theorem setBank_commits (s : State) (b : Nat) (v : Bank) : (setBank s b v).commits = s.commits := rfl
@[simp] theorem setBank_tallies (s : State) (b : Nat) (v : Bank) : (setBank s b v).tallies = s.tallies := rfl
@[simp] theorem setBank_vatGen (s : State) (b : Nat) (v : Bank) : (setBank s b v).vatGen = s.vatGen := rfl
@[simp] theorem setBank_before (s : State) (b : Nat) (v : Bank) : (setBank s b v).before = s.before := rfl
@[simp] theorem setBank_links (s : State) (b : Nat) (v : Bank) : (setBank s b v).links = s.links := rfl
@[simp] theorem setBank_phys (s : State) (b : Nat) (v : Bank) : (setBank s b v).phys = s.phys := rfl
@[simp] theorem setBank_lanes (s : State) (b : Nat) (v : Bank) : (setBank s b v).lanes = s.lanes := rfl
@[simp] theorem setBank_queues (s : State) (b : Nat) (v : Bank) : (setBank s b v).queues = s.queues := rfl
@[simp] theorem setBank_engines (s : State) (b : Nat) (v : Bank) : (setBank s b v).engines = s.engines := rfl
@[simp] theorem setBank_pushes (s : State) (b : Nat) (v : Bank) : (setBank s b v).pushes = s.pushes := rfl
@[simp] theorem setBank_intcEvents (s : State) (b : Nat) (v : Bank) : (setBank s b v).intcEvents = s.intcEvents := rfl
@[simp] theorem setBank_intcTurn (s : State) (b : Nat) (v : Bank) : (setBank s b v).intcTurn = s.intcTurn := rfl
@[simp] theorem setBank_intcWait (s : State) (b : Nat) (v : Bank) : (setBank s b v).intcWait = s.intcWait := rfl
@[simp] theorem setBank_msgs (s : State) (b : Nat) (v : Bank) : (setBank s b v).msgs = s.msgs := rfl
@[simp] theorem setBank_pins (s : State) (b : Nat) (v : Bank) : (setBank s b v).pins = s.pins := rfl
@[simp] theorem setBank_integ (s : State) (b : Nat) (v : Bank) : (setBank s b v).integ = s.integ := rfl
@[simp] theorem setBank_test (s : State) (b : Nat) (v : Bank) : (setBank s b v).test = s.test := rfl
@[simp] theorem setBank_pair (s : State) (b : Nat) (v : Bank) : (setBank s b v).pair = s.pair := rfl
@[simp] theorem setBank_power (s : State) (b : Nat) (v : Bank) : (setBank s b v).power = s.power := rfl
@[simp] theorem setBank_mgmt (s : State) (b : Nat) (v : Bank) : (setBank s b v).mgmt = s.mgmt := rfl
@[simp] theorem setBank_obs (s : State) (b : Nat) (v : Bank) : (setBank s b v).obs = s.obs := rfl
@[simp] theorem setBank_out (s : State) (b : Nat) (v : Bank) : (setBank s b v).out = s.out := rfl

/-! ### setLink -/

@[simp] theorem setLink_pending (s : State) (p : Nat) (v : Link) : (setLink s p v).pending = s.pending := rfl
@[simp] theorem setLink_variant (s : State) (p : Nat) (v : Link) : (setLink s p v).variant = s.variant := rfl
@[simp] theorem setLink_time (s : State) (p : Nat) (v : Link) : (setLink s p v).time = s.time := rfl
@[simp] theorem setLink_free (s : State) (p : Nat) (v : Link) : (setLink s p v).free = s.free := rfl
@[simp] theorem setLink_nextUid (s : State) (p : Nat) (v : Link) : (setLink s p v).nextUid = s.nextUid := rfl
@[simp] theorem setLink_regs (s : State) (p : Nat) (v : Link) : (setLink s p v).regs = s.regs := rfl
@[simp] theorem setLink_statCleared (s : State) (p : Nat) (v : Link) : (setLink s p v).statCleared = s.statCleared := rfl
@[simp] theorem setLink_tk (s : State) (p : Nat) (v : Link) : (setLink s p v).tk = s.tk := rfl
@[simp] theorem setLink_cells (s : State) (p : Nat) (v : Link) : (setLink s p v).cells = s.cells := rfl
@[simp] theorem setLink_banks (s : State) (p : Nat) (v : Link) : (setLink s p v).banks = s.banks := rfl
@[simp] theorem setLink_txns (s : State) (p : Nat) (v : Link) : (setLink s p v).txns = s.txns := rfl
@[simp] theorem setLink_heldOrd (s : State) (p : Nat) (v : Link) : (setLink s p v).heldOrd = s.heldOrd := rfl
@[simp] theorem setLink_semq (s : State) (p : Nat) (v : Link) : (setLink s p v).semq = s.semq := rfl
@[simp] theorem setLink_semStage (s : State) (p : Nat) (v : Link) : (setLink s p v).semStage = s.semStage := rfl
@[simp] theorem setLink_semServed (s : State) (p : Nat) (v : Link) : (setLink s p v).semServed = s.semServed := rfl
@[simp] theorem setLink_semClearAt (s : State) (p : Nat) (v : Link) : (setLink s p v).semClearAt = s.semClearAt := rfl
@[simp] theorem setLink_mbxq (s : State) (p : Nat) (v : Link) : (setLink s p v).mbxq = s.mbxq := rfl
@[simp] theorem setLink_mbxStage (s : State) (p : Nat) (v : Link) : (setLink s p v).mbxStage = s.mbxStage := rfl
@[simp] theorem setLink_mbxServed (s : State) (p : Nat) (v : Link) : (setLink s p v).mbxServed = s.mbxServed := rfl
@[simp] theorem setLink_mbxClearAt (s : State) (p : Nat) (v : Link) : (setLink s p v).mbxClearAt = s.mbxClearAt := rfl
@[simp] theorem setLink_commits (s : State) (p : Nat) (v : Link) : (setLink s p v).commits = s.commits := rfl
@[simp] theorem setLink_tallies (s : State) (p : Nat) (v : Link) : (setLink s p v).tallies = s.tallies := rfl
@[simp] theorem setLink_vatGen (s : State) (p : Nat) (v : Link) : (setLink s p v).vatGen = s.vatGen := rfl
@[simp] theorem setLink_before (s : State) (p : Nat) (v : Link) : (setLink s p v).before = s.before := rfl
@[simp] theorem setLink_phys (s : State) (p : Nat) (v : Link) : (setLink s p v).phys = s.phys := rfl
@[simp] theorem setLink_lanes (s : State) (p : Nat) (v : Link) : (setLink s p v).lanes = s.lanes := rfl
@[simp] theorem setLink_queues (s : State) (p : Nat) (v : Link) : (setLink s p v).queues = s.queues := rfl
@[simp] theorem setLink_engines (s : State) (p : Nat) (v : Link) : (setLink s p v).engines = s.engines := rfl
@[simp] theorem setLink_pushes (s : State) (p : Nat) (v : Link) : (setLink s p v).pushes = s.pushes := rfl
@[simp] theorem setLink_intcEvents (s : State) (p : Nat) (v : Link) : (setLink s p v).intcEvents = s.intcEvents := rfl
@[simp] theorem setLink_intcTurn (s : State) (p : Nat) (v : Link) : (setLink s p v).intcTurn = s.intcTurn := rfl
@[simp] theorem setLink_intcWait (s : State) (p : Nat) (v : Link) : (setLink s p v).intcWait = s.intcWait := rfl
@[simp] theorem setLink_msgs (s : State) (p : Nat) (v : Link) : (setLink s p v).msgs = s.msgs := rfl
@[simp] theorem setLink_pins (s : State) (p : Nat) (v : Link) : (setLink s p v).pins = s.pins := rfl
@[simp] theorem setLink_integ (s : State) (p : Nat) (v : Link) : (setLink s p v).integ = s.integ := rfl
@[simp] theorem setLink_test (s : State) (p : Nat) (v : Link) : (setLink s p v).test = s.test := rfl
@[simp] theorem setLink_pair (s : State) (p : Nat) (v : Link) : (setLink s p v).pair = s.pair := rfl
@[simp] theorem setLink_power (s : State) (p : Nat) (v : Link) : (setLink s p v).power = s.power := rfl
@[simp] theorem setLink_mgmt (s : State) (p : Nat) (v : Link) : (setLink s p v).mgmt = s.mgmt := rfl
@[simp] theorem setLink_obs (s : State) (p : Nat) (v : Link) : (setLink s p v).obs = s.obs := rfl
@[simp] theorem setLink_out (s : State) (p : Nat) (v : Link) : (setLink s p v).out = s.out := rfl

/-! ### setPhy -/

@[simp] theorem setPhy_pending (s : State) (p : Nat) (v : Phy) : (setPhy s p v).pending = s.pending := rfl
@[simp] theorem setPhy_variant (s : State) (p : Nat) (v : Phy) : (setPhy s p v).variant = s.variant := rfl
@[simp] theorem setPhy_time (s : State) (p : Nat) (v : Phy) : (setPhy s p v).time = s.time := rfl
@[simp] theorem setPhy_free (s : State) (p : Nat) (v : Phy) : (setPhy s p v).free = s.free := rfl
@[simp] theorem setPhy_nextUid (s : State) (p : Nat) (v : Phy) : (setPhy s p v).nextUid = s.nextUid := rfl
@[simp] theorem setPhy_regs (s : State) (p : Nat) (v : Phy) : (setPhy s p v).regs = s.regs := rfl
@[simp] theorem setPhy_statCleared (s : State) (p : Nat) (v : Phy) : (setPhy s p v).statCleared = s.statCleared := rfl
@[simp] theorem setPhy_tk (s : State) (p : Nat) (v : Phy) : (setPhy s p v).tk = s.tk := rfl
@[simp] theorem setPhy_cells (s : State) (p : Nat) (v : Phy) : (setPhy s p v).cells = s.cells := rfl
@[simp] theorem setPhy_banks (s : State) (p : Nat) (v : Phy) : (setPhy s p v).banks = s.banks := rfl
@[simp] theorem setPhy_txns (s : State) (p : Nat) (v : Phy) : (setPhy s p v).txns = s.txns := rfl
@[simp] theorem setPhy_heldOrd (s : State) (p : Nat) (v : Phy) : (setPhy s p v).heldOrd = s.heldOrd := rfl
@[simp] theorem setPhy_semq (s : State) (p : Nat) (v : Phy) : (setPhy s p v).semq = s.semq := rfl
@[simp] theorem setPhy_semStage (s : State) (p : Nat) (v : Phy) : (setPhy s p v).semStage = s.semStage := rfl
@[simp] theorem setPhy_semServed (s : State) (p : Nat) (v : Phy) : (setPhy s p v).semServed = s.semServed := rfl
@[simp] theorem setPhy_semClearAt (s : State) (p : Nat) (v : Phy) : (setPhy s p v).semClearAt = s.semClearAt := rfl
@[simp] theorem setPhy_mbxq (s : State) (p : Nat) (v : Phy) : (setPhy s p v).mbxq = s.mbxq := rfl
@[simp] theorem setPhy_mbxStage (s : State) (p : Nat) (v : Phy) : (setPhy s p v).mbxStage = s.mbxStage := rfl
@[simp] theorem setPhy_mbxServed (s : State) (p : Nat) (v : Phy) : (setPhy s p v).mbxServed = s.mbxServed := rfl
@[simp] theorem setPhy_mbxClearAt (s : State) (p : Nat) (v : Phy) : (setPhy s p v).mbxClearAt = s.mbxClearAt := rfl
@[simp] theorem setPhy_commits (s : State) (p : Nat) (v : Phy) : (setPhy s p v).commits = s.commits := rfl
@[simp] theorem setPhy_tallies (s : State) (p : Nat) (v : Phy) : (setPhy s p v).tallies = s.tallies := rfl
@[simp] theorem setPhy_vatGen (s : State) (p : Nat) (v : Phy) : (setPhy s p v).vatGen = s.vatGen := rfl
@[simp] theorem setPhy_before (s : State) (p : Nat) (v : Phy) : (setPhy s p v).before = s.before := rfl
@[simp] theorem setPhy_links (s : State) (p : Nat) (v : Phy) : (setPhy s p v).links = s.links := rfl
@[simp] theorem setPhy_lanes (s : State) (p : Nat) (v : Phy) : (setPhy s p v).lanes = s.lanes := rfl
@[simp] theorem setPhy_queues (s : State) (p : Nat) (v : Phy) : (setPhy s p v).queues = s.queues := rfl
@[simp] theorem setPhy_engines (s : State) (p : Nat) (v : Phy) : (setPhy s p v).engines = s.engines := rfl
@[simp] theorem setPhy_pushes (s : State) (p : Nat) (v : Phy) : (setPhy s p v).pushes = s.pushes := rfl
@[simp] theorem setPhy_intcEvents (s : State) (p : Nat) (v : Phy) : (setPhy s p v).intcEvents = s.intcEvents := rfl
@[simp] theorem setPhy_intcTurn (s : State) (p : Nat) (v : Phy) : (setPhy s p v).intcTurn = s.intcTurn := rfl
@[simp] theorem setPhy_intcWait (s : State) (p : Nat) (v : Phy) : (setPhy s p v).intcWait = s.intcWait := rfl
@[simp] theorem setPhy_msgs (s : State) (p : Nat) (v : Phy) : (setPhy s p v).msgs = s.msgs := rfl
@[simp] theorem setPhy_pins (s : State) (p : Nat) (v : Phy) : (setPhy s p v).pins = s.pins := rfl
@[simp] theorem setPhy_integ (s : State) (p : Nat) (v : Phy) : (setPhy s p v).integ = s.integ := rfl
@[simp] theorem setPhy_test (s : State) (p : Nat) (v : Phy) : (setPhy s p v).test = s.test := rfl
@[simp] theorem setPhy_pair (s : State) (p : Nat) (v : Phy) : (setPhy s p v).pair = s.pair := rfl
@[simp] theorem setPhy_power (s : State) (p : Nat) (v : Phy) : (setPhy s p v).power = s.power := rfl
@[simp] theorem setPhy_mgmt (s : State) (p : Nat) (v : Phy) : (setPhy s p v).mgmt = s.mgmt := rfl
@[simp] theorem setPhy_obs (s : State) (p : Nat) (v : Phy) : (setPhy s p v).obs = s.obs := rfl
@[simp] theorem setPhy_out (s : State) (p : Nat) (v : Phy) : (setPhy s p v).out = s.out := rfl

/-! ### setLane -/

@[simp] theorem setLane_pending (s : State) (p j : Nat) (v : LaneDyn) : (setLane s p j v).pending = s.pending := rfl
@[simp] theorem setLane_variant (s : State) (p j : Nat) (v : LaneDyn) : (setLane s p j v).variant = s.variant := rfl
@[simp] theorem setLane_time (s : State) (p j : Nat) (v : LaneDyn) : (setLane s p j v).time = s.time := rfl
@[simp] theorem setLane_free (s : State) (p j : Nat) (v : LaneDyn) : (setLane s p j v).free = s.free := rfl
@[simp] theorem setLane_nextUid (s : State) (p j : Nat) (v : LaneDyn) : (setLane s p j v).nextUid = s.nextUid := rfl
@[simp] theorem setLane_regs (s : State) (p j : Nat) (v : LaneDyn) : (setLane s p j v).regs = s.regs := rfl
@[simp] theorem setLane_statCleared (s : State) (p j : Nat) (v : LaneDyn) : (setLane s p j v).statCleared = s.statCleared := rfl
@[simp] theorem setLane_tk (s : State) (p j : Nat) (v : LaneDyn) : (setLane s p j v).tk = s.tk := rfl
@[simp] theorem setLane_cells (s : State) (p j : Nat) (v : LaneDyn) : (setLane s p j v).cells = s.cells := rfl
@[simp] theorem setLane_banks (s : State) (p j : Nat) (v : LaneDyn) : (setLane s p j v).banks = s.banks := rfl
@[simp] theorem setLane_txns (s : State) (p j : Nat) (v : LaneDyn) : (setLane s p j v).txns = s.txns := rfl
@[simp] theorem setLane_heldOrd (s : State) (p j : Nat) (v : LaneDyn) : (setLane s p j v).heldOrd = s.heldOrd := rfl
@[simp] theorem setLane_semq (s : State) (p j : Nat) (v : LaneDyn) : (setLane s p j v).semq = s.semq := rfl
@[simp] theorem setLane_semStage (s : State) (p j : Nat) (v : LaneDyn) : (setLane s p j v).semStage = s.semStage := rfl
@[simp] theorem setLane_semServed (s : State) (p j : Nat) (v : LaneDyn) : (setLane s p j v).semServed = s.semServed := rfl
@[simp] theorem setLane_semClearAt (s : State) (p j : Nat) (v : LaneDyn) : (setLane s p j v).semClearAt = s.semClearAt := rfl
@[simp] theorem setLane_mbxq (s : State) (p j : Nat) (v : LaneDyn) : (setLane s p j v).mbxq = s.mbxq := rfl
@[simp] theorem setLane_mbxStage (s : State) (p j : Nat) (v : LaneDyn) : (setLane s p j v).mbxStage = s.mbxStage := rfl
@[simp] theorem setLane_mbxServed (s : State) (p j : Nat) (v : LaneDyn) : (setLane s p j v).mbxServed = s.mbxServed := rfl
@[simp] theorem setLane_mbxClearAt (s : State) (p j : Nat) (v : LaneDyn) : (setLane s p j v).mbxClearAt = s.mbxClearAt := rfl
@[simp] theorem setLane_commits (s : State) (p j : Nat) (v : LaneDyn) : (setLane s p j v).commits = s.commits := rfl
@[simp] theorem setLane_tallies (s : State) (p j : Nat) (v : LaneDyn) : (setLane s p j v).tallies = s.tallies := rfl
@[simp] theorem setLane_vatGen (s : State) (p j : Nat) (v : LaneDyn) : (setLane s p j v).vatGen = s.vatGen := rfl
@[simp] theorem setLane_before (s : State) (p j : Nat) (v : LaneDyn) : (setLane s p j v).before = s.before := rfl
@[simp] theorem setLane_links (s : State) (p j : Nat) (v : LaneDyn) : (setLane s p j v).links = s.links := rfl
@[simp] theorem setLane_phys (s : State) (p j : Nat) (v : LaneDyn) : (setLane s p j v).phys = s.phys := rfl
@[simp] theorem setLane_queues (s : State) (p j : Nat) (v : LaneDyn) : (setLane s p j v).queues = s.queues := rfl
@[simp] theorem setLane_engines (s : State) (p j : Nat) (v : LaneDyn) : (setLane s p j v).engines = s.engines := rfl
@[simp] theorem setLane_pushes (s : State) (p j : Nat) (v : LaneDyn) : (setLane s p j v).pushes = s.pushes := rfl
@[simp] theorem setLane_intcEvents (s : State) (p j : Nat) (v : LaneDyn) : (setLane s p j v).intcEvents = s.intcEvents := rfl
@[simp] theorem setLane_intcTurn (s : State) (p j : Nat) (v : LaneDyn) : (setLane s p j v).intcTurn = s.intcTurn := rfl
@[simp] theorem setLane_intcWait (s : State) (p j : Nat) (v : LaneDyn) : (setLane s p j v).intcWait = s.intcWait := rfl
@[simp] theorem setLane_msgs (s : State) (p j : Nat) (v : LaneDyn) : (setLane s p j v).msgs = s.msgs := rfl
@[simp] theorem setLane_pins (s : State) (p j : Nat) (v : LaneDyn) : (setLane s p j v).pins = s.pins := rfl
@[simp] theorem setLane_integ (s : State) (p j : Nat) (v : LaneDyn) : (setLane s p j v).integ = s.integ := rfl
@[simp] theorem setLane_test (s : State) (p j : Nat) (v : LaneDyn) : (setLane s p j v).test = s.test := rfl
@[simp] theorem setLane_pair (s : State) (p j : Nat) (v : LaneDyn) : (setLane s p j v).pair = s.pair := rfl
@[simp] theorem setLane_power (s : State) (p j : Nat) (v : LaneDyn) : (setLane s p j v).power = s.power := rfl
@[simp] theorem setLane_mgmt (s : State) (p j : Nat) (v : LaneDyn) : (setLane s p j v).mgmt = s.mgmt := rfl
@[simp] theorem setLane_obs (s : State) (p j : Nat) (v : LaneDyn) : (setLane s p j v).obs = s.obs := rfl
@[simp] theorem setLane_out (s : State) (p j : Nat) (v : LaneDyn) : (setLane s p j v).out = s.out := rfl

/-! ### setQueue -/

@[simp] theorem setQueue_pending (s : State) (e q : Nat) (v : Queue) : (setQueue s e q v).pending = s.pending := rfl
@[simp] theorem setQueue_variant (s : State) (e q : Nat) (v : Queue) : (setQueue s e q v).variant = s.variant := rfl
@[simp] theorem setQueue_time (s : State) (e q : Nat) (v : Queue) : (setQueue s e q v).time = s.time := rfl
@[simp] theorem setQueue_free (s : State) (e q : Nat) (v : Queue) : (setQueue s e q v).free = s.free := rfl
@[simp] theorem setQueue_nextUid (s : State) (e q : Nat) (v : Queue) : (setQueue s e q v).nextUid = s.nextUid := rfl
@[simp] theorem setQueue_regs (s : State) (e q : Nat) (v : Queue) : (setQueue s e q v).regs = s.regs := rfl
@[simp] theorem setQueue_statCleared (s : State) (e q : Nat) (v : Queue) : (setQueue s e q v).statCleared = s.statCleared := rfl
@[simp] theorem setQueue_tk (s : State) (e q : Nat) (v : Queue) : (setQueue s e q v).tk = s.tk := rfl
@[simp] theorem setQueue_cells (s : State) (e q : Nat) (v : Queue) : (setQueue s e q v).cells = s.cells := rfl
@[simp] theorem setQueue_banks (s : State) (e q : Nat) (v : Queue) : (setQueue s e q v).banks = s.banks := rfl
@[simp] theorem setQueue_txns (s : State) (e q : Nat) (v : Queue) : (setQueue s e q v).txns = s.txns := rfl
@[simp] theorem setQueue_heldOrd (s : State) (e q : Nat) (v : Queue) : (setQueue s e q v).heldOrd = s.heldOrd := rfl
@[simp] theorem setQueue_semq (s : State) (e q : Nat) (v : Queue) : (setQueue s e q v).semq = s.semq := rfl
@[simp] theorem setQueue_semStage (s : State) (e q : Nat) (v : Queue) : (setQueue s e q v).semStage = s.semStage := rfl
@[simp] theorem setQueue_semServed (s : State) (e q : Nat) (v : Queue) : (setQueue s e q v).semServed = s.semServed := rfl
@[simp] theorem setQueue_semClearAt (s : State) (e q : Nat) (v : Queue) : (setQueue s e q v).semClearAt = s.semClearAt := rfl
@[simp] theorem setQueue_mbxq (s : State) (e q : Nat) (v : Queue) : (setQueue s e q v).mbxq = s.mbxq := rfl
@[simp] theorem setQueue_mbxStage (s : State) (e q : Nat) (v : Queue) : (setQueue s e q v).mbxStage = s.mbxStage := rfl
@[simp] theorem setQueue_mbxServed (s : State) (e q : Nat) (v : Queue) : (setQueue s e q v).mbxServed = s.mbxServed := rfl
@[simp] theorem setQueue_mbxClearAt (s : State) (e q : Nat) (v : Queue) : (setQueue s e q v).mbxClearAt = s.mbxClearAt := rfl
@[simp] theorem setQueue_commits (s : State) (e q : Nat) (v : Queue) : (setQueue s e q v).commits = s.commits := rfl
@[simp] theorem setQueue_tallies (s : State) (e q : Nat) (v : Queue) : (setQueue s e q v).tallies = s.tallies := rfl
@[simp] theorem setQueue_vatGen (s : State) (e q : Nat) (v : Queue) : (setQueue s e q v).vatGen = s.vatGen := rfl
@[simp] theorem setQueue_before (s : State) (e q : Nat) (v : Queue) : (setQueue s e q v).before = s.before := rfl
@[simp] theorem setQueue_links (s : State) (e q : Nat) (v : Queue) : (setQueue s e q v).links = s.links := rfl
@[simp] theorem setQueue_phys (s : State) (e q : Nat) (v : Queue) : (setQueue s e q v).phys = s.phys := rfl
@[simp] theorem setQueue_lanes (s : State) (e q : Nat) (v : Queue) : (setQueue s e q v).lanes = s.lanes := rfl
@[simp] theorem setQueue_engines (s : State) (e q : Nat) (v : Queue) : (setQueue s e q v).engines = s.engines := rfl
@[simp] theorem setQueue_pushes (s : State) (e q : Nat) (v : Queue) : (setQueue s e q v).pushes = s.pushes := rfl
@[simp] theorem setQueue_intcEvents (s : State) (e q : Nat) (v : Queue) : (setQueue s e q v).intcEvents = s.intcEvents := rfl
@[simp] theorem setQueue_intcTurn (s : State) (e q : Nat) (v : Queue) : (setQueue s e q v).intcTurn = s.intcTurn := rfl
@[simp] theorem setQueue_intcWait (s : State) (e q : Nat) (v : Queue) : (setQueue s e q v).intcWait = s.intcWait := rfl
@[simp] theorem setQueue_msgs (s : State) (e q : Nat) (v : Queue) : (setQueue s e q v).msgs = s.msgs := rfl
@[simp] theorem setQueue_pins (s : State) (e q : Nat) (v : Queue) : (setQueue s e q v).pins = s.pins := rfl
@[simp] theorem setQueue_integ (s : State) (e q : Nat) (v : Queue) : (setQueue s e q v).integ = s.integ := rfl
@[simp] theorem setQueue_test (s : State) (e q : Nat) (v : Queue) : (setQueue s e q v).test = s.test := rfl
@[simp] theorem setQueue_pair (s : State) (e q : Nat) (v : Queue) : (setQueue s e q v).pair = s.pair := rfl
@[simp] theorem setQueue_power (s : State) (e q : Nat) (v : Queue) : (setQueue s e q v).power = s.power := rfl
@[simp] theorem setQueue_mgmt (s : State) (e q : Nat) (v : Queue) : (setQueue s e q v).mgmt = s.mgmt := rfl
@[simp] theorem setQueue_obs (s : State) (e q : Nat) (v : Queue) : (setQueue s e q v).obs = s.obs := rfl
@[simp] theorem setQueue_out (s : State) (e q : Nat) (v : Queue) : (setQueue s e q v).out = s.out := rfl

/-! ### setEngine -/

@[simp] theorem setEngine_pending (s : State) (e : Nat) (v : Engine) : (setEngine s e v).pending = s.pending := rfl
@[simp] theorem setEngine_variant (s : State) (e : Nat) (v : Engine) : (setEngine s e v).variant = s.variant := rfl
@[simp] theorem setEngine_time (s : State) (e : Nat) (v : Engine) : (setEngine s e v).time = s.time := rfl
@[simp] theorem setEngine_free (s : State) (e : Nat) (v : Engine) : (setEngine s e v).free = s.free := rfl
@[simp] theorem setEngine_nextUid (s : State) (e : Nat) (v : Engine) : (setEngine s e v).nextUid = s.nextUid := rfl
@[simp] theorem setEngine_regs (s : State) (e : Nat) (v : Engine) : (setEngine s e v).regs = s.regs := rfl
@[simp] theorem setEngine_statCleared (s : State) (e : Nat) (v : Engine) : (setEngine s e v).statCleared = s.statCleared := rfl
@[simp] theorem setEngine_tk (s : State) (e : Nat) (v : Engine) : (setEngine s e v).tk = s.tk := rfl
@[simp] theorem setEngine_cells (s : State) (e : Nat) (v : Engine) : (setEngine s e v).cells = s.cells := rfl
@[simp] theorem setEngine_banks (s : State) (e : Nat) (v : Engine) : (setEngine s e v).banks = s.banks := rfl
@[simp] theorem setEngine_txns (s : State) (e : Nat) (v : Engine) : (setEngine s e v).txns = s.txns := rfl
@[simp] theorem setEngine_heldOrd (s : State) (e : Nat) (v : Engine) : (setEngine s e v).heldOrd = s.heldOrd := rfl
@[simp] theorem setEngine_semq (s : State) (e : Nat) (v : Engine) : (setEngine s e v).semq = s.semq := rfl
@[simp] theorem setEngine_semStage (s : State) (e : Nat) (v : Engine) : (setEngine s e v).semStage = s.semStage := rfl
@[simp] theorem setEngine_semServed (s : State) (e : Nat) (v : Engine) : (setEngine s e v).semServed = s.semServed := rfl
@[simp] theorem setEngine_semClearAt (s : State) (e : Nat) (v : Engine) : (setEngine s e v).semClearAt = s.semClearAt := rfl
@[simp] theorem setEngine_mbxq (s : State) (e : Nat) (v : Engine) : (setEngine s e v).mbxq = s.mbxq := rfl
@[simp] theorem setEngine_mbxStage (s : State) (e : Nat) (v : Engine) : (setEngine s e v).mbxStage = s.mbxStage := rfl
@[simp] theorem setEngine_mbxServed (s : State) (e : Nat) (v : Engine) : (setEngine s e v).mbxServed = s.mbxServed := rfl
@[simp] theorem setEngine_mbxClearAt (s : State) (e : Nat) (v : Engine) : (setEngine s e v).mbxClearAt = s.mbxClearAt := rfl
@[simp] theorem setEngine_commits (s : State) (e : Nat) (v : Engine) : (setEngine s e v).commits = s.commits := rfl
@[simp] theorem setEngine_tallies (s : State) (e : Nat) (v : Engine) : (setEngine s e v).tallies = s.tallies := rfl
@[simp] theorem setEngine_vatGen (s : State) (e : Nat) (v : Engine) : (setEngine s e v).vatGen = s.vatGen := rfl
@[simp] theorem setEngine_before (s : State) (e : Nat) (v : Engine) : (setEngine s e v).before = s.before := rfl
@[simp] theorem setEngine_links (s : State) (e : Nat) (v : Engine) : (setEngine s e v).links = s.links := rfl
@[simp] theorem setEngine_phys (s : State) (e : Nat) (v : Engine) : (setEngine s e v).phys = s.phys := rfl
@[simp] theorem setEngine_lanes (s : State) (e : Nat) (v : Engine) : (setEngine s e v).lanes = s.lanes := rfl
@[simp] theorem setEngine_queues (s : State) (e : Nat) (v : Engine) : (setEngine s e v).queues = s.queues := rfl
@[simp] theorem setEngine_pushes (s : State) (e : Nat) (v : Engine) : (setEngine s e v).pushes = s.pushes := rfl
@[simp] theorem setEngine_intcEvents (s : State) (e : Nat) (v : Engine) : (setEngine s e v).intcEvents = s.intcEvents := rfl
@[simp] theorem setEngine_intcTurn (s : State) (e : Nat) (v : Engine) : (setEngine s e v).intcTurn = s.intcTurn := rfl
@[simp] theorem setEngine_intcWait (s : State) (e : Nat) (v : Engine) : (setEngine s e v).intcWait = s.intcWait := rfl
@[simp] theorem setEngine_msgs (s : State) (e : Nat) (v : Engine) : (setEngine s e v).msgs = s.msgs := rfl
@[simp] theorem setEngine_pins (s : State) (e : Nat) (v : Engine) : (setEngine s e v).pins = s.pins := rfl
@[simp] theorem setEngine_integ (s : State) (e : Nat) (v : Engine) : (setEngine s e v).integ = s.integ := rfl
@[simp] theorem setEngine_test (s : State) (e : Nat) (v : Engine) : (setEngine s e v).test = s.test := rfl
@[simp] theorem setEngine_pair (s : State) (e : Nat) (v : Engine) : (setEngine s e v).pair = s.pair := rfl
@[simp] theorem setEngine_power (s : State) (e : Nat) (v : Engine) : (setEngine s e v).power = s.power := rfl
@[simp] theorem setEngine_mgmt (s : State) (e : Nat) (v : Engine) : (setEngine s e v).mgmt = s.mgmt := rfl
@[simp] theorem setEngine_obs (s : State) (e : Nat) (v : Engine) : (setEngine s e v).obs = s.obs := rfl
@[simp] theorem setEngine_out (s : State) (e : Nat) (v : Engine) : (setEngine s e v).out = s.out := rfl

/-! ### emit -/

@[simp] theorem emit_pending (s : State) (o : Out) : (emit s o).pending = s.pending := rfl
@[simp] theorem emit_variant (s : State) (o : Out) : (emit s o).variant = s.variant := rfl
@[simp] theorem emit_time (s : State) (o : Out) : (emit s o).time = s.time := rfl
@[simp] theorem emit_free (s : State) (o : Out) : (emit s o).free = s.free := rfl
@[simp] theorem emit_nextUid (s : State) (o : Out) : (emit s o).nextUid = s.nextUid := rfl
@[simp] theorem emit_regs (s : State) (o : Out) : (emit s o).regs = s.regs := rfl
@[simp] theorem emit_statCleared (s : State) (o : Out) : (emit s o).statCleared = s.statCleared := rfl
@[simp] theorem emit_tk (s : State) (o : Out) : (emit s o).tk = s.tk := rfl
@[simp] theorem emit_cells (s : State) (o : Out) : (emit s o).cells = s.cells := rfl
@[simp] theorem emit_banks (s : State) (o : Out) : (emit s o).banks = s.banks := rfl
@[simp] theorem emit_txns (s : State) (o : Out) : (emit s o).txns = s.txns := rfl
@[simp] theorem emit_heldOrd (s : State) (o : Out) : (emit s o).heldOrd = s.heldOrd := rfl
@[simp] theorem emit_semq (s : State) (o : Out) : (emit s o).semq = s.semq := rfl
@[simp] theorem emit_semStage (s : State) (o : Out) : (emit s o).semStage = s.semStage := rfl
@[simp] theorem emit_semServed (s : State) (o : Out) : (emit s o).semServed = s.semServed := rfl
@[simp] theorem emit_semClearAt (s : State) (o : Out) : (emit s o).semClearAt = s.semClearAt := rfl
@[simp] theorem emit_mbxq (s : State) (o : Out) : (emit s o).mbxq = s.mbxq := rfl
@[simp] theorem emit_mbxStage (s : State) (o : Out) : (emit s o).mbxStage = s.mbxStage := rfl
@[simp] theorem emit_mbxServed (s : State) (o : Out) : (emit s o).mbxServed = s.mbxServed := rfl
@[simp] theorem emit_mbxClearAt (s : State) (o : Out) : (emit s o).mbxClearAt = s.mbxClearAt := rfl
@[simp] theorem emit_commits (s : State) (o : Out) : (emit s o).commits = s.commits := rfl
@[simp] theorem emit_tallies (s : State) (o : Out) : (emit s o).tallies = s.tallies := rfl
@[simp] theorem emit_vatGen (s : State) (o : Out) : (emit s o).vatGen = s.vatGen := rfl
@[simp] theorem emit_before (s : State) (o : Out) : (emit s o).before = s.before := rfl
@[simp] theorem emit_links (s : State) (o : Out) : (emit s o).links = s.links := rfl
@[simp] theorem emit_phys (s : State) (o : Out) : (emit s o).phys = s.phys := rfl
@[simp] theorem emit_lanes (s : State) (o : Out) : (emit s o).lanes = s.lanes := rfl
@[simp] theorem emit_queues (s : State) (o : Out) : (emit s o).queues = s.queues := rfl
@[simp] theorem emit_engines (s : State) (o : Out) : (emit s o).engines = s.engines := rfl
@[simp] theorem emit_pushes (s : State) (o : Out) : (emit s o).pushes = s.pushes := rfl
@[simp] theorem emit_intcEvents (s : State) (o : Out) : (emit s o).intcEvents = s.intcEvents := rfl
@[simp] theorem emit_intcTurn (s : State) (o : Out) : (emit s o).intcTurn = s.intcTurn := rfl
@[simp] theorem emit_intcWait (s : State) (o : Out) : (emit s o).intcWait = s.intcWait := rfl
@[simp] theorem emit_msgs (s : State) (o : Out) : (emit s o).msgs = s.msgs := rfl
@[simp] theorem emit_pins (s : State) (o : Out) : (emit s o).pins = s.pins := rfl
@[simp] theorem emit_integ (s : State) (o : Out) : (emit s o).integ = s.integ := rfl
@[simp] theorem emit_test (s : State) (o : Out) : (emit s o).test = s.test := rfl
@[simp] theorem emit_pair (s : State) (o : Out) : (emit s o).pair = s.pair := rfl
@[simp] theorem emit_power (s : State) (o : Out) : (emit s o).power = s.power := rfl
@[simp] theorem emit_mgmt (s : State) (o : Out) : (emit s o).mgmt = s.mgmt := rfl
@[simp] theorem emit_obs (s : State) (o : Out) : (emit s o).obs = s.obs := rfl

/-! ### setCellByte -/

@[simp] theorem setCellByte_pending (s : State) (key : Nat) (b : Byte) : (setCellByte s key b).pending = s.pending := rfl
@[simp] theorem setCellByte_variant (s : State) (key : Nat) (b : Byte) : (setCellByte s key b).variant = s.variant := rfl
@[simp] theorem setCellByte_time (s : State) (key : Nat) (b : Byte) : (setCellByte s key b).time = s.time := rfl
@[simp] theorem setCellByte_free (s : State) (key : Nat) (b : Byte) : (setCellByte s key b).free = s.free := rfl
@[simp] theorem setCellByte_nextUid (s : State) (key : Nat) (b : Byte) : (setCellByte s key b).nextUid = s.nextUid := rfl
@[simp] theorem setCellByte_regs (s : State) (key : Nat) (b : Byte) : (setCellByte s key b).regs = s.regs := rfl
@[simp] theorem setCellByte_statCleared (s : State) (key : Nat) (b : Byte) : (setCellByte s key b).statCleared = s.statCleared := rfl
@[simp] theorem setCellByte_tk (s : State) (key : Nat) (b : Byte) : (setCellByte s key b).tk = s.tk := rfl
@[simp] theorem setCellByte_banks (s : State) (key : Nat) (b : Byte) : (setCellByte s key b).banks = s.banks := rfl
@[simp] theorem setCellByte_txns (s : State) (key : Nat) (b : Byte) : (setCellByte s key b).txns = s.txns := rfl
@[simp] theorem setCellByte_heldOrd (s : State) (key : Nat) (b : Byte) : (setCellByte s key b).heldOrd = s.heldOrd := rfl
@[simp] theorem setCellByte_semq (s : State) (key : Nat) (b : Byte) : (setCellByte s key b).semq = s.semq := rfl
@[simp] theorem setCellByte_semStage (s : State) (key : Nat) (b : Byte) : (setCellByte s key b).semStage = s.semStage := rfl
@[simp] theorem setCellByte_semServed (s : State) (key : Nat) (b : Byte) : (setCellByte s key b).semServed = s.semServed := rfl
@[simp] theorem setCellByte_semClearAt (s : State) (key : Nat) (b : Byte) : (setCellByte s key b).semClearAt = s.semClearAt := rfl
@[simp] theorem setCellByte_mbxq (s : State) (key : Nat) (b : Byte) : (setCellByte s key b).mbxq = s.mbxq := rfl
@[simp] theorem setCellByte_mbxStage (s : State) (key : Nat) (b : Byte) : (setCellByte s key b).mbxStage = s.mbxStage := rfl
@[simp] theorem setCellByte_mbxServed (s : State) (key : Nat) (b : Byte) : (setCellByte s key b).mbxServed = s.mbxServed := rfl
@[simp] theorem setCellByte_mbxClearAt (s : State) (key : Nat) (b : Byte) : (setCellByte s key b).mbxClearAt = s.mbxClearAt := rfl
@[simp] theorem setCellByte_commits (s : State) (key : Nat) (b : Byte) : (setCellByte s key b).commits = s.commits := rfl
@[simp] theorem setCellByte_tallies (s : State) (key : Nat) (b : Byte) : (setCellByte s key b).tallies = s.tallies := rfl
@[simp] theorem setCellByte_vatGen (s : State) (key : Nat) (b : Byte) : (setCellByte s key b).vatGen = s.vatGen := rfl
@[simp] theorem setCellByte_before (s : State) (key : Nat) (b : Byte) : (setCellByte s key b).before = s.before := rfl
@[simp] theorem setCellByte_links (s : State) (key : Nat) (b : Byte) : (setCellByte s key b).links = s.links := rfl
@[simp] theorem setCellByte_phys (s : State) (key : Nat) (b : Byte) : (setCellByte s key b).phys = s.phys := rfl
@[simp] theorem setCellByte_lanes (s : State) (key : Nat) (b : Byte) : (setCellByte s key b).lanes = s.lanes := rfl
@[simp] theorem setCellByte_queues (s : State) (key : Nat) (b : Byte) : (setCellByte s key b).queues = s.queues := rfl
@[simp] theorem setCellByte_engines (s : State) (key : Nat) (b : Byte) : (setCellByte s key b).engines = s.engines := rfl
@[simp] theorem setCellByte_pushes (s : State) (key : Nat) (b : Byte) : (setCellByte s key b).pushes = s.pushes := rfl
@[simp] theorem setCellByte_intcEvents (s : State) (key : Nat) (b : Byte) : (setCellByte s key b).intcEvents = s.intcEvents := rfl
@[simp] theorem setCellByte_intcTurn (s : State) (key : Nat) (b : Byte) : (setCellByte s key b).intcTurn = s.intcTurn := rfl
@[simp] theorem setCellByte_intcWait (s : State) (key : Nat) (b : Byte) : (setCellByte s key b).intcWait = s.intcWait := rfl
@[simp] theorem setCellByte_msgs (s : State) (key : Nat) (b : Byte) : (setCellByte s key b).msgs = s.msgs := rfl
@[simp] theorem setCellByte_pins (s : State) (key : Nat) (b : Byte) : (setCellByte s key b).pins = s.pins := rfl
@[simp] theorem setCellByte_integ (s : State) (key : Nat) (b : Byte) : (setCellByte s key b).integ = s.integ := rfl
@[simp] theorem setCellByte_test (s : State) (key : Nat) (b : Byte) : (setCellByte s key b).test = s.test := rfl
@[simp] theorem setCellByte_pair (s : State) (key : Nat) (b : Byte) : (setCellByte s key b).pair = s.pair := rfl
@[simp] theorem setCellByte_power (s : State) (key : Nat) (b : Byte) : (setCellByte s key b).power = s.power := rfl
@[simp] theorem setCellByte_mgmt (s : State) (key : Nat) (b : Byte) : (setCellByte s key b).mgmt = s.mgmt := rfl
@[simp] theorem setCellByte_obs (s : State) (key : Nat) (b : Byte) : (setCellByte s key b).obs = s.obs := rfl
@[simp] theorem setCellByte_out (s : State) (key : Nat) (b : Byte) : (setCellByte s key b).out = s.out := rfl

/-! ### Readers after their own update -/

@[simp] theorem bankOf_setBank (s : State) (b : Nat) (v : Bank) : bankOf (setBank s b v) b = v := sget_sset_same _ _ _ _
theorem bankOf_setBank_other (s : State) {b c : Nat} (v : Bank) (h : c ≠ b) : bankOf (setBank s b v) c = bankOf s c :=
  sget_sset_other _ _ _ h
@[simp] theorem linkOf_setLink (s : State) (p : Nat) (v : Link) : linkOf (setLink s p v) p = v := sget_sset_same _ _ _ _
theorem linkOf_setLink_other (s : State) {p c : Nat} (v : Link) (h : c ≠ p) : linkOf (setLink s p v) c = linkOf s c :=
  sget_sset_other _ _ _ h
@[simp] theorem phyOf_setPhy (s : State) (p : Nat) (v : Phy) : phyOf (setPhy s p v) p = v := sget_sset_same _ _ _ _
theorem phyOf_setPhy_other (s : State) {p c : Nat} (v : Phy) (h : c ≠ p) : phyOf (setPhy s p v) c = phyOf s c :=
  sget_sset_other _ _ _ h
@[simp] theorem laneOf_setLane (s : State) (p j : Nat) (v : LaneDyn) : laneOf (setLane s p j v) p j = v := sget_sset_same _ _ _ _
@[simp] theorem queueOf_setQueue (s : State) (e q : Nat) (v : Queue) : queueOf (setQueue s e q v) e q = v := sget_sset_same _ _ _ _
@[simp] theorem engineOf_setEngine (s : State) (e : Nat) (v : Engine) : engineOf (setEngine s e v) e = v := sget_sset_same _ _ _ _
@[simp] theorem cellByte_setCellByte (s : State) (key : Nat) (b : Byte) : cellByte (setCellByte s key b) key = b := sget_sset_same _ _ _ _
theorem cellByte_setCellByte_other (s : State) {key k : Nat} (b : Byte) (h : k ≠ key) : cellByte (setCellByte s key b) k = cellByte s k :=
  sget_sset_other _ _ _ h

/-- Bytes outside the ones that are set stay. -/
theorem cellByte_setCellBytes_other (s : State) (key k : Nat) (bs : List Byte) (h : k < key ∨ key + bs.length ≤ k) :
    cellByte (setCellBytes s key bs) k = cellByte s k := by
  induction bs generalizing s key with
  | nil => rfl
  | cons b bs ih =>
    simp only [List.length_cons] at h
    rw [setCellBytes, ih _ _ (by omega), cellByte_setCellByte_other _ _ (by omega)]

/-- Bytes that are set read back. -/
theorem cellByte_setCellBytes_get (s : State) (key i : Nat) (bs : List Byte) (h : i < bs.length) :
    cellByte (setCellBytes s key bs) (key + i) = bs[i] := by
  induction bs generalizing s key i with
  | nil => simp at h
  | cons b bs ih =>
    cases i with
    | zero => rw [setCellBytes, cellByte_setCellBytes_other _ _ _ _ (by omega)]; simp
    | succ i =>
      have := ih (setCellByte s key b) (key + 1) i (by simpa using h)
      rw [setCellBytes, show key + (i + 1) = key + 1 + i by omega, this]
      simp

/-- Setting bytes changes nothing but the cells. -/
theorem setCellBytes_eq (s : State) (key : Nat) (bs : List Byte) : ∃ m, setCellBytes s key bs = { s with cells := m } := by
  induction bs generalizing s key with
  | nil => exact ⟨s.cells, rfl⟩
  | cons b bs ih =>
    obtain ⟨m, hm⟩ := ih (setCellByte s key b) (key + 1)
    exact ⟨m, by rw [setCellBytes, hm]; rfl⟩

end Sys2Proof.Machine
end

