-- ==== Sys2Proof/Tests/Slice0.lean ====
section
/-! SUPPORT. Tests of this slice: ill-formed commands that WellFormed refuses, the spec's worked examples, and for every statement that has
hypotheses a state that meets them. -/

set_option maxRecDepth 100000

namespace Sys2Proof.Tests
open Machine

/-! ### Helpers -/

/-- A state with some registers written. -/
def setRegs (s : State) (l : List (Nat × Nat)) : State := l.foldl (fun s x => wr s x.1 (w64 x.2)) s

/-- A state with some fields of registers written. -/
def setFields (s : State) (l : List (Nat × Fld × Nat)) : State := l.foldl (fun s x => wrF s x.1 x.2.1 x.2.2) s

/-- A device that has started: its start sequence is over, READY is 1, 10,000 cycles have passed. -/
def started : State :=
  wrB { State.reset with time := 10000, power := { State.reset.power with step := none } } R_PWR_DEVSTAT PWR_DEVSTAT_READY true

/-- The state after a command. -/
def after (c : Instr) (s : State) : State := match exec c s with | .next t => t | _ => s

/-- `started` with port 0 UP, its session open, its credits known, and 64 slots on each channel from the partner. -/
def linked : State :=
  setLink (setFields started [(R_LPH_STAT 0, LPH_STAT_STATE, 5), (R_PT_STAT 0, PT_STAT_SESSION, 1), (R_PT_STAT 0, PT_STAT_CREDITED, 1)])
    0 { linkReset with partnerSize := [64, 64, 64, 64] }

/-- A request header of slot 1 of port 0. -/
def hdr (tag : Nat) (ord : Bool) : ReqHdr := { port := 0, slot := 1, tag := BitVec.ofNat 12 tag, ord := ord, mgmt := false }

/-! ### Requests -/

/-- Operands of a request unit of each opcode: tag, ordered, opcode, LEN, OPFMT and RUN. -/
def unitOperands : List (Nat × Bool × Nat × Nat × Nat × Nat) :=
  [(7, false, 0x01, 64, 0, 0), (0, true, 0x02, 1, 0, 0), (1, false, 0x10, 1, 0, 0), (1, false, 0x11, 2, 0, 0), (1, false, 0x12, 4, 0, 0),
   (1, false, 0x13, 8, 0, 0), (1, false, 0x14, 8, 0, 0), (1, false, 0x15, 8, 0, 0), (1, false, 0x16, 8, 0, 0), (1, false, 0x17, 8, 0, 0),
   (1, false, 0x18, 8, 0, 0), (1, false, 0x19, 64, 0, 0), (1, false, 0x20, 64, 0, 0), (1, false, 0x20, 7, 8, 0), (4095, false, 0x21, 64, 0, 0),
   (1, false, 0x30, 0, 0, 0), (4095, false, 0x03, 64, 0, 16), (1, false, 0x04, 64, 0, 1), (1, true, 0x04, 64, 0, 2)]

theorem witness_unit_accepted :
    ∀ x ∈ unitOperands, UnitAccepted linked (hdr x.1 x.2.1) x.2.2.1 x.2.2.2.1 x.2.2.2.2.1 x.2.2.2.2.2 := by
  unfold UnitAccepted; decide

/-- `linked` with an ordered WRITE held behind a FENCE in flight. -/
def held : State := after (.writeReq (hdr 2 true) 0x40 8 (BitVec.allOnes 64) (List.replicate 8 1)) (after (.readReq (hdr 1 false) 0x80 8) linked)

theorem witness_held_requests :
    (∃ x ∈ held.heldOrd, x.req.who = .port 0 1 ∧ x.uid < held.nextUid) ∧
    (unitReq (hdr 3 true) .read 0x01 0x40 8 0 0 false []).ord = true ∧ (unitReq (hdr 3 true) .read 0x01 0x40 8 0 0 false []).who = .port 0 1 := by
  decide

/-- `held` once the READ has been answered: the held request may go on. -/
def mayRelease : State := { held with txns := [] }

theorem witness_ordered_release :
    coreOn mayRelease = true ∧ (mayRelease.heldOrd.find? (fun t => t.req.who = .port 0 1 && mayPass mayRelease t)).isSome = true := by decide

/-- `linked` with the READ of an absent register answered: its response is due. -/
def responseDue : State := after (.readReq (hdr 1 false) 0xFF800000 8) linked

theorem witness_response_send :
    (nextDue responseDue 0 false).any (fun t => responseCredit responseDue 0 false t) = true ∧ coreOn responseDue = true ∧
    portUp responseDue 0 = true ∧ rdB responseDue (R_PT_STAT 0) PT_STAT_CREDITED = true := by decide

theorem witness_malformed_unit :
    coreOn linked = true ∧ (0 : BitVec 3).toNat < numPorts linked.variant ∧ rdB linked (R_PT_STAT 0) PT_STAT_SESSION = true := by decide

/-! ### Banks -/

/-- `linked` 4 cycles after the WRITE of a whole line at address 0 was admitted. -/
def writeWaits : State :=
  let s := after (.writeReq (hdr 1 false) 0 64 (BitVec.allOnes 64) (List.replicate 64 0xA5)) linked
  { s with time := s.time + 4 }

/-- `linked` 4 cycles after a READ at address 0 was admitted. -/
def readWaits : State :=
  let s := after (.readReq (hdr 1 false) 0 8) linked
  { s with time := s.time + 4 }

/-- What the bank serves next, with the service pointer after it. -/
def winner (s : State) (b : Nat) : Option (Nat × BReq) :=
  match slotWinner s b with
  | (some id, ptr) => if id = 28 then none else (servable s b id).map (fun w => (ptr, w))
  | _ => none

/-- What `winner` finds is served. -/
theorem bankServes_of_winner {s : State} {b ptr : Nat} {w : BReq} (h : winner s b = some (ptr, w)) (h1 : bankCycleFree s b = true)
    (h2 : (bankOf s b).borrow = none) (h3 : s.test.fgUnit = none) (h4 : (bankOf s b).wbCycle ≠ some s.time) : BankServes s b ptr w := by
  unfold winner at h
  split at h
  · rename_i id p hw
    split at h
    · cases h
    · rename_i hid
      cases hs : servable s b id with
      | none => rw [hs] at h; cases h
      | some x =>
        rw [hs] at h
        cases h
        exact ⟨h1, h2, h3, h4, id, hid, hw, hs⟩
  · cases h

theorem winner_some {s : State} {b : Nat} (p : BReq → Bool) (h : (winner s b).any (fun x => p x.2) = true) :
    ∃ ptr w, winner s b = some (ptr, w) ∧ p w = true := by
  cases hw : winner s b with
  | none => rw [hw] at h; cases h
  | some x => rw [hw] at h; exact ⟨x.1, x.2, rfl, h⟩

theorem witness_bank_serves : ∀ s ∈ [writeWaits, readWaits], (∃ ptr w, BankServes s 0 ptr w ∧ groupable w = true) ∧
    rdB s R_INT_INJECT INT_INJECT_ARM = false ∧ unitUndefined s (physUnit s 0 0) = false := by
  have h : ∀ s ∈ [writeWaits, readWaits], bankCycleFree s 0 = true ∧ (bankOf s 0).borrow = none ∧ s.test.fgUnit = none ∧
      (bankOf s 0).wbCycle ≠ some s.time ∧ ((winner s 0).any (fun x => groupable x.2)) = true ∧
      rdB s R_INT_INJECT INT_INJECT_ARM = false ∧ unitUndefined s (physUnit s 0 0) = false := by decide
  intro s hs
  obtain ⟨h1, h2, h3, h4, h5, h6, h7⟩ := h s hs
  obtain ⟨ptr, w, hw, hg⟩ := winner_some groupable h5
  exact ⟨⟨ptr, w, bankServes_of_winner hw h1 h2 h3 h4, hg⟩, h6, h7⟩

/-- `linked` with a valid vat over the array's first 4 KiB and this codeword at address 0, 4 cycles after a command was admitted. -/
def atLine (c : Cw) (i : Instr) : State :=
  let s := setFields linked [(R_VAT_RANGE 3, VAT_RANGE_LEN4K, 1), (R_VAT_CTL 3, VAT_CTL_VALID, 1)]
  let s := after i (writeCw s (physUnit s 0 0) 0 0 c)
  { s with time := s.time + 4 }

/-- Atomic operations and ACC at address 0: of a clean line of zeros, and of a poisoned one. A CAS that finds 1 stores nothing. -/
def combineWaits : List State :=
  [encodeCw 0, poisonCw 0].flatMap (fun c =>
    [atLine c (.faddReq (hdr 1 false) 0 8 (leBytes 8 5)), atLine c (.casReq (hdr 1 false) 0 8 (leBytes 8 1 ++ leBytes 8 7)),
     atLine c (.accReq (hdr 1 false) 0 64 0 false (List.replicate 64 1))])

/-- The value that an atomic operation at address 0 finds there stores; ACC has none. -/
def storedValue (s : State) (w : BReq) : Option Nat :=
  match w.op with
  | .atomic k => atomicResult k 64 (leNat ((cwData (readCw s (physUnit s 0 0) 0 0)).take 8)) (leNat (w.data.take 8)) (leNat ((w.data.drop 8).take 8))
  | _ => none

theorem witness_combine_serves :
    (∀ s ∈ combineWaits, (∃ ptr w, BankServes s 0 ptr w ∧ groupable w = false) ∧ rdB s R_INT_INJECT INT_INJECT_ARM = false ∧
      unitUndefined s (physUnit s 0 0) = false) ∧
    combineWaits.map (fun s => ((winner s 0).map (fun x => decide (x.2.op = .acc)), (winner s 0).bind (fun x => storedValue s x.2),
        decide ((decodeCw (readCw s (physUnit s 0 0) 0 0)).outcome = .poisoned))) =
      [(some false, some 5, false), (some false, none, false), (some true, none, false),
       (some false, some 5, true), (some false, none, true), (some true, none, true)] := by
  have h : ∀ s ∈ combineWaits, bankCycleFree s 0 = true ∧ (bankOf s 0).borrow = none ∧ s.test.fgUnit = none ∧
      (bankOf s 0).wbCycle ≠ some s.time ∧ ((winner s 0).any (fun x => !groupable x.2)) = true ∧
      rdB s R_INT_INJECT INT_INJECT_ARM = false ∧ unitUndefined s (physUnit s 0 0) = false := by decide
  refine ⟨fun s hs => ?_, by decide⟩
  obtain ⟨h1, h2, h3, h4, h5, h6, h7⟩ := h s hs
  obtain ⟨ptr, w, hw, hg⟩ := winner_some (fun w => !groupable w) h5
  exact ⟨⟨ptr, w, bankServes_of_winner hw h1 h2 h3 h4, by simpa using hg⟩, h6, h7⟩

theorem witness_bank_idle :
    bankCycleFree linked 63 = true ∧ (bankOf linked 63).borrow = none ∧ linked.test.fgUnit = none ∧ (∀ id, id < 28 → presented linked 63 id = none) := by
  decide

/-! ### Arbitration settings, held accesses, tally steps -/

/-- `started` after two writes of the shares and weights, the later one cycle ago: they apply in the cycle at frame position 0. -/
def settingWaits : State :=
  { setRegs started [(R_ARB_SHARE, 0x5555)] with power := { started.power with arbPend := [(9998, 0xAAAA, 1), (9999, 0x5555, 0)] } }

theorem witness_arbitration_apply :
    (settingWaits.power.arbPend.filter (fun a => a.1 < settingWaits.time)).getLast? = some (9999, 0x5555, 0) ∧ settingWaits.time % 4 = 0 := by decide

/-- The READ of `readWaits`, or that of another requester, waiting at bank 0 in its borrowed group, set aside since cycle `t`. -/
def setAsideAt (who : Option Who) (t : Nat) : State :=
  setBank { readWaits with time := 10000 } 0
    { bankReset with queue := (bankOf readWaits 0).queue.map (fun r => { r with who := who.getD r.who, setAside := some t, entered := 5000 }),
                     borrow := some { newRun 0 0 0 false false with phase := .marching } }

/-- The accesses of bank 0 that have been set aside for 4,800 cycles. -/
def lateOf (s : State) : List BReq := (bankOf s 0).queue.filter (fun r => match r.setAside with | some t => t + 4800 ≤ s.time | none => false)

theorem witness_hold_timeout :
    (lateOf (setAsideAt none 5200) = (bankOf (setAsideAt none 5200) 0).queue ∧ (lateOf (setAsideAt none 5200)).length = 1) ∧
    (lateOf (setAsideAt none 5201) = [] ∧ ∀ r ∈ (bankOf (setAsideAt none 5201) 0).queue, r.setAside = some 5201 ∧ 10000 < 5201 + 4800) ∧
    (let s := setAsideAt none 5200
     (∀ r ∈ (bankOf s 0).queue, waitsForTest r = false ∧ r.who = .port 0 1 ∧ s.txns.any (fun x => x.uid = r.uid) = true) ∧ (bankOf s 0).staging = [] ∧
     s.txns.length = 1 ∧
     ∀ x ∈ s.txns, x.left = 1 ∧ x.waits = 0 ∧ x.status = .ok ∧ x.due = none ∧ x.lost = false ∧ x.req.op ≠ .fence) ∧
    (let s := setAsideAt (some .pairFwd) 5200
     ∀ r ∈ (bankOf s 0).queue, waitsForTest r = true ∧ (bankOf s 0).queue = [r] ∧ reachedArbiter s r = true ∧ regionServes s (0 / 8) = true ∧
       heldByGroup s 0 r = true ∧ whoId r.who < 32) ∧
    counting started 0x12 = true := by decide

/-- `setAsideAt` with the READ an access of engine 1, queue 2. -/
def engineSetAside : State :=
  let s := setAsideAt (some (.engine 1 2)) 5200
  setQueue s 1 2 { queueReset with accs := (bankOf s 0).queue.map (fun r => newAcc r.uid 0 (engRead 1 2 0 8) (.fetch 0)) }

theorem witness_engine_hold_timeout :
    let s := engineSetAside
    (lateOf s).length = 1 ∧ (∀ r ∈ lateOf s, r.who = .engine 1 2 ∧ waitsForTest r = false ∧ (queueOf s 1 2).accs.length = 1 ∧
      ∀ a ∈ (queueOf s 1 2).accs, a.uid = r.uid ∧ a.left = 1 ∧ a.waits = 0 ∧ a.status = .ok ∧ a.doneAt = none) := by decide

/-- `started` with vat 3 valid, of EXPECTED 2, with these bits of VAT_CTL besides, this TALLY, and a tally step waiting. -/
def tallyWaits (ctl tally gen : Nat) : State :=
  { setFields started [(R_VAT_CTL 3, VAT_CTL_VALID, 1), (R_VAT_CTL 3, VAT_CTL_AUTO_REARM, ctl % 2), (R_VAT_CTL 3, VAT_CTL_DONE, ctl / 2),
      (R_VAT_COUNT 3, VAT_COUNT_EXPECTED, 2), (R_VAT_COUNT 3, VAT_COUNT_TALLY, tally)] with
    tallies := [{ time := 9999, bank := 0, vat := 3, gen := gen, uid := 0, who := .port 0 1 }] }

theorem witness_tally_step :
    (∀ x ∈ [(0, 0), (0, 1), (1, 1), (2, 2)],
      let s := tallyWaits x.1 x.2 0
      nextTally s = s.tallies.head? ∧ s.tallies ≠ [] ∧ pairBlocked s (storePort s) = false ∧ vatGenOf s 3 = 0 ∧ vatValid s 3 = true) ∧
    (let s := tallyWaits 0 0 1
     nextTally s = s.tallies.head? ∧ s.tallies ≠ [] ∧ pairBlocked s (storePort s) = false ∧ vatGenOf s 3 ≠ 1) := by decide

theorem witness_tally_vat :
    rdB (tallyWaits 2 2 0) (R_VAT_CTL 3) VAT_CTL_DONE = true ∧ rdB (tallyWaits 0 0 0) (R_VAT_CTL 3) VAT_CTL_DONE = false ∧
    (rdF (tallyWaits 0 0 0) (R_VAT_COUNT 3) VAT_COUNT_TALLY + 1) % 2 ^ 32 < rdF (tallyWaits 0 0 0) (R_VAT_COUNT 3) VAT_COUNT_EXPECTED ∧
    rdF (tallyWaits 0 1 0) (R_VAT_COUNT 3) VAT_COUNT_EXPECTED = (rdF (tallyWaits 0 1 0) (R_VAT_COUNT 3) VAT_COUNT_TALLY + 1) % 2 ^ 32 ∧
    rdB (tallyWaits 0 1 0) (R_VAT_CTL 3) VAT_CTL_AUTO_REARM = false ∧ rdB (tallyWaits 1 1 0) (R_VAT_CTL 3) VAT_CTL_AUTO_REARM = true := by decide

/-! ### The stores -/

/-- An operation of port 0, slot 1. -/
def storeOp (k : StoreKind) (n off len value code : Nat) : StoreOp :=
  { uid := 0, who := .port 0 1, writer := .port 0 1, priv := false, kind := k, effect := true, n := n, off := off, len := len, mask := BitVec.allOnes 64,
    data := leBytes 8 value ++ List.replicate 56 0, value := value, code := code, tag := 0, entered := 0 }

/-- `started` with one operation at the semaphore store. -/
def semWaiting (k : StoreKind) : State := { started with semq := [storeOp k 65535 0 8 1 2] }

theorem witness_semaphore_operation :
    ∀ x ∈ semRows, coreOn (semWaiting x.2) = true ∧ (semWaiting x.2).semServed ≠ some (semWaiting x.2).time ∧
      semFront (semWaiting x.2) = some (storeOp x.2 65535 0 8 1 2) ∧ unitUndefined (semWaiting x.2) 66 = false := by decide

/-- The word of a semaphore held by port 0, slot 1. -/
def heldWord : Nat := takenWord 0 (.port 0 1)

theorem witness_semaphore_effects :
    semHeld 0 = false ∧ semHeld heldWord = true ∧ heldWord < 2 ^ 64 ∧ ownsSem heldWord (.port 0 1) = true ∧
    ownsSem heldWord (.port 7 3) = false ∧ mayForce (storeOp .semRelease 0 16 8 0 2) = false ∧
    mayForce { storeOp .semRelease 0 16 8 0 2 with priv := true } = true ∧ mayForce { storeOp .semRelease 0 16 8 0 2 with who := .sc } = true ∧ (storeOp .semTry 0 0 8 0 1).kind = .semTry ∧
    (storeOp .semRelease 0 16 8 0 2).effect = true := by decide

/-- `started` while semaphores from 5 on are being cleared; the next one is the last. -/
def semClearing : State := { setFields started [(R_SEM_CLEAR, SEM_CLEAR_FIRST, 5), (R_SEM_CLEAR, SEM_CLEAR_COUNT, 2), (R_SEM_CLEAR, SEM_CLEAR_BUSY, 1)] with semClearAt := 6 }

theorem witness_sem_clear_step :
    coreOn semClearing = true ∧ semClearing.semServed ≠ some semClearing.time ∧ semClearing.semq = [] ∧ rdB semClearing R_SEM_CLEAR SEM_CLEAR_BUSY = true ∧
    pairBlocked semClearing (storePort semClearing) = false ∧ unitUndefined semClearing 66 = false := by decide

/-- `started` while mailboxes are being cleared, after this many steps. -/
def mbxClearing (k : Nat) : State := { wrB started R_MBX_CLEAR MBX_CLEAR_BUSY true with mbxClearAt := k }

theorem witness_mbx_clear_step :
    ∀ k ∈ [0, 3, 16383], coreOn (mbxClearing k) = true ∧ (mbxClearing k).mbxServed ≠ some (mbxClearing k).time ∧ mbxIdle (mbxClearing k) = true ∧
      rdB (mbxClearing k) R_MBX_CLEAR MBX_CLEAR_BUSY = true ∧ pairBlocked (mbxClearing k) (storePort (mbxClearing k)) = false ∧
      unitUndefined (mbxClearing k) 67 = false := by decide

/-- `started` with a doorbell served four cycles ago and not committed. -/
def commitWaits : State :=
  { started with commits := [{ servedAt := 9996, who := .port 0 1, write := true, uid := 0, ringEvent := some (2, 9, 1), unitNum := none }] }

theorem witness_mailbox_commit : (commitWaits.commits.head?.any (fun c => c.servedAt + 4 ≤ commitWaits.time)) = true := by decide

/-- `started` with one operation at the mailbox store. -/
def mbxWaiting (k : StoreKind) (off code : Nat) : State := { started with mbxq := [storeOp k 4095 off 8 0x1234 code] }

theorem witness_mailbox_operation :
    ∀ x ∈ mbxRows, ∀ off ∈ [0, 0xC0, 0xC8, 0xD0], coreOn (mbxWaiting x.2 off 1) = true ∧ (mbxWaiting x.2 off 1).mbxServed ≠ some started.time ∧
      mbxFront (mbxWaiting x.2 off 1) = some (storeOp x.2 4095 off 8 0x1234 1) ∧ unitUndefined (mbxWaiting x.2 off 1) 67 = false := by decide

theorem witness_doorbell_writer : whoId (.engine 15 3) < 32 ∧ whoSlot (.engine 15 3) < 4 ∧ whoId (.port 7 3) < 32 ∧ whoSlot (.port 7 3) = 3 := by decide

/-! ### Interrupt controller -/

/-- `started` with events of source 5, mailbox sources 5 and 6 enabled with priority 3 at target 35, and 5 pending. -/
def intcBusy : State :=
  { setRegs started [(R_SRC_ENTRY 5, 0x2300000000 + 7 + 8), (R_SRC_ENTRY 6, 0x2300000000 + 7), (R_TGT_CTL 35, 0x11)] with intcEvents := [5, 6, 5, 4131] }

theorem witness_interrupt_cycle :
    coreOn intcBusy = true ∧ (intcTurnNow intcBusy).wasRead = false ∧ intcBusy.intcWait = [] ∧ targetPresent intcBusy.variant 35 = true ∧ targetPresent intcBusy.variant 32 = true ∧ 5 ∈ intcBusy.intcEvents ∧
    (bestSource (applyEvents intcBusy) 35).isSome = true ∧ delivers intcBusy 35 = true ∧ (∃ n ∈ [5, 6], candidate (applyEvents intcBusy) 35 n = true) := by
  decide

/-- `intcBusy` without its events: source 4131 pends with COUNT 255, and source 6 is ACTIVE; both have an event. -/
def eventsCome : State :=
  { setFields started [(R_SRC_ENTRY 4131, SRC_ENTRY_COUNT, 255), (R_SRC_ENTRY 6, SRC_ENTRY_ACTIVE, 1)] with intcEvents := [4131, 6] }

theorem witness_events :
    6 ∈ eventsCome.intcEvents ∧ 4131 ∈ eventsCome.intcEvents ∧ rdB eventsCome (R_SRC_ENTRY 4131) SRC_ENTRY_ACTIVE = false ∧
    255 < rdF eventsCome (R_SRC_ENTRY 4131) SRC_ENTRY_COUNT + eventsCome.intcEvents.count 4131 := by decide

theorem witness_claim :
    IntcFree intcBusy 35 ∧ IntcFree started 0 ∧ scRuns started = true ∧
    scRuns intcBusy = true ∧ targetPresent intcBusy.variant (35 : BitVec 6).toNat = true ∧
    rdF (applyEvents intcBusy) (R_TGT_STACK 35) TGT_STACK_DEPTH < 15 ∧ bestSource (applyEvents intcBusy) 35 = some 5 ∧
    bestSource (applyEvents started) 0 = none ∧ targetPresent started.variant 0 = true := by
  unfold IntcFree; decide

/-- `intcBusy` with source 5 claimed at target 35 a cycle ago. -/
def claimed : State := let s := after (.tgtClaim .sc 35) intcBusy; { s with time := s.time + 1 }

theorem witness_eoi :
    sourcePresent claimed.variant 5 = true ∧ sourcePresent started.variant 4101 = false ∧
    rdF (applyEvents claimed) (R_TGT_STACK 35) TGT_STACK_DEPTH ≠ 0 ∧ rdF (applyEvents claimed) (R_TGT_STACK 35) TGT_STACK_TOP_SOURCE = 5 ∧
    rdF (applyEvents claimed) (R_TGT_STACK 0) TGT_STACK_DEPTH = 0 := by decide

/-- `linked` with a message for port 0 decided 12 cycles ago. -/
def messageWaits : State :=
  { linked with msgs := [{ decidedAt := 9988, port := 0, slot := 2, kind := 0x90, source := 4095, prio := 15 }] }

theorem witness_message_send :
    coreOn messageWaits = true ∧ (messageWaits.msgs.find? (fun m => m.port = (0 : BitVec 3).toNat)).any (fun m => m.decidedAt + 12 ≤ messageWaits.time) = true := by
  decide

/-! ### Register rows -/

/-- One command for each register row, by the SC, with value 0. -/
def regRows : List Instr :=
  [.semClear .sc 0, .semStatClear .sc 0, .mbxClear .sc 0, .mbxStatClear .sc 0, .arbStatClear .sc 0, .vatCtlWrite .sc 1023 0, .vatRearm .sc 1 0,
   .vatStatClear .sc 1 0, .registerWrite .sc 0 0, .qTailWrite .sc 15 3 0, .qCfgWrite .sc 0 1 0, .stopQueue .sc 0 1 0, .goQueue .sc 0 1 0,
   .resumeRetry .sc 0 1 0, .resumeSkip .sc 0 1 0, .offlineWrite .sc 1 0, .engineReset .sc 1 0, .mcCtlWrite .sc 255 0, .mcStatClear .sc 0,
   .setPend .sc 4131 0, .pendingClear .sc 1 0, .targetWrite .sc 1 0, .tgtEoi .sc 35 0, .asleepWrite .sc 1 0, .logClear .sc 0, .intStatClear .sc 0,
   .intInjectWrite .sc 0, .tstCmdStart .sc 0, .abortTest .sc 0, .tstStatClear .sc 0, .rmpCmdGo .sc 0, .retCmdStart .sc 0, .tstEngGo .sc 0,
   .ptStatClear .sc 7 0, .lphRetrain .sc 1 0, .spareNowWrite .sc 1 0, .unspareWrite .sc 1 0, .loopWrite .sc 1 0, .minClear .sc 1 8 0,
   .lnStatClear .sc 0, .promoteWrite .sc 0, .joinWrite .sc 0, .leaveWrite .sc 0, .pwrRegionWrite .sc 0, .devStateWrite .sc 0, .warmReset .sc 0,
   .portReset .sc 0, .mgStatClear .sc 0, .pcCfgWrite .sc 63 0, .freezeCounters .sc 0, .clearAll .sc 0, .smpCtlWrite .sc 0, .smpClear .sc 0,
   .smpIdxWrite .sc 0, .trIdxWrite .sc 0, .trClear .sc 0, .celCtlWrite .sc 0]

/-- The SC may write what the row writes, as a test. -/
def mayWrite (s : State) (c : Instr) : Bool :=
  (regRow c).any (fun x => let r := scReq .write x.2.1 x.2.2
    x.1 == .sc && scRuns s && (decodeReg s r).isNone && !regRetry s r && !scBlocked s r && (!isIntcReq r || (s.intcWait.isEmpty && intcMay s r)))

theorem scMayWrite_of {s : State} {c : Instr} (h : mayWrite s c = true) : ∃ key v, regRow c = some (.sc, key, v) ∧ ScMayWrite s key v := by
  unfold mayWrite at h
  cases hr : regRow c with
  | none => simp [hr] at h
  | some x =>
    obtain ⟨b, key, v⟩ := x
    simp only [hr, Option.any_some, Bool.and_eq_true, Bool.not_eq_true', beq_iff_eq, Option.isNone_iff_eq_none, Bool.or_eq_true, List.isEmpty_iff] at h
    obtain ⟨⟨⟨⟨⟨rfl, h1⟩, h2⟩, h3⟩, h4⟩, h5⟩ := h
    refine ⟨key, v, rfl, h1, h2, h3, h4, fun hi => ?_⟩
    rcases h5 with h5 | h5
    · rw [hi] at h5; cases h5
    · exact h5

theorem witness_register_rows : ∀ c ∈ regRows, ∃ key v, regRow c = some (.sc, key, v) ∧ ScMayWrite started key v := by
  have h : regRows.all (mayWrite started) = true := by decide
  exact fun c hc => scMayWrite_of (List.all_eq_true.mp h c hc)

/-- Register rows whose register refuses 0: with a value that it takes, and a state in which it takes it. -/
def chosenRows : List (State × Instr) :=
  [(claimed, .tgtEoi .sc 35 5), (setFields started [(R_ENG_STAT 1, ENG_STAT_STATE, 2)], .tstEngGo .sc 1), (started, .ptStatClear .sc 7 (rd started (R_PT_CTL 7))),
   (started, .lphRetrain .sc 1 (rd started (R_LPH_CTL 1))), (started, .spareNowWrite .sc 1 (rd started (R_LPH_CTL 1))),
   (started, .unspareWrite .sc 1 (rd started (R_LPH_CTL 1))), (started, .loopWrite .sc 1 (rd started (R_LPH_CTL 1))),
   (started, .devStateWrite .sc (rd started R_PWR_CTL)), (started, .warmReset .sc (setF 0 PWR_RESET_KEY 0x5741)),
   (started, .smpCtlWrite .sc (rd started R_SMP_CTL)), (started, .smpClear .sc (rd started R_SMP_CTL))]

/-- The register takes what the row writes. -/
def takes (s : State) (c : Instr) : Bool := (regRow c).any (fun x => decide ((regWrite (scPrepared s x.2.1 x.2.2) x.2.1 x.2.2).status = .ok))

theorem witness_register_rows_accepted :
    regRows.length = 57 ∧ (regRows.filter (takes started)).length + chosenRows.length = 57 ∧
    chosenRows.all (fun x => takes x.1 x.2 && mayWrite x.1 x.2) = true := by decide

/-- A JZ4-128 has not every mailbox that FIRST can name. -/
theorem witness_mbx_clear_first : numMailboxes { started with variant := .jz4x128 }.variant ≤ getF (setF 0 MBX_CLEAR_FIRST 4095) MBX_CLEAR_FIRST ∧
    ¬(numMailboxes started.variant ≤ getF 0 MBX_CLEAR_FIRST) := by decide

theorem witness_stat_clear_rows : ∀ x ∈ statClearRows started.variant, ∃ key v, regRow x.1 = some (.sc, key, v) ∧ ScMayWrite started key v := by
  have h : (statClearRows started.variant).all (fun x => mayWrite started x.1) = true := by decide
  exact fun x hx => scMayWrite_of (List.all_eq_true.mp h x hx)

/-- The words with which the STAT_CLEAR of a port and of a vat leave the other fields as they are. -/
theorem witness_port_and_vat_stat_clear :
    (∀ p ∈ [0, 7], mayWrite started (.ptStatClear .sc (BitVec.ofNat 3 p) (rd started (R_PT_CTL p))) = true ∧ 100 ≤ getF (rd started (R_PT_CTL p)) PT_CTL_REPLAY_NS) ∧
    (∀ s ∈ [started, tallyWaits 0 0 0], let v := rd s (R_VAT_CTL 3)
      mayWrite s (.vatStatClear .sc 3 v) = true ∧ hasF v VAT_CTL_REARM = false ∧ getF v VAT_CTL_FMT ≠ 8 ∧
      ∀ f ∈ [VAT_CTL_VALID, VAT_CTL_AUTO_REARM, VAT_CTL_FMT, VAT_CTL_OP, VAT_CTL_SCALE], getF v f = rdF s (R_VAT_CTL 3) f) := by decide

theorem witness_session_registers :
    (∀ key ∈ [R_MG_CHAINADDR, R_MG_GRANT, R_MG_PORTEN, R_MG_CONSOLE], scOnlyKey key = true ∧ (BitVec.ofNat 23 key).toNat = key) ∧
    regRows.all (fun c => (regRow c).any (fun x => !scOnlyKey x.2.1)) = true := by decide

theorem witness_port_register_rows :
    regRow (.registerWrite (.port (hdr 1 false) true) 0x140000 5) = some (.port (hdr 1 false) true, 0x140000, 5) ∧
    regRow (.celCtlWrite (.port (hdr 1 false) false) 5) = some (.port (hdr 1 false) false, R_CEL_CTL, 5) := by decide

/-- A READ of the privileged view by port 0. -/
def privRead (addr : Nat) : Req := unitReq (hdr 1 false) .read 0x01 addr 8 0 0 false []

theorem witness_unprivileged_port :
    (∀ a ∈ [0xFF800000, 0xFFFFFFF8], (privRead a).who = .port 0 1 ∧ portPrivileged linked 0 = false ∧ 0xFF800000 ≤ (privRead a).addr ∧ 1 ≤ (privRead a).len ∧
      (a : Nat) % 8 = 0 ∧ (hdr 1 false).ord = false ∧ linked.heldOrd = []) ∧
    portPrivileged (wr linked R_MG_GRANT 1) 0 = true ∧ regPresent linked.variant (keyOf 0xFF800000) = true ∧
    scOnlyKey (keyOf 0xFF800000) = false ∧ (pairRefuses linked && mirroredKey (keyOf 0xFF800000)) = false := by decide

/-- `started` with one copy of TK1 off by a bit. -/
def tkOff : State := { started with tk := [(1, (1, 0, 0))] }

theorem witness_triple_kept :
    tkIndex R_MG_CHAINADDR = some 0 ∧ tkIndex R_MG_GRANT = some 1 ∧ tkIndex R_PR_EPOCH = some 9 ∧
    (let m := majority (tkCopies tkOff R_MG_GRANT 1)
     tkCopies tkOff R_MG_GRANT 1 ≠ (m, m, m)) ∧ counting tkOff 0x11 = true := by decide

/-! ### Rack engines -/

/-- `started` with queue 0 of engine 0 in a state, of this ring size code, HEAD and TAIL. -/
def queueIs (st size head tail : Nat) : State :=
  setFields started [(R_Q_STATE 0 0, Q_STATE_STATE, st), (R_Q_RING 0 0, Q_RING_SIZE, size), (R_Q_HEAD 0 0, Q_HEAD_HEAD, head), (R_Q_TAIL 0 0, Q_TAIL_TAIL, tail),
    (R_Q_CFG 0 0, Q_CFG_STEP, 1)]

theorem witness_start_event :
    (∀ s ∈ [queueIs 1 0 0 0, queueIs 2 0 0xFFFFFFF8 7], qState s 0 0 ≠ QS_DISABLED) ∧
    (let s := queueIs 2 0 0xFFFFFFF8 7; (8 + 2 ^ 32 - qHead s 0 0) % 2 ^ 32 = ringSize s 0 0) ∧
    (let s := queueIs 2 0 0xFFFFFFF8 8; ringSize s 0 0 < (9 + 2 ^ 32 - qHead s 0 0) % 2 ^ 32) := by decide

theorem witness_queue_control :
    engFrozen (queueIs 1 0 0 0) 0 = false ∧ engState started 0 = 0 ∧ qState (queueIs 5 0 3 4) 0 0 = QS_FAULT ∧ qState (queueIs 5 0 4 4) 0 0 = QS_FAULT ∧ qState (queueIs 4 0 3 4) 0 0 = QS_STOPPED ∧
    qState (queueIs 2 0 3 4) 0 0 ≠ QS_FAULT := by decide

theorem witness_queue_control_writable :
    ∀ c ∈ [Instr.resumeSkip .sc 0 0 0, .resumeRetry .sc 0 0 0, .goQueue .sc 0 0 0], ∀ s ∈ [queueIs 5 0 3 4, queueIs 4 0 3 4],
      ∃ key v, regRow c = some (.sc, key, v) ∧ ScMayWrite s key v := by
  have h : ([Instr.resumeSkip .sc 0 0 0, .resumeRetry .sc 0 0 0, .goQueue .sc 0 0 0].all (fun c => [queueIs 5 0 3 4, queueIs 4 0 3 4].all (fun s => mayWrite s c))) = true := by
    decide
  exact fun c hc s hs => scMayWrite_of (List.all_eq_true.mp (List.all_eq_true.mp h c hc) s hs)

/-- A descriptor of opcode, flags, SUBOP, OPFMT, LEN, A, B, D. -/
def desc (op flags sub fmt len a b d : Nat) : List Byte :=
  [op, flags, sub, fmt].map (BitVec.ofNat 8) ++ leBytes 4 len ++ leBytes 4 a ++ leBytes 4 b ++ leBytes 8 0 ++ leBytes 4 d ++ leBytes 36 0

/-- `started` with this descriptor fetched and RUNNING in queue 0 of engine 0. -/
def fetchedIs (d : List Byte) : State := setQueue (queueIs 2 0 0 1) 0 0 { queueReset with fetched := [(0, false, d)] }

/-- A descriptor for each row that begins one, and for one of an opcode or SUBOP that is not defined. -/
def rowDescs : List (Instr × List Byte) :=
  [(.nopDesc 0 0, desc 0 0 0 0 0 0 0 0), (.nopDesc 0 0, desc 0xFF 0 0 0 0 0 0 0), (.copyDesc 0 0, desc 1 0 0 0 64 0 0x100 0),
   (.fillDesc 0 0, desc 2 0 0 0 64 0 0x100 0), (.gatherDesc 0 0, desc 3 0 0 0 1 0 0 0), (.scatterDesc 0 0, desc 4 0 0 0 1 0 0 0),
   (.accumDesc 0 0, desc 5 0 0 0 4 0 0x20000000 0), (.crcDesc 0 0, desc 6 0 0 0 64 0 0 0), (.compareDesc 0 0, desc 7 0 0 0 64 0 0x100 0),
   (.semaTry 0 0, desc 9 0 0 0 0 3 0 0), (.semaTry 0 0, desc 9 0 6 0 0 3 0 0), (.semaRelease 0 0, desc 9 0 1 0 0 3 0 0),
   (.semaTicket 0 0, desc 9 0 2 0 0 3 0 0), (.semaServe 0 0, desc 9 0 3 0 0 3 0 0), (.semaPeek 0 0, desc 9 0 4 0 0 3 0 0),
   (.semaNotify 0 0, desc 9 0 5 0 0 3 0 0), (.postDesc 0 0, desc 10 0 0 0 8 4095 0 0), (.waitTally 0 0, desc 11 0 0 0 0 3 0 0),
   (.waitTally 0 0, desc 11 0 4 0 0 3 0 0), (.waitCompletions 0 0, desc 11 0 1 0 0 3 0 0), (.waitFree 0 0, desc 11 0 2 0 0 3 0 0),
   (.waitTake 0 0, desc 11 0 3 0 0 3 0 0), (.pushDesc 0 0, desc 12 0 0 0 16 0 0 0), (.descriptorFence 0 0, desc 13 3 0 0 0 0 0 0)]

theorem witness_descriptors_begin :
    ∀ x ∈ rowDescs, DescBegins (fetchedIs x.2) 0 0 0 false x.2 ∧ ((descRows 0 0).find? (fun r => r.1 = x.1)).any (fun r => r.2.1 x.2) = true := by
  unfold DescBegins; decide

/-- Descriptors at the limits of their LEN: 16 MiB, 192 and 4,096 bytes pass, one more does not (R150, R159, R164). -/
theorem witness_checks_at_their_limits :
    (∀ l ∈ [16777216, 16777217], dLen (desc 1 0 0 0 l 0 0x8000000 0) = l ∧ dLen (desc 2 0 0 0 l 0 0 0) = l ∧ dLen (desc 6 0 1 0 l 0 2 0) = l) ∧
    (∀ l ∈ [192, 193], dLen (desc 10 0 0 0 l 4095 0 0) = l ∧ dA (desc 10 0 0 0 l 4095 0 0) = 4095) ∧
    (∀ l ∈ [0, 1, 4096, 4097], dLen (desc 12 0 0 0 l 0 0 0) = l) ∧
    (sub32 0 0x8000000 = 0xF8000000 ∧ sub32 0x8000000 0 = 0x8000000) ∧
    (bitOf (dSub (desc 6 0 1 0 64 0 2 0)) 0 = true ∧ dB (desc 6 0 1 0 64 0 2 0) % 4 ≠ 0 ∧ dB (desc 6 0 1 0 64 0 4 0) % 4 = 0) ∧
    (opfmtDefined 0 = true ∧ opfmtDefined 15 = false ∧ storedSize 0 = 4 ∧ dB (desc 5 0 0 0 4 0 2 0) % 4 ≠ 0 ∧ dLen (desc 5 0 0 0 6 0 0 0) % 4 ≠ 0) ∧
    (∀ s ∈ [1, 2], dSub (desc 3 0 s 0 64 0 0 0) = s) ∧
    (∀ e ∈ [1, 64, 4096, 4097], dEsize (overlay (desc 3 0 0 0 8192 0 0 0) 28 (leBytes 2 e)) = e) := by decide

/-- MATCH descriptors that each of its checks finds, in the order of the checks. -/
theorem witness_match_checks :
    bigVariant started.variant = true ∧ bigVariant Variant.jz4x128 = false ∧
    (∀ s ∈ [setFields started [(R_MC_CTL 0, MC_CTL_ENABLE, 1)], setFields started [(R_MC_CTL 0, MC_CTL_ENABLE, 1), (R_MC_CTL 0, MC_CTL_PORTS, 1)]],
      hasF (rdBefore s (R_MC_CTL 0)) MC_CTL_ENABLE = true) ∧
    hasF (rdBefore started (R_MC_CTL 0)) MC_CTL_ENABLE = false ∧
    bitOf (rdF (setFields started [(R_MC_CTL 0, MC_CTL_ENABLE, 1)]) (R_MC_CTL 0) MC_CTL_PORTS) (rdF started (R_Q_CFG 0 0) Q_CFG_PORT) = false ∧
    bitOf (rdF (setFields started [(R_MC_CTL 0, MC_CTL_PORTS, 1)]) (R_MC_CTL 0) MC_CTL_PORTS) (rdF started (R_Q_CFG 0 0) Q_CFG_PORT) = true ∧
    dD (desc 8 0 0 0 64 0 0 4) % 64 ≠ 0 ∧ dB (desc 8 0 3 0 0 0 4 0) % 64 ≠ 0 ∧ dA (desc 8 0 0 0 0 256 0 0) = 256 ∧ mCtx (desc 8 0 0 0 0 255 0 0) = 255 := by decide

theorem witness_match_begins :
    ∀ n ∈ [0, 1, 2, 3, 4], DescBegins (fetchedIs (desc 8 0 n 0 0 0 0 0)) 0 0 0 false (desc 8 0 n 0 0 0 0 0) := by
  unfold DescBegins; decide

/-- `started` with context 0 enabled for every port, and a MATCH of this SUBOP fetched in queue 0 of engine 0. -/
def matchReady (n : Nat) : State :=
  setFields (fetchedIs (desc 8 0 n 0 0 0 0 0)) [(R_MC_CTL 0, MC_CTL_ENABLE, 1), (R_MC_CTL 0, MC_CTL_PORTS, 255)]

theorem witness_match_good :
    ∀ n ∈ [0, 1, 2, 3], let s := matchReady n
      let d := desc 8 0 n 0 0 0 0 0
      coreOn s = true ∧ 0 < numEngines s.variant ∧ engState s 0 ≤ 1 ∧ (engineOf s 0).resetting = false ∧
      queueOf s 0 0 = { queueReset with fetched := (0, false, d) :: [] } ∧ qState s 0 0 = QS_RUNNING ∧ qHead s 0 0 ≠ qTail s 0 0 ∧
      syncHolds s 0 0 = false ∧ dOp d = 0x08 ∧ dCond d = 0 ∧ MatchGood s 0 0 d ∧ ((matchRows 0 0).any (fun x => x.2 (dSub d))) = true := by
  unfold MatchGood; decide

/-- A MATCH that holds its lock, with these lines read. -/
def matchWalks (n : Nat) (found : List (List Byte)) : Run :=
  { firstRun started 0 false (desc 8 0 n 0 0 0 0 (64 * (n % 2))) with phase := 4, found := found, mctx := { k := 4, lockSem := 3, header := 0, pool := 4096, count := 8 } }

/-- A context header whose buckets are empty, with the entry at 4096 at FREE_HEAD and 8 free. -/
def emptyLists : List Byte := overlay (overlay (List.replicate 64 0) 32 (leBytes 4 4096)) 44 (leBytes 4 8)

theorem witness_match_walk :
    (matchPlan (matchWalks 0 [])).walk.halt = some (.need 0 64) ∧
    (∀ n ∈ [0, 2], ∀ k ∈ [8], (matchPlan (matchWalks n (emptyLists :: List.replicate k (List.replicate 64 0)))).walk.halt = none ∧
      (matchPlan (matchWalks n (emptyLists :: List.replicate k (List.replicate 64 0)))).full = false) ∧
    (matchPlan (matchWalks 0 (emptyLists :: List.replicate 8 (List.replicate 64 0)))).writes ≠ [] ∧
    dD (matchWalks 0 []).desc = 0 ∧ dD (matchWalks 1 []).desc = 64 := by decide

/-- A FILL in progress in queue 0 of engine 0. -/
def fillRuns : State := after (.fillDesc 0 0) (fetchedIs (desc 2 0 0 0 64 0 0x100 0))

theorem witness_engine_issue :
    let p := settleReset (prepareEngine fillRuns 0) 0
    coreOn fillRuns = true ∧ 0 < numEngines fillRuns.variant ∧ engMayIssue p 0 = true ∧ nextQueue p 0 = some 0 := by decide

theorem witness_engine_fetch :
    let s := queueIs 2 0 0 1
    let r := engRead 0 0 (ringBase s 0 0 + qHead s 0 0 % ringSize s 0 0 * 64) 64
    coreOn s = true ∧ s.power.warmPending = false ∧ 0 < numEngines s.variant ∧ engState s 0 ≤ 1 ∧ (engineOf s 0).resetting = false ∧
    (engineOf s 0).issued ≠ some s.time ∧ qState s 0 0 = QS_RUNNING ∧ (∀ k, k < 4 → queueOf s 0 k = queueReset) ∧
    (∀ k, k < 4 → k ≠ 0 → qState s 0 k = QS_DISABLED ∨ qState s 0 k = QS_STOPPED) ∧ qHead s 0 0 ≠ qTail s 0 0 ∧
    bankFull s r = false ∧ lookupBlocked s r = false := by decide

/-- The access of `fillRuns` issued, answered RETRY and due again. -/
def retryDue : State :=
  let s := after (.engineIssue 0) fillRuns
  let k := queueOf s 0 0
  { setQueue { s with banks := [] } 0 0 { k with accs := k.accs.map (fun a => { a with again := some (s.time + 1), left := 0 }) } with time := s.time + 1 }

theorem witness_access_reissue :
    let p := settleReset (prepareEngine retryDue 0) 0
    coreOn retryDue = true ∧ engMayIssue p 0 = true ∧ (dueAgain p 0 0).isSome = true ∧ nextQueue p 0 = some 0 := by decide

/-- A descriptor of opcode `n`, defined or not, that has ended at once in queue 0 of engine 0. -/
def nopRuns (n : Nat) : State := after (.nopDesc 0 0) (fetchedIs (desc n 0 0 0 0 0 0 0))

theorem witness_retire : ∀ n ∈ [0, 0xFF], ∃ r, MayRetire (nopRuns n) 0 0 r ∧ faulted r = decide (n = 0xFF) := by
  have h : ∀ n ∈ [0, 0xFF], (queueOf (queueReady (nopRuns n) 0 0) 0 0).runs.length = 1 ∧ coreOn (nopRuns n) = true ∧ 0 < numEngines (nopRuns n).variant ∧
      (queueOf (queueReady (nopRuns n) 0 0) 0 0).accs = [] ∧ engState (queueReady (nopRuns n) 0 0) 0 ≤ 1 ∧
      (engineOf (queueReady (nopRuns n) 0 0) 0).resetting = false ∧
      ∀ r ∈ (queueOf (queueReady (nopRuns n) 0 0) 0 0).runs, r.ended = true ∧ actionDone r = true ∧ faulted r = decide (n = 0xFF) := by decide
  intro n hn
  obtain ⟨h1, h2, h3, h4, h5, h6, h7⟩ := h n hn
  obtain ⟨r, hr⟩ := List.length_eq_one_iff.mp h1
  obtain ⟨g1, g2, g3⟩ := h7 r (by simp [hr])
  refine ⟨r, ⟨h2, h3, ⟨[], hr⟩, g1, g2, ?_, h5, h6⟩, g3⟩
  simp [accsOf, h4]

theorem witness_wait :
    coreOn started = true ∧ engState started 0 ≤ 1 ∧ engMayIssue (queueIs 2 0 0 1) 0 = true ∧
    engMayIssue (setEngine started 0 { engineReset with issued := some started.time }) 0 = false ∧
    (let r := { firstRun started 0 false (overlay (desc 0x0B 0 2 0 0 3 0 0) 28 (leBytes 4 1)) with recheck := true }
     limitBefore started r = false ∧ limitPassed { started with time := started.time + 1600 * dE r.desc } r = true ∧
     limitBefore { started with time := started.time + 1600 * dE r.desc } r = false) ∧
    (∀ k ∈ [0, 1, 2, 3], ∀ d ∈ [0, 1], let r := { firstRun started 0 false (desc 0x0B 0 k 0 0 3 0 d) with recheck := true, seen := some (DS_NOVAT, 0) }
      let s := setQueue (queueIs 2 0 0 1) 0 0 { queueReset with runs := [r] }
      coreOn s = true ∧ (queueOf s 0 0).runs = [r] ∧ (queueOf s 0 0).accs = [] ∧
      dOp r.desc = 0x0B ∧ r.ended = false ∧ r.phase = 0 ∧ r.recheck = true ∧ dSub r.desc = k ∧ dA r.desc % 65536 = 3 ∧ dD r.desc = d) ∧
    vatValid started 3 = false ∧ vatValid (tallyWaits 0 0 0) 3 = true ∧ rdF (tallyWaits 0 0 0) (R_VAT_COUNT 3) VAT_COUNT_TALLY = 0 := by decide

/-- `started` with engine 0 going offline and queue 0 stopped by that; engine 1 in its self-test until now. -/
def goingOffline : State :=
  { setQueue (setFields started [(R_ENG_STAT 0, ENG_STAT_STATE, 1), (R_Q_STATE 0 0, Q_STATE_STATE, 4)]) 0 0 { queueReset with offlined := true } with
    test := { testReset with selfEnd := [(1, 10000)] } }

theorem witness_engine_offline :
    engState (prepareEngine goingOffline 0) 0 = 1 ∧
    (∀ q, q < 4 → (queueOf (prepareEngine goingOffline 0) 0 q).accs = [] ∧ (queueOf (prepareEngine goingOffline 0) 0 q).runs = []) ∧
    (queueOf (prepareEngine goingOffline 0) 0 0).offlined = true ∧ qState (prepareEngine goingOffline 0) 0 0 = QS_STOPPED ∧
    copyWaits (prepareEngine goingOffline 0) 0 = false ∧ goingOffline.test.selfEnd.find? (fun x => x.1 = 1) = some (1, 10000) ∧ 10000 ≤ goingOffline.time := by decide

/-- `started` with engine 15 racking bank 63 into spare 0 at its last line. -/
def racking : State :=
  setFields started [(R_RET_MAP, ⟨0, 64⟩, 0), (R_ENG_STAT 15, ENG_STAT_RACKING, 1), (R_ENG_RACK 15, ENG_RACK_BANK, 63), (R_ENG_RACK 15, ENG_RACK_LINE, 65535)]

/-- `racking` after the last line's copy was issued, four cycles later. -/
def rackWaits : State := let s := after (.rackCopyLine 15) racking; { s with time := s.time + 4 }

theorem witness_rack_copy :
    (∀ s ∈ [racking, rackWaits], rdB s (R_ENG_STAT 15) ENG_STAT_RACKING = true ∧ bankPresent s.variant 63 = true ∧ 15 < numEngines s.variant ∧
      rdF s (R_ENG_RACK 15) ENG_RACK_BANK = 63 ∧ rdF s (R_ENG_RACK 15) ENG_RACK_LINE = 65535) ∧
    waitingCopy racking 63 (.engine 15 0) 0xE2 = none ∧ rackMayIssue racking 15 63 65535 = true := by decide

/-- `racking` at its first line. -/
def rackFirst : State := wrF (wrF racking R_RET_MAP ⟨0, 64⟩ (63 + 1 <<< 6)) (R_ENG_RACK 15) ENG_RACK_LINE 0

/-- `rackFirst` after the line's copy was issued, four cycles later. -/
def rackFirstWaits : State := let s := after (.rackCopyLine 15) rackFirst; { s with time := s.time + 4 }

theorem witness_rack_ends :
    (∀ s ∈ [rackWaits, rackFirstWaits], rdB s R_INT_INJECT INT_INJECT_ARM = false ∧ unitUndefined s 63 = false ∧ unitUndefined s 64 = false ∧
      rdF s (R_ENG_RACK 15) ENG_RACK_SPARE = 0 ∧ ∀ j, j < 2 → j ≠ 0 → spareState s j ≠ 1) ∧
    rdF rackFirstWaits (R_ENG_RACK 15) ENG_RACK_LINE = 0 := by decide

theorem copyServes_of {s : State} {b : Nat} {who : Who} {code : Nat} (p : BReq → Bool)
    (h : (waitingCopy s b who code).any (fun r => p r && decide ((winner s b).map Prod.snd = some r)) = true) (h1 : bankCycleFree s b = true)
    (h2 : (bankOf s b).borrow = none) (h3 : s.test.fgUnit = none) (h4 : (bankOf s b).wbCycle ≠ some s.time) :
    ∃ r ptr, CopyServes s b ptr who code r ∧ p r = true := by
  cases hw : waitingCopy s b who code with
  | none => rw [hw] at h; cases h
  | some r =>
    rw [hw, Option.any_some, Bool.and_eq_true, decide_eq_true_eq] at h
    cases hn : winner s b with
    | none => rw [hn] at h; cases h.2
    | some x =>
      obtain ⟨ptr, y⟩ := x
      rw [hn] at h
      obtain ⟨hp, he⟩ := h
      cases he
      exact ⟨y, ptr, ⟨hw, bankServes_of_winner hn h1 h2 h3 h4⟩, hp⟩

theorem witness_rack_serves :
    (∃ r ptr, CopyServes rackWaits 63 ptr (.engine 15 0) 0xE2 r ∧ (decide (r.op = .read) && decide (r.addr = lineAddr rackWaits.variant 63 65535)) = true) ∧
    (∃ r ptr, CopyServes rackFirstWaits 63 ptr (.engine 15 0) 0xE2 r ∧ (decide (r.op = .read) && decide (r.addr = lineAddr rackWaits.variant 63 0)) = true) :=
  ⟨copyServes_of (fun r => decide (r.op = .read) && decide (r.addr = lineAddr rackWaits.variant 63 65535)) (by decide) (by decide) (by decide) (by decide)
    (by decide),
   copyServes_of (fun r => decide (r.op = .read) && decide (r.addr = lineAddr rackWaits.variant 63 0)) (by decide) (by decide) (by decide) (by decide)
    (by decide)⟩

/-! ### Integrity, test and repair -/

/-- `started` with the scrubber on, at this bank and line, or at this store codeword. -/
def scrubbing (bank line : Nat) (stores : Option Nat) : State :=
  let s := setFields started [(R_INT_CTL, INT_CTL_SCRUB_EN, 1), (R_INT_SCRUB_POS, INT_SCRUB_POS_BANK, bank), (R_INT_SCRUB_POS, INT_SCRUB_POS_LINE, line),
    (R_INT_SCRUB_POS, INT_SCRUB_POS_STORES, b01 stores.isSome)]
  { s with integ := { s.integ with storeIndex := stores.getD 0 } }

/-- `scrubbing` with the visit to that line waiting at its bank for four cycles. -/
def visitWaits (bank line : Nat) : State := let s := after .scrubVisit (scrubbing bank line none); { s with time := s.time + 4 }

theorem witness_scrub_visit :
    (∀ x ∈ [(0, 0), (63, 65535)], ∀ s ∈ [scrubbing x.1 x.2 none, visitWaits x.1 x.2],
      rdF s R_INT_SCRUB_POS INT_SCRUB_POS_BANK = x.1 ∧ rdF s R_INT_SCRUB_POS INT_SCRUB_POS_LINE = x.2 ∧ rdB s R_INT_SCRUB_POS INT_SCRUB_POS_STORES = false ∧
      bankPresent s.variant x.1 = true) ∧
    (∀ x ∈ [(0, 0), (63, 65535)], let s := scrubbing x.1 x.2 none
      scrubRuns s = true ∧ s.integ.nextVisit ≤ s.time ∧ waitingCopy s x.1 .scrub 0xE0 = none ∧ regionRefuses s (x.1 / 8) = false) ∧
    (∀ i ∈ [0, 65535, 65536], let s := scrubbing 0 0 (some i)
      scrubRuns s = true ∧ s.integ.nextVisit ≤ s.time ∧ rdB s R_INT_SCRUB_POS INT_SCRUB_POS_STORES = true ∧ unitUndefined s 66 = false ∧
      unitUndefined s 67 = false ∧ s.semq = [] ∧ s.semServed ≠ some s.time ∧ mbxIdle s = true ∧ s.mbxServed ≠ some s.time) := by decide

theorem witness_scrub_serves :
    (∃ r ptr, CopyServes (visitWaits 0 0) 0 ptr .scrub 0xE0 r ∧ (decide (r.op = .read) && decide (r.addr = lineAddr .jz8x256 0 0)) = true) ∧
    (∃ r ptr, CopyServes (visitWaits 63 65535) 63 ptr .scrub 0xE0 r ∧ (decide (r.op = .read) && decide (r.addr = lineAddr .jz8x256 63 65535)) = true) :=
  ⟨copyServes_of (fun r => decide (r.op = .read) && decide (r.addr = lineAddr .jz8x256 0 0)) (by decide) (by decide) (by decide) (by decide) (by decide),
   copyServes_of (fun r => decide (r.op = .read) && decide (r.addr = lineAddr .jz8x256 63 65535)) (by decide) (by decide) (by decide) (by decide) (by decide)⟩

/-- A lees entry. -/
def leesEntry : LogEntry := { time := 9990, phys := 1, addr := 64, kind := 1, bytes := List.replicate 32 0 }

/-- `started` with `n` lees entries in the intake and `k` in the log. -/
def logWaits (n k : Nat) : State :=
  let s := setFields started [(R_INT_LEES_CTL, INT_LEES_CTL_COUNT, k)]
  { s with integ := { s.integ with intake := List.replicate n leesEntry } }

theorem witness_log_write :
    (∀ x ∈ [(1, 0), (4, 28), (5, 0)], coreOn (logWaits x.1 x.2) = true ∧ (logWaits x.1 x.2).integ.lastLogWrite ≠ some (logWaits x.1 x.2).time ∧
      (logWaits x.1 x.2).integ.intake ≠ []) ∧
    (intakeOf (logWaits 4 28) true).length = 4 ∧ rdF (logWaits 4 28) R_INT_LEES_CTL INT_LEES_CTL_COUNT + 4 = 32 ∧
    rdF (logWaits 0 32) R_INT_LEES_CTL INT_LEES_CTL_COUNT = 32 ∧ rdB (logWaits 0 32) R_INT_CTL INT_CTL_LEES_LOCK = false ∧
    rdB (wrB (logWaits 0 32) R_INT_CTL INT_CTL_LEES_LOCK true) R_INT_CTL INT_CTL_LEES_LOCK = true := by decide

/-- `started` with a remap of line 65,535 of bank 63 into entry 7 waiting for its slot. -/
def remapWaits : State := { started with integ := { integReset with remaps := [{ unit := 63, line := 65535, entry := 7, ordered := true }] } }

/-- `remapWaits` with its copy waiting at the bank for four cycles. -/
def remapAtBank : State := let s := after .remapCopy remapWaits; { s with time := s.time + 4 }

theorem witness_remap_copy :
    (∀ s ∈ [remapWaits, remapAtBank], s.integ.remaps = [{ unit := 63, line := 65535, entry := 7, ordered := true }] ∧ dataBank s 63 = some 63 ∧
      bankPresent s.variant 63 = true ∧ unitUndefined s 63 = false ∧ rdB s R_INT_INJECT INT_INJECT_ARM = false) ∧
    waitingCopy remapWaits 63 .sc 0xE3 = none ∧ dataBank remapWaits 64 = none ∧ agentHolds remapWaits { unit := 64, line := 0, entry := 0, ordered := true } = false ∧
    agentHolds { remapWaits with test := { testReset with agents := [newRun 64 0 0 false true] } } { unit := 64, line := 0, entry := 0, ordered := true } = true := by decide

theorem witness_remap_serves :
    ∃ r ptr, CopyServes remapAtBank 63 ptr .sc 0xE3 r ∧ (decide (r.op = .read) && decide (bankLine .jz8x256 r.addr = 65535)) = true :=
  copyServes_of (fun r => decide (r.op = .read) && decide (bankLine .jz8x256 r.addr = 65535)) (by decide) (by decide) (by decide) (by decide) (by decide)

/-- `started` with the background test on at bank 63, which has been idle for 64 slots, and at the spares. -/
def bgReady : State :=
  setBank (setRegs (setFields started [(R_TST_BG, TST_BG_BG_EN, 1), (R_TST_BG, TST_BG_SPARES, 1)]) [(R_TST_BG_BANKS, 2 ^ 63)]) 63 { bankReset with idleRun := 64 }

theorem witness_background_group :
    coreOn bgReady = true ∧ bankPresent bgReady.variant 63 = true ∧ (bankOf bgReady 63).borrow = none ∧ gapOver bgReady (bankOf bgReady 63).groupEnd = true ∧
    bankRacking bgReady 63 = false ∧ regionState bgReady (63 / 8) = RS_ACTIVE ∧ fgOnBank bgReady 63 = false ∧
    rdB bgReady R_TST_BG TST_BG_BG_EN = true ∧ bitOf (rd bgReady R_TST_BG_BANKS).toNat 63 = true ∧ 64 ≤ (bankOf bgReady 63).idleRun ∧
    inHold bgReady = false ∧ devSleep bgReady = false := by decide

theorem witness_spare_pass :
    coreOn bgReady = true ∧ rdB bgReady R_TST_BG TST_BG_SPARES = true ∧ (∀ i ∈ [0, 1], i ∈ freeSpares bgReady) ∧ inHold bgReady = false ∧
    devSleep bgReady = false ∧ bgReady.test.fgUnit ≠ some (64 + 1) ∧ agentOf bgReady (64 + 1) = none ∧ gapOver bgReady (sget none bgReady.test.spareEnd 1) = true ∧
    gapOver (wrF bgReady R_TST_BG TST_BG_GAP_US 1) (some (10000 - 1600)) = true ∧ gapOver (wrF bgReady R_TST_BG TST_BG_GAP_US 1) (some (10001 - 1600)) = false := by decide

/-- `started` with a foreground test of this unit and mode at this group, the last one next, and with these runs of units that are no bank. -/
def fgRuns (unit mode group : Nat) (agents : List TestRun) : State :=
  { started with test := { testReset with fgUnit := some unit, fgMode := mode, fgGroup := group, fgEnd := 3, agents := agents } }

/-- The destructive run of a unit that has ended. -/
def runEnded (unit : Nat) : TestRun := { newRun unit 0 0 true true with phase := .ended }

theorem witness_foreground_group :
    let s := fgRuns 63 0 2 []
    coreOn s = true ∧ bankPresent s.variant 63 = true ∧ (bankOf s 63).borrow = none ∧ bankRacking s 63 = false ∧ regionState s (63 / 8) = RS_ACTIVE ∧
    fgOnBank s 63 = true ∧ s.test.fgAborting = false ∧ s.test.fgGroup < s.test.fgEnd := by decide

theorem witness_foreground_end :
    (let s := fgRuns 63 0 3 []
     s.test.fgUnit = some 63 ∧ fgOver s 63 = true ∧ s.test.fgMode ≠ 2) ∧
    (∀ u ∈ [64, 66], let s := fgRuns u 2 0 [runEnded u]
      s.test.fgUnit = some u ∧ fgOver s u = true ∧ s.test.fgMode = 2 ∧ (fgRun s u).isSome = true) ∧
    (newRun 65 0 0 false true).unit = 64 + 1 := by decide

theorem witness_repair_policy :
    coreOn started = true ∧ started.power.scHalted = false ∧ bankPresent started.variant 63 = true ∧ retireCode started 63 none = 0 ∧
    (bankOf started 63).borrow = none ∧ bankDestroyed started 63 = false ∧ (rackableSpares started).head? = some 0 ∧ (onlineEngines started).getLast? = some 15 := by decide

/-! ### The link -/

/-- A NEW flit of FSEQ 0 with slots of zero bytes and no control slot. -/
def zeroFlit : List Byte := [0, 0xF2] ++ List.replicate 240 0 ++ [11, 184, 55, 28, 187, 190, 23, 147, 103, 4, 8, 28, 4, 152]

/-- A flit as the nine lanes of port 0 of `linked` carry it: the scramblers stand at 0, without precoding. -/
def symbolsOf (flit : List Byte) : List (List (BitVec 2)) := (List.range 8).map (fun l => pamLevels (blockBits (laneBlock flit l))) ++ [[]]

/-- `linked` expecting flit 1. -/
def expectsOne : State := wrF linked (R_PT_RXSEQ 0) PT_RXSEQ_EXPECTED 1

theorem witness_flit_arrives :
    FlitArrives linked 0 ∧ FlitArrives expectsOne 0 ∧ crc64 (zeroFlit.take 242) = leNat (sliceBytes zeroFlit 242 8) ∧
    (let hdr := leNat (sliceBytes zeroFlit 0 2)
     hdr / 512 % 4 = 1 ∧ bitOf hdr 11 = false ∧ hdr % 512 = rdF linked (R_PT_RXSEQ 0) PT_RXSEQ_EXPECTED ∧
     hdr % 512 ≠ rdF expectsOne (R_PT_RXSEQ 0) PT_RXSEQ_EXPECTED) := by
  unfold FlitArrives; decide

theorem flit_is_whole : flitBytes (1 <<< 9 + 15 <<< 12) (List.replicate 240 0) = zeroFlit ∧ fecDecode zeroFlit = some (zeroFlit, false) := by decide +kernel

theorem lanes_carry_their_blocks :
    ∀ s ∈ [linked, expectsOne], ∀ l < 8, rxBlock s 0 (carrier s 0 l) ((symbolsOf zeroFlit).getD (carrier s 0 l) []) = laneBlock zeroFlit l := by decide +kernel

theorem blocks_are_the_flit : gatherFlit ((List.range 8).map (laneBlock zeroFlit)) = zeroFlit := by decide +kernel

theorem witness_flit_on_the_lanes : ∀ s ∈ [linked, expectsOne], receivedFlit s 0 (symbolsOf zeroFlit) = zeroFlit := by
  intro s hs
  refine Eq.trans ?_ blocks_are_the_flit
  unfold receivedFlit
  congr 1
  exact List.map_congr_left (fun l hl => lanes_carry_their_blocks s hs l (List.mem_range.mp hl))

theorem witness_flit_beyond_its_code : fecDecode ((zeroFlit.set 0 1).set 3 1) = none ∧ counting linked (2 + 0) = true := by decide

/-- `linked` with a NAK sent 1,000 ns ago, the receiver waiting, a flit unacknowledged since then, and one flit kept, a replay asked for or not. -/
def linkWaits (resent : Nat) (due : Bool) : State :=
  let s := setFields linked [(R_PT_STAT 0, PT_STAT_RX_WAIT, 1)]
  setLink s 0 { linkOf s 0 with nakSentAt := some 8400, unackedSince := some 9897, replayDue := due, progressAt := 8400,
                                kept := [{ fseq := 0, slots := List.replicate 240 0, lcs := false, first := 15, resent := resent, resps := 0 }] }

theorem witness_link_timeouts :
    portUp (linkWaits 0 true) 0 = true ∧ rdB (linkWaits 0 true) (R_PT_STAT 0) PT_STAT_RX_WAIT = true ∧
    nsPassed (linkWaits 0 true) 8400 (linkOf (linkWaits 0 true) 0).nakNs = true ∧
    nsPassed { linkWaits 0 true with time := 9999 } 8400 (linkOf (linkWaits 0 true) 0).nakNs = false ∧
    nsPassed (linkWaits 0 true) 9897 64 = true ∧ nsPassed (linkWaits 0 true) 9898 64 = false := by decide

theorem witness_replay :
    ∀ n ∈ [0, 7, 8], ∀ d ∈ [true, false], let s := linkWaits n d
      coreOn s = true ∧ portUp s 0 = true ∧ (linkOf s 0).kept ≠ [] ∧
      ((linkOf s 0).replayDue = true ∨ nsPassed s (linkOf s 0).progressAt (linkOf s 0).progressNs = true) := by decide

/-- `linked`, its own INIT slot sent, with a unit of one slot waiting to leave port 0. -/
def unitWaits : State := sendOn (setLink linked 0 { linkOf linked 0 with initSent := true }) 0 1 (List.replicate 16 0x80)

theorem witness_flit_send :
    FlitArrives unitWaits 0 ∧ enteringEi unitWaits 0 = false ∧ initDue unitWaits 0 = false ∧ (linkOf unitWaits 0).replayNext = none ∧
    (linkOf unitWaits 0).kept.length < 256 ∧ (fillFlit (linkOf unitWaits 0) (if controlDue unitWaits 0 then 14 else 15)).slots ≠ [] := by
  unfold FlitArrives; decide

/-! ### Physical layer -/

/-- `linked` with electrical idle enabled after 1 µs, idle since cycle 8,400, in it or not, having asked for it or not, having met the partner's
request or not, and with the exit begun then or not. -/
def idlePort (idle asked : Bool) (meets exitAt : Option Nat) : State :=
  let s := setFields linked [(R_LPH_CTL 0, LPH_CTL_EI_EN, 1), (R_LPH_CTL 0, LPH_CTL_EI_IDLE_US, 1), (R_LPH_STAT 0, LPH_STAT_EI, b01 idle)]
  setPhy s 0 { phyOf s 0 with idleSince := 8400, eiAsked := asked, eiMeets := meets, eiExitAt := exitAt }

/-- The marker of logical lane 3 with these flags. -/
def markerOf (flags : Nat) : List Byte := markerBytes linked 0 3 flags

theorem witness_markers : ∀ x ∈ [(0x02, 1), (0x04, 2), (0x08, 3), (0x10, 4)], markerSays (markerOf x.1) x.2 = true := by decide

theorem witness_electrical_idle :
    (∀ a ∈ [false, true], let s := idlePort false a none none
      portUp s 0 = true ∧ inEi s 0 = false ∧ idleReady s 0 = true ∧ (phyOf s 0).eiAsked = a ∧
      nsPassed s (phyOf s 0).idleSince (1000 * rdF s (R_LPH_CTL 0) LPH_CTL_EI_IDLE_US) = true) ∧
    (portUp unitWaits 0 = true ∧ inEi unitWaits 0 = false ∧ idleReady unitWaits 0 = false) ∧
    (let s := setPhy linked 0 { phyOf linked 0 with eiCrossed := true }
     portUp s 0 = true ∧ inEi s 0 = false ∧ (phyOf s 0).eiAsked = false ∧ (phyOf s 0).eiCrossed = true) ∧
    (let s := idlePort false true (some 9840) none
     portUp s 0 = true ∧ inEi s 0 = false ∧ (phyOf s 0).eiAsked = true ∧ (phyOf s 0).eiMeets = some 9840 ∧ nsPassed s 9840 100 = true ∧
     nsPassed s 9841 100 = false) ∧
    (∀ x ∈ [none, some 8400], let s := idlePort true false none x
      portUp s 0 = true ∧ inEi s 0 = true ∧ (phyOf s 0).eiExitAt = x) ∧
    (let s := sendOn (idlePort true false none none) 0 1 (List.replicate 16 0x80)
     portUp s 0 = true ∧ inEi s 0 = true ∧ (phyOf s 0).eiExitAt = none ∧ nothingToSend s 0 = false) ∧
    nsPassed (idlePort true false none (some 8400)) 8400 1000 = true ∧ counting linked 0x0A = true := by decide

/-- Three eyes of one opening. -/
def eyes (h : Nat) : List Eye := List.replicate 3 { opening := h, spacing := 100 }

/-- `linked` at rate 0 with lane 8 of port 0 in a mode. -/
def laneIs (m : Nat) : State := setFields linked [(R_LRX_STAT 0 8, LRX_STAT_MODE, m), (R_LPH_STAT 0, LPH_STAT_RATE, 0)]

/-- What a receiver observes in a microsecond. -/
def observed (h : Nat) : LaneObs := { eyes := eyes h, ctle := 5, dfe := 6, locked := true, errors := 0 }

theorem witness_lane_events :
    (∀ h ∈ [0, 50], eyesFit (laneIs 0) 0 (observed h).eyes = true) ∧
    (∀ m ∈ [0, 1, 2], laneUsed (laneIs m) 0 8 = true ∧ laneMeasures (laneIs m) 0 8 = true ∧ portUp (laneIs m) 0 = true ∧ inEi (laneIs m) 0 = false) ∧
    laneMode (laneIs 1) 0 8 = LM_FROZEN ∧ laneMode (laneIs 0) 0 8 ≠ LM_FROZEN ∧
    emfOf (observed 0).eyes < rdF (laneIs 0) R_LN_GCFG LN_GCFG_HARD_FLOOR ∧ laneMode (laneIs 2) 0 8 = LM_READAPT ∧
    nsPassed { laneIs 2 with time := 100000000 } (laneOf (laneIs 2) 0 8).readaptAt (1000 * rdF (laneIs 2) R_LN_GCFG2 LN_GCFG2_READAPT_US) = true ∧
    (0 : Nat) < numPorts (laneIs 0).variant ∧ counting (laneIs 0) 0x0A = true := by decide

/-- `started` at cycle 20,000,000,000 with port 7 in a state, retraining or not, at this attempt. -/
def portIs (st : Nat) (retrain : Bool) (attempt : Nat) : State :=
  setFields { started with time := 20000000000 } [(R_LPH_STAT 7, LPH_STAT_STATE, st), (R_LPH_STAT 7, LPH_STAT_RETRAINING, b01 retrain),
    (R_LPH_STAT 7, LPH_STAT_ATTEMPT, attempt), (R_LPH_CTL 7, LPH_CTL_RATES, 7)]

theorem witness_retrain_timeout :
    retraining (portIs 3 true 1) 7 = true ∧ 7 < numPorts (portIs 3 true 1).variant ∧ nsPassed (portIs 3 true 1) (phyOf (portIs 3 true 1) 7).retrainAt 5000000 = true := by
  decide

/-- A training block of a state, lane and offered rates, with ACK or not. -/
def block (st lane rates : Nat) (ack : Bool) : List Byte :=
  let b := trainingSync ++ [st, lane, rates + 0x40 * b01 ack].map (BitVec.ofNat 8) ++ List.replicate 19 0
  b ++ leBytes 2 (crc16 b)

/-- What the receiver reports beside a block. -/
def laneReport : LaneReport := { eyes := eyes 30, inverted := false, aligned := true, ctle := 3, dfe := 4, coefReq := 0 }

/-- `portIs` with seven lanes of port 7 heard, and with every lane aligned but LS and L7. -/
def heardMost (st : Nat) : State := let s := portIs st false 1; setPhy s 7 { phyOf s 7 with heard := 0x7F, good := 0x7F }

theorem witness_training_blocks :
    (∀ st ∈ [1, 2, 3, 4], blockValid (block st 7 7 true) = true ∧ linkState (heardMost st) 7 = st ∧ LS_SPEED ≤ st + 1) ∧
    heardCount (noteBlock (heardMost 1) 7 7 laneReport (block 1 7 7 true)) 7 = 8 ∧
    (ratesBelow (phyOf (heardMost 2) 7).rates (phyOf (heardMost 2) 7).attemptRate &&& (byteOf (block 2 7 7 true) 10 % 8)) ≠ 0 ∧
    (phyOf (noteBlock (heardMost 2) 7 7 laneReport (block 2 7 7 true)) 7).partnerAck = true ∧
    (let n := noteBlock (heardMost 4) 7 7 laneReport (block 4 7 7 true)
     wiringIs n 7 (reversed n 7) = true ∧ (phyOf n 7).partnerAck = true ∧
     ownAck (setPhy n 7 { phyOf n 7 with good := (phyOf n 7).good ||| BitVec.ofNat 9 (1 <<< 7) }) 7 = true) ∧
    (∀ st ∈ [1, 2, 3, 4], coreOn (heardMost st) = true) ∧
    (let s := setLink (portIs 4 true 1) 7 { linkReset with kept := [{ fseq := 0, slots := [], lcs := false, first := 15, resent := 7, resps := 0 }] }
     retraining s 7 = true ∧ ∀ k, (linkOf s 7).kept.head? = some k → k.resent < 8) := by
  refine ⟨by decide, by decide, by decide, by decide, by decide, by decide, by decide, ?_⟩
  intro k hk
  cases (show some _ = some k from hk)
  decide

theorem witness_training_ends :
    (∀ st ∈ [1, 2, 3, 4], ∀ n ∈ [1, 2, 3], linkState (portIs st false n) 7 = st ∧ retraining (portIs st false n) 7 = false ∧
      nsPassed (portIs st false n) (phyOf (portIs st false n) 7).stateAt (stateLimit st).1 = true ∧
      rdF (portIs st false n) (R_LPH_STAT 7) LPH_STAT_ATTEMPT = n) ∧
    (linkState (portIs 5 false 1) 7 = LS_UP ∧ inEi (portIs 5 false 1) 7 = false) ∧
    (linkState (portIs 6 false 0) 7 = LS_DOWN ∧ nsPassed (portIs 6 false 0) (phyOf (portIs 6 false 0) 7).stateAt
      (10000000 * 2 ^ min ((phyOf (portIs 6 false 0) 7).downsSinceUp - 1) 6) = true) ∧
    (linkState (portIs 7 false 0) 7 = LS_UNANSWERED ∧ nsPassed (portIs 7 false 0) (phyOf (portIs 7 false 0) 7).stateAt 1000000000 = true) := by decide

/-! ### The mirrored pair -/

/-- `started` as the primary with pair port P7 UP, mirroring every region, in a pair state, active and source or not. -/
def paired (st : Nat) (active source : Bool) : State :=
  setFields started [(R_PR_ROLE, PR_ROLE_ROLE, 1), (R_PR_MIRROR, PR_MIRROR_REGIONS, 255), (R_PR_STAT, PR_STAT_STATE, st), (R_PR_STAT, PR_STAT_ACTIVE, b01 active),
    (R_PR_STAT, PR_STAT_SOURCE, b01 source), (R_PR_STAT, PR_STAT_PORTS_UP, 2), (R_LPH_STAT 7, LPH_STAT_STATE, 5), (R_PT_STAT 7, PT_STAT_SESSION, 1)]

/-- A unit sent and not accepted. -/
def sentUnit : PairUnit := { num := 3, utag := 4095, port := 7, bytes := [], segment := some 1, deferred := [] }

/-- `paired` as a passive device, with these received units in course. -/
def receiving (l : List RxUnit) : State := { paired 3 false false with pair := { pairReset with rxUnits := l } }

/-- A received LINES unit of port 7 in course, with this many lines not committed. -/
def linesBegun (left : Nat) : RxUnit := { num := 9, port := 7, utag := 77, body := .lines [(64, List.replicate 64 1)], begun := true, left := left }

theorem witness_pair_units :
    (∀ s ∈ [paired 3 false false, paired 2 false false], isPairPort s (7 : BitVec 3).toNat = true ∧ pairApplies s = true ∧ unitUndefined s 66 = false ∧
      unitUndefined s 67 = false ∧ s.pair.rxUnits = [] ∧ s.semq = [] ∧ s.semStage = [] ∧ s.mbxq = [] ∧ s.mbxStage = [] ∧ coreOn s = true ∧
      s.semServed ≠ some s.time ∧ s.mbxServed ≠ some s.time) ∧
    (4095 : BitVec 16).toNat < numMailboxes started.variant ∧ (1023 : BitVec 16).toNat < 1024 ∧
    (let ls := lineImages (0x0FFFFC00 - 0x0FFFFC00 % 1024) 0x8001 (List.replicate 128 1)
     ls.length = 2 ∧ ∀ x ∈ ls, arrayPresent started.variant x.1 = true) ∧
    (let s := receiving [linesBegun 2]
     isPairPort s 7 = true ∧ pairApplies s = true ∧ s.pair.rxUnits.find? (fun u => u.port = 7) = some (linesBegun 2) ∧ (linesBegun 2).begun = true) ∧
    (∀ n ∈ [1, 2], let s := receiving [linesBegun n]
      s.pair.rxUnits.find? (fun u => u.num = 9) = some (linesBegun n) ∧ ∀ v ∈ s.pair.rxUnits, v.port = 7 → v.num = 9) ∧
    (let s := { paired 3 true false with pair := { (paired 3 true false).pair with units := [sentUnit] } }
     isPairPort s 7 = true ∧ s.pair.units.find? (fun u => u.port = 7 && u.utag = 4095) = some sentUnit) := by decide

/-- A received HEAL_REQ of port 7 whose line is being read. -/
def healBegun : RxUnit := { num := 9, port := 7, utag := 77, body := .heal 64, begun := true, left := 1 }

theorem witness_heal_turn :
    (∀ u ∈ (receiving [{ linesBegun 1 with port := 6, num := 4 }]).pair.rxUnits, u.port ≠ 7 ∧ u.num < 5) ∧
    (let s := receiving [healBegun]
     s.pair.rxUnits.find? (fun u => u.num = 9) = some healBegun ∧ healBegun.left ≤ 1 ∧ healAnswered s = true ∧
     s.pair.rxUnits.find? (fun u => u.port = 7) = some healBegun ∧ healBegun.begun = true ∧ ∀ v ∈ s.pair.rxUnits, v.port = 7 → v.num = 9) ∧
    (∀ a, (linesBegun 1).body ≠ .heal a) ∧ healAnswered (paired 4 true false) = false ∧ (∀ x ∈ [sentUnit], x.port ≠ 8) := by
  refine ⟨by decide, by decide, ?_, by decide, by decide⟩
  intro a h
  cases h

theorem witness_heal :
    (let s := paired 3 true false
     healAnswered s = true ∧ isPairPort s 7 = true ∧ arrayPresent s.variant (lineBase 0x0FFFFFFF) = true ∧ regionRefuses s (regionOf (lineBase 0x0FFFFFFF)) = false ∧
     arrayPresent s.variant (lineBase 0x10000000) = false) ∧
    (let s := { paired 3 true false with pair := { pairReset with heals := [(7, 9, 64)] } }
     isPairPort s 7 = true ∧ (7, 9, lineBase 100) ∈ s.pair.heals) := by decide

/-- HELLO fields of a secondary that this primary may join: of its state, sourceCmd, epoch and mirrored regions. -/
def hello (state source epoch mirror : Nat) : HelloFields :=
  { role := 2, state := BitVec.ofNat 3 state, ports := false, active := false, full := false, part := 0x8256,
    mirror := BitVec.ofNat 8 mirror, soloSince := true, keepPrimary := false, sourceCmd := BitVec.ofNat 2 source, epoch := BitVec.ofNat 32 epoch, bitmapCount := 0 }

/-- `paired` SOLO since it last joined, as the partner is. -/
def undecided : State := setFields (paired 4 true false) [(R_PR_EPOCH, PR_EPOCH_SOLO_SINCE_JOIN, 1), (R_PR_CFG, PR_CFG_KEEP_PRIMARY, 0)]

theorem witness_hello :
    (∀ st ∈ [1, 2, 3, 4, 5], isPairPort (paired st false false) (7 : BitVec 3).toNat = true ∧ pairState (paired st false false) ≠ PS_OFF) ∧
    (pairState (paired 2 false false) = PS_SYNCING ∧ pairSource (paired 2 false false) = false ∧ (hello 3 0 9 255).state = 3) ∧
    (pairState (paired 1 false false) ∈ [PS_SEEKING, PS_SOLO, PS_ORPHAN] ∧ (hello 1 0 9 255).state = 1) ∧
    joinCheck (paired 1 false false) (hello 1 0 9 254) ≠ 0 ∧ (sourceHere (paired 4 true false) (hello 1 0 9 255)).isSome = true ∧
    (hello 4 1 9 255).sourceCmd ≠ 0 ∧ sourceHere undecided (hello 4 1 9 255) = none := by decide

/-- The part number, whatever the stepping of the device. -/
theorem part_number (s : State) (h : s = paired 4 true false ∨ s = undecided) : rdF s R_ID_DEVICE ID_DEVICE_PART = 0x8256 := by
  have step : ∀ x : BitVec 8, getF (w64 (0x4E4C <<< 48 + 0x4A5A <<< 32 + 0x8256 <<< 16 + x.toNat <<< 8)) ID_DEVICE_PART = 0x8256 := by decide
  rcases h with h | h <;> subst h <;> exact step Config.stepping

theorem witness_join_checks : joinCheck (paired 4 true false) (hello 1 0 9 255) = 0 ∧ joinCheck undecided (hello 4 1 9 255) = 0 := by
  unfold joinCheck
  rw [part_number _ (.inl rfl), part_number _ (.inr rfl)]
  decide

theorem witness_hello_send :
    ∀ s ∈ [paired 3 true false, { paired 3 true false with time := 7, pair := { pairReset with helloDue := true } }],
      fatalState s = false ∧ pairRole s ≠ 0 ∧ pairState s ≠ PS_OFF ∧ (s.pair.helloDue = true ∨ nsPassed s s.pair.helloAt 1000 = true) ∧ 7 ∈ pairPorts s ∧
      portUp s 7 = true := by decide

/-- `paired` with the last HELLO long ago. -/
def partnerSilent (active : Bool) : State := { paired 3 active false with time := 10000000 }

theorem witness_pair_port_loss :
    (∀ s ∈ [partnerSilent true, partnerSilent false, setFields (partnerSilent true) [(R_PR_ROLE, PR_ROLE_PORTS, 1), (R_PR_STAT, PR_STAT_PORTS_UP, 3)]],
      isPairPort s (7 : BitVec 3).toNat = true ∧ pairPortUp s 7 = true ∧ pairState s = PS_MIRRORED ∧
      nsPassed s (sget 0 s.pair.lastHello 7) (1000 * rdF s R_PR_CFG PR_CFG_LOSS_US) = true) := by decide

theorem witness_auto_promote :
    let s := setFields { paired 5 false false with time := 10000000000 } [(R_PR_CFG, PR_CFG_AUTO_PROMOTE, 1)]
    pairState s = PS_ORPHAN ∧ rdB s R_PR_CFG PR_CFG_AUTO_PROMOTE = true ∧
    nsPassed s s.pair.orphanAt (1000000 * rdF s R_PR_CFG PR_CFG_PROMOTE_MS) = true := by decide

/-- The source of SYNCING with segment 5 to copy, at item `i`. -/
def syncing (i : Nat) : State := { paired 2 true true with pair := { pairReset with syncSegs := [5], syncPos := i } }

/-- `syncing` with the read of that item issued, four cycles later. -/
def syncIssued (i : Nat) : State := let s := after .syncCopy (syncing i); { s with time := s.time + 4 }

theorem witness_sync_issue :
    (∀ i ∈ [0, 1023, 1024, 1024 + 65535, 1024 + 65536, 1024 + 65536 + 4095, 1024 + 65536 + 4096, 1024 + 65536 + 4096 + 1023], let s := syncing i
      coreOn s = true ∧ pairState s = PS_SYNCING ∧ pairSource s = true ∧ s.pair.syncFault = none ∧ syncEngine s = some 15 ∧ s.pair.syncSegs.length = 1 ∧
      s.pair.syncPos = i ∧ syncMayIssue s 15 = true ∧ s.semq = [] ∧ s.semStage = [] ∧ s.mbxq = [] ∧ s.mbxStage = [] ∧ pairBlocked s (storePort s) = false) ∧
    (∀ i ∈ [0, 1023], let s := syncing i
      waitingCopy s (bankIndex s.variant (syncAddr s)) (.engine 15 0) 0xE4 = none ∧ regionRefuses s (regionOf (syncAddr s)) = false ∧
      bankFull s (engRead 15 0 (syncAddr s) 64) = false) ∧
    numMailboxes (syncing 1024).variant = 4096 := by decide

theorem witness_sync_serve :
    (∀ i ∈ [0, 1023], let s := syncIssued i
      let b := bankIndex s.variant (syncAddr s)
      let unit := physUnit s b (bankLine s.variant (syncAddr s))
      coreOn s = true ∧ pairState s = PS_SYNCING ∧ pairSource s = true ∧ s.pair.syncFault = none ∧ syncEngine s = some 15 ∧ s.pair.syncPos = i ∧
      (waitingCopy s b (.engine 15 0) 0xE4).any (fun r => decide (r.addr = syncAddr s) && copyWins s b r) = true ∧
      (∀ k ∈ [0, 1], let d := decodeCw (readCw s unit (physLine s unit (bankLine s.variant (syncAddr s))) k)
        d.outcome ≠ .poisoned ∧ d.outcome ≠ .uncorrectable)) ∧
    (∀ n ∈ [0, 65535], let s := syncIssued (1024 + n)
      syncEngine s = some 15 ∧ (semFront s).any (fun o => decide (o.kind = .semCopy ∧ o.uid = 1024 + n ∧ o.n = n) && s.semq.contains o) = true ∧
      s.semServed ≠ some s.time ∧ (semDecode s n).outcome ≠ .uncorrectable) ∧
    (∀ n ∈ [0, 4095], let s := syncIssued (1024 + 65536 + n)
      syncEngine s = some 15 ∧ (mbxFront s).any (fun o => decide (o.kind = .mbxCopy ∧ o.uid = 1024 + 65536 + n ∧ o.n = n) && s.mbxq.contains o) = true ∧
      s.mbxServed ≠ some s.time ∧ ∀ k, k < 7 → (mbxDecode s n k).outcome ≠ .uncorrectable) := by decide

theorem witness_sync_settled : settleHolds (syncIssued 0) (bankIndex .jz8x256 (syncAddr (syncIssued 0))) = syncIssued 0 := by rfl

/-! ### Power -/

/-- `started` with region 7 in a state, of this target. -/
def regionIs (st target : Nat) : State := wrF (setRegionState started 7 st) R_PWR_REGION ⟨14, 2⟩ target

theorem witness_region_events :
    coreOn started = true ∧
    (∀ x ∈ [0, 1, 2], let s := regionIs RS_WAKING x
      regionState s 7 = RS_WAKING ∧ wakingFromOff s 7 = false ∧ enteringOff s 7 = false ∧ effectiveTarget s 7 = x) ∧
    (let s := setSpare { regionIs RS_WAKING 1 with time := 5000000, power := { (regionIs RS_WAKING 1).power with offWake := [(7, 9)] } } 0 63 1 0
     9 + clearCycles ≤ s.time ∧ effectiveTarget s 7 = 1 ∧ regionHeldByTest s 7 = true) ∧
    (regionState (regionIs RS_ACTIVE 1) 7 = RS_ACTIVE ∧ effectiveTarget (regionIs RS_ACTIVE 1) 7 = 1 ∧
      sget 0 (regionIs RS_ACTIVE 1).power.regionAt 7 ≤ started.time ∧ regionWaiting (regionIs RS_ACTIVE 1) 7 = false ∧ regionHeldByTest (regionIs RS_ACTIVE 1) 7 = false) ∧
    (regionState (regionIs RS_ENTERING 1) 7 = RS_ENTERING ∧ enteringOff (regionIs RS_ENTERING 1) 7 = false ∧ effectiveTarget (regionIs RS_ENTERING 1) 7 ≠ 2) ∧
    (let s := setSpare (regionIs RS_ENTERING 2) 0 63 1 0
     regionState s 7 = RS_ENTERING ∧ enteringOff s 7 = false ∧ wakingFromOff s 7 = false ∧ effectiveTarget s 7 = 2 ∧ regionHeldByTest s 7 = true) ∧
    (∀ x ∈ [0, 2], let s := { regionIs RS_WAKING x with time := 5000000, power := { (regionIs RS_WAKING x).power with offWake := [(7, 9)] } }
     s.power.offWake.find? (fun w => w.1 = 7) = some (7, 9) ∧ 9 + clearCycles ≤ s.time ∧ effectiveTarget s 7 = x ∧ coreOn s = true) := by decide

/-- `started` in HOLD since cycle 9. -/
def holding : State := wrB { started with time := 32009, power := { started.power with holdSince := 9 } } R_PWR_DEVSTAT PWR_DEVSTAT_HOLD true

theorem witness_hold :
    started.power.clock ≠ .none ∧ inHold started = false ∧ inHold holding = true ∧ holding.power.holdSince + 32000 = holding.time := by decide

/-- `started` with this clock. -/
def clocked (c : CoreClock) : State := { started with power := { started.power with clock := c } }

theorem witness_resets :
    started.power.clock ≠ .none ∧ started.power.resetLow = false ∧ started.power.step ≠ some 0 ∧ started.power.scHalted = false ∧
    (State.reset.power.clock ≠ .none ∧ State.reset.power.resetLow = false ∧ State.reset.power.step = some 0 ∧
      rdF State.reset R_PWR_ATTEMPT (PWR_ATTEMPT_ATT_S 0) = 0 ∧ startKind State.reset < 3) ∧
    (clocked .none).power.clock = .none ∧ started.power.clock = .pll ∧ (clocked .oscillator).power.clock = .oscillator ∧
    (clocked .stopped).power.clock = .stopped ∧ linkState linked 0 ≠ LS_DISABLED ∧ linkState linked 0 ≠ LS_DOWN ∧
    { started with power := { started.power with warmPending := true } }.power.warmPending = true ∧
    warmDrained { started with power := { started.power with warmPending := true } } = true := by decide

/-- A device in start step `k`, in its attempt `a`, at cycle 10^12. -/
def stepping (k a : Nat) (warm : Bool) : State :=
  setFields { State.reset with time := 1000000000000, power := { State.reset.power with step := some k, attempt := a, warmPending := warm } }
    [(R_PWR_ATTEMPT, PWR_ATTEMPT_ATT_S 9, 1), (R_PR_ROLE, PR_ROLE_ROLE, 1)]

/-- The report of a start step in which all went well. -/
def goodReport : StepReport :=
  { ok := true, badBanks := 0, badSpares := 0, badStores := 0, badCopies := [], badCells := [], badPorts := 0, badEngines := 0 }

theorem witness_start_reports :
    goodReport.ok = true ∧ lostItems goodReport = [] ∧ startKind (stepping 1 0 false) < 3 ∧ tkBacked 1 = true ∧ tkBacked 16 = false ∧
    3 ≤ startKind (deviceReset (stepping 1 0 false) 4) := by decide

theorem witness_start_steps :
    (∀ k ∈ [0, 1, 2, 3, 4, 5, 6, 7, 8, 9, 10, 11], ∀ w ∈ [false, true], (stepping k 0 w).power.step = some k ∧ startRuns (stepping k 0 w) = true) ∧
    warmDrained (stepping 0 0 true) = true ∧
    (∀ a ∈ [0, 1], stepLate (stepping 4 a false) 4 10 = true) ∧
    stepLate (stepping 8 0 false) 8 (stepping 8 0 false).power.s8Ms = true ∧
    (∀ a ∈ [0, 1, 2], stepLate (stepping 9 a false) 9 (stepping 9 a false).power.s9Ms = true ∧ pairStarts (stepping 9 a false) = true ∧
      pairState (stepping 9 a false) ≠ PS_SYNCING ∧ pairState (stepping 9 a false) ≠ PS_MIRRORED ∧
      rdF (stepping 9 a false) R_PWR_ATTEMPT (PWR_ATTEMPT_ATT_S 9) ≠ 0) := by decide

/-- The second attempt of step S4, with one weak cell in line 6 of unit 0. -/
def weakStepping : State := { stepping 4 1 false with test := { testReset with weak := [(0, 3, 1)] } }

theorem witness_open_lines :
    rdF weakStepping R_TST_RESULT TST_RESULT_FAILS = 0 ∧ 0 ∈ marchedUnits weakStepping ∧ openLines weakStepping 0 ≠ [] := by
  have h : weakLines weakStepping 0 = [(6, 1)] := by
    simp [weakLines, weakStepping, testReset, List.eraseDups, List.eraseDupsBy, List.eraseDupsBy.loop]
  have r : remapOf weakStepping 0 6 = none := by decide
  refine ⟨by decide, by decide, ?_⟩
  simp [openLines, h, r]

/-- `started` after a fatal error, with the cellar enabled, its record in this phase with these lines to write. -/
def fatal (phase : CellarPhase) (writes : List (Nat × List Byte)) : State :=
  let s := after (.fatalError 1 5) (wrB started R_CEL_CTL CEL_CTL_ENABLE true)
  { s with mgmt := { s.mgmt with cellar := { cellarReset with phase := phase, writes := writes } } }

theorem witness_fatal :
    coreOn started = true ∧ started.power.resetLow = false ∧ fatalState started = false ∧ started.power.scHalted = false ∧ rdB started R_CEL_CTL CEL_CTL_ENABLE = false ∧
    (∀ x ∈ [CellarPhase.written, .reading, .writing], let s := fatal x []
      fatalState s = true ∧ s.power.fatalDone = false ∧ scHandlesFatal s = true ∧ rdB s R_CEL_CTL CEL_CTL_ENABLE = true ∧ s.mgmt.cellar.acc = none ∧
      coreOn s = true ∧ scRuns s = true ∧ s.mgmt.cellar.phase = x ∧ s.mgmt.cellar.reads = []) ∧
    (let x := (cellarBase started.variant, List.replicate 64 (1 : Byte))
     (fatal .writing [x]).mgmt.cellar.writes = [x] ∧ arrayPresent started.variant x.1 = true ∧ regionRefuses (fatal .writing [x]) (regionOf x.1) = false) ∧
    (newAcc 0 0 (scReq .write 0 0) .statusWord).req.op = .write ∧
    (fatal .writing []).power.fatalAt = some 10000 ∧ 10000 + 16000000 ≤ { fatal .writing [] with time := 16010000 }.time := by decide

/-! ### Management -/

/-- A frame with a good CRC, all of it and `more` bytes received. -/
def frame (addr typ : Nat) (payload : List Byte) (more : Nat) : ChainFrame :=
  let f : ChainFrame := { addr := BitVec.ofNat 8 addr, len := BitVec.ofNat 8 payload.length, payload := payload, crc := 0, rest := List.replicate more 0, received := payload.length + 5 + more }
  { f with crc := BitVec.ofNat 16 (crc16 (frameBody f (BitVec.ofNat 8 typ))) }

/-- `started` at chain address 5, with reply text waiting or a line to run. -/
def onChain (reply : List Byte) (line : Bool) : State :=
  let s := setRegs started [(R_MG_CHAINADDR, 5)]
  { s with mgmt := { s.mgmt with reply := reply, lines := if line then [(.chain, 9000, [0x78])] else [] } }

theorem witness_frames :
    (∀ x ∈ [(63, 1, [1]), (63, 1, [62]), (63, 1, [0])], FrameGood started (frame x.1 x.2.1 (x.2.2.map (BitVec.ofNat 8)) 0) (BitVec.ofNat 8 x.2.1) true) ∧
    (∀ s ∈ [onChain [] false, onChain [0x6F] false, onChain [] true, { onChain [] false with power := { started.power with scHalted := true } }],
      FrameGood s (frame 5 2 [0x6C] 0) 2 false ∧ FrameGood s (frame 5 3 [] 300) 3 false ∧ FrameGood s (frame 5 4 [] 0) 4 false ∧
      FrameGood s (frame 5 5 [0, 0, 0x80, 0xFF] 0) 5 false ∧ FrameGood s (frame 5 0x42 [] 0) 0x42 false ∧ FrameGood s (frame 63 2 [0x6C] 0) 2 false) ∧
    ((frame 63 1 [1] 0).addr = 63 ∧ (frame 5 3 [] 0).addr ≠ 63 ∧ typeUndefined (frame 5 0x42 [] 0) 0x42 = true) := by
  unfold FrameGood; decide

/-- The frame rows with a frame each to chain address 5, or for ENUM to all. -/
def frameRows (bad : ChainFrame → ChainFrame) : List (Instr × ChainFrame × Nat × Bool) :=
  [(1, true, frame 63 1 [1] 0), (2, false, frame 5 2 [0x6C] 0), (3, false, frame 5 3 [] 0), (4, false, frame 5 4 [] 0), (5, false, frame 5 5 [0, 0, 0x80, 0xFF] 0),
   (0x42, false, frame 5 0x42 [] 0), (1, false, frame 5 1 [1] 0)].map (fun x =>
     let f := bad x.2.2
     ((if x.2.1 then .enumFrame f else if x.1 = 2 then .lineFrame f else if x.1 = 3 then .pollFrame f else if x.1 = 4 then .statusFrame f
       else if x.1 = 5 then .peekFrame f else .undefinedTypeFrame f (BitVec.ofNat 8 x.1)), f, x.1, x.2.1))

theorem witness_bad_frames :
    (∀ x ∈ frameRows id, FrameRow x.2.1 x.1 (BitVec.ofNat 8 x.2.2.1) x.2.2.2) ∧ (onChain [] false).power.vioOn = true ∧
    (∀ x ∈ frameRows (fun f => { f with crc := f.crc ^^^ 1 }), frameFate (onChain [] false) x.2.1 (BitVec.ofNat 8 x.2.2.1) x.2.2.2 = .badCrc) ∧
    (∀ x ∈ frameRows (fun f => { f with received := f.received - 1 }), frameFate (onChain [] false) x.2.1 (BitVec.ofNat 8 x.2.2.1) x.2.2.2 = .runt) ∧
    (∀ x ∈ frameRows (fun f => { f with len := 251 }), frameFate (onChain [] false) x.2.1 (BitVec.ofNat 8 x.2.2.1) x.2.2.2 = .ignored) := by
  unfold FrameRow; decide

theorem witness_empty_line :
    lineEmpty true (asciiBytes "*00") = true ∧ lineEmpty true (asciiBytes "  *00") = true ∧ lineEmpty true (asciiBytes "lock*08") = false ∧
    lineEmpty true (sliceBytes (frame 5 2 [0x6C] 0).payload 0 1) = false := by decide

theorem witness_poll_reply :
    replyWhole (frame 5 3 [] 7) 6 = true ∧ replyWhole (frame 5 3 [] 6) 6 = false ∧ (frame 5 3 [] 300).rest.length = 300 ∧
    coreOn (onChain [] false) = true ∧ (onChain [] false).power.scHalted = false ∧ (onChain [0x6F] false).mgmt.reply ≠ [] := by decide

/-- `started` with a PEEK of this address under way, its register access begun with this many cycles left, or not begun. -/
def peeking (addr : Nat) (acc : Option Nat) : State :=
  let a := acc.map (fun n => { newAcc 0 0 (scReq .read 0 0) .statusWord with left := n, waits := if n = 0 then 0 else 1 })
  { onChain [] false with mgmt := { (onChain [] false).mgmt with peekState := 2, peekAddr := addr, peekAcc := a } }

theorem witness_peek_done :
    (∀ x ∈ [none, some 0, some 1], (peeking 0xFF800000 x).mgmt.peekState = 2 ∧ coreOn (peeking 0xFF800000 x) = true ∧
      (peeking 0xFF800000 x).mgmt.peekAcc.any scDone = (x == some 0)) ∧
    (let s := peeking 0xFFA80000 none
     keyOf s.mgmt.peekAddr = 0x280000 ∧ keyOf (peeking 0xFF800000 none).mgmt.peekAddr = 0) ∧
    (let s := peeking 0xFF800000 none
     keyOf s.mgmt.peekAddr < 0x10000 ∧ decodeReg s (scReq .read (keyOf s.mgmt.peekAddr) 0) = none ∧
     regRetry s (scReq .read (keyOf s.mgmt.peekAddr) 0) = false) := by decide

/-- `started` with a line of a session at the front, at watch or keeper level, the keeper phrase "ABCDEFGH". -/
def lineIs (x : Session) (text : String) (keeper : Bool) : State :=
  let body := asciiBytes text
  let s := { started with mgmt := { started.mgmt with lines := [(x, 9999, if x = .chain then body ++ suffixOf body else body)], phrase := asciiBytes "ABCDEFGH" } }
  setSess s x { sessOf s x with keeper := keeper }

theorem witness_console :
    started.power.vioOn = true ∧ scRuns started = true ∧ coreOn started = true ∧ consoleHeld started < 256 ∧
    consoleHeld { started with mgmt := { started.mgmt with rx := List.replicate 200 0x61, lines := [(.console, 3, List.replicate 56 0x61)] } } = 256 ∧
    (let s := { started with mgmt := { started.mgmt with rx := [0x6C] } }
     lineEmpty s.mgmt.console.machine s.mgmt.rx = false ∧ s.mgmt.lines.all (fun l => l.2.1 != s.time) = true) := by decide

/-- Whether the line at the front of the queue names a row with these words, at the level the row asks for. -/
def names (s : State) (x : Session) (row : ShexaRow) (keeper : Bool) (ws : List String) : Bool :=
  match s.mgmt.lines with
  | (y, _, l) :: _ =>
    y == x && shexaMay s && (!keeper || (sessOf s x).keeper) &&
    (match lineRow (sessOf s x).machine l with
     | .ok r => r.1 == row && r.2 == ws.map asciiBytes
     | .error _ => false)
  | [] => false

/-- What `names` decides is `LineNames`. -/
theorem names_spec {s : State} {x : Session} {row : ShexaRow} {keeper : Bool} {ws : List String} (h : names s x row keeper ws = true) :
    LineNames s x row keeper (ws.map asciiBytes) := by
  unfold names at h
  split at h
  case h_2 => cases h
  case h_1 y at_ l rest hl =>
    simp only [Bool.and_eq_true, beq_iff_eq, Bool.or_eq_true, Bool.not_eq_true'] at h
    obtain ⟨⟨⟨hy, hr⟩, hk⟩, hm⟩ := h
    split at hm
    case h_2 => cases hm
    case h_1 r hok =>
      simp only [Bool.and_eq_true, beq_iff_eq] at hm
      refine ⟨⟨at_, l, rest, by rw [hl, hy], ?_⟩, hr, fun hkeep => ?_⟩
      · rw [hok, ← hm.1, ← hm.2]
      · rcases hk with hk | hk
        · rw [hkeep] at hk; cases hk
        · exact hk

/-- A line for each row, with its words; the flag says that the row asks for keeper level. -/
def rowLines : List (ShexaRow × Bool × String × List String) :=
  [(.help, false, "help", ["help"]), (.help, false, "help get", ["help", "get"]), (.show, false, "show id", ["show", "id"]),
   (.show, false, "show port p7", ["show", "port", "p7"]), (.get, false, "get 0xFF800000", ["get", "0xFF800000"]), (.get, false, "get MG_GRANT", ["get", "MG_GRANT"]),
   (.get, false, "get MG_GRANT.PRIV", ["get", "MG_GRANT.PRIV"]), (.set, true, "set 0x40 5", ["set", "0x40", "5"]),
   (.set, true, "set ARB_SHARE 5", ["set", "ARB_SHARE", "5"]), (.set, true, "set MG_GRANT.PRIV 3", ["set", "MG_GRANT.PRIV", "3"]),
   (.modeHuman, false, "mode human", ["mode", "human"]), (.modeMachine, false, "mode machine", ["mode", "machine"]),
   (.unlock, false, "unlock ABCDEFGH", ["unlock", "ABCDEFGH"]), (.unlock, false, "unlock abcdefgh", ["unlock", "abcdefgh"]), (.lock, false, "lock", ["lock"]),
   (.phrase, true, "phrase ABCDEFGH 12345678", ["phrase", "ABCDEFGH", "12345678"]), (.grantPriv, true, "grant p7 priv", ["grant", "p7", "priv"]),
   (.grantUnpriv, true, "grant p0 unpriv", ["grant", "p0", "unpriv"]), (.portEnable, true, "port p1 enable", ["port", "p1", "enable"]),
   (.portDisable, true, "port p1 disable", ["port", "p1", "disable"]), (.portReset, true, "port p1 reset", ["port", "p1", "reset"]),
   (.portRetrain, true, "port p1 retrain", ["port", "p1", "retrain"]), (.portSpare, true, "port p1 spare 7", ["port", "p1", "spare", "7"]),
   (.portUnspare, true, "port p1 unspare", ["port", "p1", "unspare"]), (.portRates, true, "port p1 rates 7", ["port", "p1", "rates", "7"]),
   (.bankRetire, true, "bank b63 retire", ["bank", "b63", "retire"]), (.bankRemap, true, "bank bs1 remap 65535", ["bank", "bs1", "remap", "65535"]),
   (.engineOffline, true, "engine e15 offline", ["engine", "e15", "offline"]), (.engineOnline, true, "engine e0 online", ["engine", "e0", "online"]),
   (.engineReset, true, "engine e0 reset", ["engine", "e0", "reset"]), (.engineTest, true, "engine e0 test", ["engine", "e0", "test"]),
   (.test, true, "test b0 preserving", ["test", "b0", "preserving"]), (.scrubOn, true, "scrub on", ["scrub", "on"]), (.scrubOff, true, "scrub off", ["scrub", "off"]),
   (.scrubPeriod, true, "scrub period 60", ["scrub", "period", "60"]), (.pairRole, true, "pair role primary", ["pair", "role", "primary"]),
   (.pairPorts, true, "pair ports 67", ["pair", "ports", "67"]), (.pairMirror, true, "pair mirror 255", ["pair", "mirror", "255"]),
   (.pairJoin, true, "pair join keep", ["pair", "join", "keep"]), (.pairPromote, true, "pair promote", ["pair", "promote"]), (.pairLeave, true, "pair leave", ["pair", "leave"]),
   (.recordStart, false, "record start", ["record", "start"]), (.recordCellar, false, "record cellar", ["record", "cellar"]),
   (.resetWarm, true, "reset warm confirm", ["reset", "warm", "confirm"]), (.resetPort, true, "reset port p2", ["reset", "port", "p2"]),
   (.consoleBaud, true, "console baud 3000000", ["console", "baud", "3000000"])]

theorem witness_lines_on_the_chain : ∀ r ∈ rowLines, names (lineIs .chain r.2.2.1 r.2.1) .chain r.1 r.2.1 r.2.2.2 = true := by decide

theorem witness_lines_on_the_console : ∀ r ∈ rowLines, names (lineIs .console r.2.2.1 r.2.1) .console r.1 r.2.1 r.2.2.2 = true := by decide

theorem witness_line_without_keeper_level :
    names (lineIs .chain "scrub on" false) .chain .scrubOn false ["scrub", "on"] = true ∧ (sessOf (lineIs .chain "scrub on" false) .chain).keeper = false := by
  decide

/-- The words of the first line of `rowLines` that names a row. -/
def lineOf (row : ShexaRow) : List (List Byte) := ((rowLines.find? (fun l => l.1 == row)).map (fun l => l.2.2.2.map asciiBytes)).getD []

theorem witness_setting_rows :
    ((fieldRows .chain).length + (wholeRows .chain).length + (bitRows .chain).length = 25) ∧
    (∀ r ∈ fieldRows .chain, (r.2.2 started (lineOf r.2.1)).isSome = true ∧ r.2.2 started (lineOf r.2.1 ++ [[0x39], [0x39]]) = none) ∧
    (∀ r ∈ wholeRows .chain, (r.2.2 started (lineOf r.2.1)).isSome = true ∧ r.2.2 started (lineOf r.2.1 ++ [[0x39]]) = none) ∧
    (∀ r ∈ bitRows .chain, (lineOf r.2.1).length = 3 ∧ (portArg started (word (lineOf r.2.1) 1)).isSome = true ∧ (lineOf r.2.1 ++ [[0x39]]).length ≠ 3) := by
  decide

/-- `lineIs` of an UNLOCK with the wrong phrase, after `n` of them. -/
def wrongPhrase (n : Nat) : State := setFields (lineIs .chain "unlock abcdefgh" false) [(R_MG_KEEPLOCK, MG_KEEPLOCK_FAILS, n)]

theorem witness_unlock :
    isPhrase (asciiBytes "ABCDEFGH") = true ∧ isPhrase (asciiBytes "abcdefgh") = true ∧ (wrongPhrase 4).mgmt.phrase = asciiBytes "ABCDEFGH" ∧
    asciiBytes "abcdefgh" ≠ asciiBytes "ABCDEFGH" ∧ rdB (wrongPhrase 4) R_MG_KEEPLOCK MG_KEEPLOCK_LOCKED = false ∧
    names (wrongPhrase 4) .chain .unlock false ["unlock", "abcdefgh"] = true ∧ rdF (wrongPhrase 4) R_MG_KEEPLOCK MG_KEEPLOCK_FAILS = 4 := by decide

/-- Whether an answer is a value of which a property holds. -/
def okIs {α : Type} (r : Except Nat α) (p : α → Bool) : Bool :=
  match r with
  | .ok x => p x
  | .error _ => false

theorem witness_sessions :
    (let s := { started with time := 900 * secondCycles, mgmt := { started.mgmt with chain := { started.mgmt.chain with keeper := true } } }
     scRuns s = true ∧ (sessOf s .chain).keeper = true ∧ (sessOf s .chain).lastCmd + 900 * secondCycles ≤ s.time) ∧
    (∀ n ∈ [1, 60], let s := setFields started [(R_MG_KEEPLOCK, MG_KEEPLOCK_LOCKED, 1), (R_MG_KEEPLOCK, MG_KEEPLOCK_LOCK_S, n)]
      coreOn s = true ∧ rdB s R_MG_KEEPLOCK MG_KEEPLOCK_LOCKED = true ∧ s.mgmt.nextTick ≤ s.time ∧ rdF s R_MG_KEEPLOCK MG_KEEPLOCK_LOCK_S = n) ∧
    okIs (lineRow false (asciiBytes "fly")) (fun _ => true) = false := by decide

/-- The SC may read the register at once, as a test. -/
def mayRead (s : State) (key : Nat) : Bool :=
  s.mgmt.scAcc.isNone && (decodeReg s (scReq .read key 0)).isNone && !regRetry s (scReq .read key 0) && !isIntcReq (scReq .read key 0) &&
  decide ((scReadNow s key).1 = .ok)

theorem scMayRead_of {s : State} {key : Nat} (h : mayRead s key = true) : ScMayRead s key ∧ (scReadNow s key).1 = .ok := by
  simp only [mayRead, Bool.and_eq_true, Bool.not_eq_true', Option.isNone_iff_eq_none, decide_eq_true_eq] at h
  exact ⟨⟨h.1.1.1.1, h.1.1.1.2, h.1.1.2, h.1.2⟩, h.2⟩

/-- The SC may write the value to the register, as a test. -/
def mayStoreReg (s : State) (key : Nat) (v : Word64) : Bool := s.mgmt.scAcc.isNone && mayWrite s (.registerWrite .sc (BitVec.ofNat 23 key) v)

/-- The line of a row as text, for a state with it at the front at keeper level. -/
def textOf (row : ShexaRow) : String := ((rowLines.find? (fun l => l.1 == row)).map (fun l => l.2.2.1)).getD ""

/-- The state in which a setting row runs. -/
def rowState (row : ShexaRow) : State := lineIs .chain (textOf row) true

theorem witness_field_rows :
    (fieldRows .chain).all (fun r => let s := rowState r.2.1
      (r.2.2 s (lineOf r.2.1)).any (fun x => (findRow x.1).any (fun f => mayRead s x.1 &&
        mayStoreReg (scReadNow s x.1).2.2 x.1 (x.2.foldl (fun w p => setF w p.1 p.2) (writeBack (scReadNow s x.1).2.1 f.fields ⟨0, 0⟩ 0))))) = true := by
  decide

theorem witness_whole_rows :
    (wholeRows .chain).all (fun r => let s := rowState r.2.1
      (r.2.2 s (lineOf r.2.1)).any (fun x => mayStoreReg s x.1 x.2)) = true ∧
    (∀ x ∈ [(R_PWR_RESET, (setF 0 PWR_RESET_PORT 2), Status.ok), (R_TST_ENG, setF (setF 0 TST_ENG_ENGINE 0) TST_ENG_GO 1, Status.range)],
      (scWriteNow started x.1 x.2.1).status = x.2.2) := by decide

theorem witness_bit_rows :
    (bitRows .chain).all (fun r => let s := rowState r.2.1
      mayRead s r.2.2.1 && mayStoreReg (scReadNow s r.2.2.1).2.2 r.2.2.1 ((scReadNow s r.2.2.1).2.1 ||| w64 1)) = true := by decide

theorem witness_accesses :
    startsDigit (asciiBytes "0xFF800000") = true ∧ okIs (cmdAddress (asciiBytes "0xFF800000")) (fun a => a == 0xFF800000) = true ∧
    startsDigit (asciiBytes "MG_GRANT") = false ∧ okIs (findTarget (asciiBytes "MG_GRANT")) (fun x => x.1 == R_MG_GRANT && x.2.2.isNone) = true ∧
    okIs (findTarget (asciiBytes "MG_GRANT.PRIV")) (fun x => x.1 == R_MG_GRANT &&
      x.2.2.any (fun f => f.access != .wo && f.access != .ro && (fieldArg (asciiBytes "3") f.fld.width).isSome)) = true ∧
    regPresent started.variant R_MG_GRANT = true ∧ mayRead started R_MG_GRANT = true ∧ mayStoreReg started R_MG_GRANT 3 = true ∧
    (scWriteNow started R_MG_GRANT 3).post = .none ∧ isIntcReq (scReq .write R_MG_GRANT 3) = false ∧
    (scWriteNow started R_MG_GRANT 3).state.mgmt.scAcc = (scOwn started (scReq .write R_MG_GRANT 3)).mgmt.scAcc ∧
    (scRead started R_MG_GRANT).1.any (fun x => x.1 == .ok) = true ∧ (scAccess started .read 0x40 0).1 = none ∧
    (scAccess started .write 0x40 5).1 = none ∧ readHasEffect started.variant (0xFF800000 + R_TGT_CLAIM 0) = true ∧
    readHasEffect .jz4x128 (0xFF800000 + R_TGT_CLAIM 16) = false ∧ spaceOf (0xFF800000 + R_MG_CONSOLE) = .reg ∧ keyOf (0xFF800000 + R_MG_CONSOLE) = R_MG_CONSOLE ∧ fieldArg (asciiBytes "5") 64 = some 5 := by decide

/-- The first line of a cellar area whose header gives this length, with the record's CRC if it ends there. -/
def areaRead (length : Nat) : List Byte :=
  let b := overlay (overlay (List.replicate 64 0) 0 (leBytes 4 0x524C4543)) 8 (leBytes 4 length)
  overlay b 12 (leBytes 4 (crc32c 0 b))

/-- A `record cellar` that has begun its first access, which has ended with this status and these bytes. -/
def areaAnswers (st : Status) (bs : List Byte) : State :=
  let s := after (.recordCellar .chain) (lineIs .chain "record cellar" false)
  { s with mgmt := { s.mgmt with scAcc := s.mgmt.scAcc.map (fun a => { a with left := 0, waits := 0, status := st, data0 := bs }) } }

theorem witness_record_cellar :
    cellarNeeds [] = 64 ∧ (scLine started (cellarBase started.variant)).1 = none ∧
    (∀ x ∈ [(List.replicate 64 0, false), (areaRead 64, true)], cellarNeeds x.1 ≤ x.1.length ∧ cellarHolds x.1 = x.2) ∧
    (let a := scLine (areaAnswers .ok (areaRead 128)) (cellarBase started.variant)
     a.1.any (fun x => x.1 == .ok && decide (leBytes 64 x.2 = areaRead 128)) = true ∧ a.2.mgmt.area = [] ∧ (areaRead 128).length < cellarNeeds (areaRead 128)) ∧
    (scLine (areaAnswers .poison []) (cellarBase started.variant)).1.any (fun x => x.1 == .poison) = true := by decide

theorem witness_records_and_resets :
    mayStoreReg started R_PWR_RESET (setF (setF 0 PWR_RESET_WARM 1) PWR_RESET_KEY 0x5741) = true ∧
    mayStoreReg started R_PWR_RESET (setF 0 PWR_RESET_PORT (2 ^ 2)) = true ∧ (portArg started (asciiBytes "p2")).any (fun p => p == 2) = true ∧
    okIs (resolveWord ["confirm"] (asciiBytes "confirm")) (fun i => i == 0) = true ∧
    (∀ n ∈ baudRates, mayStoreReg started R_MG_CONSOLE (setF (rd started R_MG_CONSOLE) MG_CONSOLE_BAUD (baudRates.idxOf n)) = true) ∧
    parseNum (asciiBytes "3000000") = some 3000000 ∧ (3000000 : Nat) ∈ baudRates ∧
    okIs (resolveWord showSubjects (asciiBytes "port")) (fun i => i == 5) = true ∧
    okIs (resolveWord showSubjects (asciiBytes "id")) (fun i => i == 0) = true ∧ (portArg started (asciiBytes "p7")).isSome = true := by decide

/-! ### Steps, answers and operands in general -/

theorem witness_step_keeps_invariant : Machine.Inv linked ∧ linked.pending.head? ≠ some .powerOn ∧ ∃ t, step linked = .next t :=
  ⟨by unfold Machine.Inv; decide, by decide, _, rfl⟩

theorem witness_stores_nothing : mayStore (.readReq (hdr 1 false) 0 8) = false ∧ ∃ t, exec (.readReq (hdr 1 false) 0 8) linked = .next t :=
  ⟨by decide, _, rfl⟩

/-- Two answers of a group: stored WRITEs of these lanes. -/
def storedWrites (m0 m1 : Nat) : List Answer :=
  let r (m : Nat) : BReq :=
    { uid := 0, half := 0, who := .port 0 1, op := .write, code := 2, addr := 0, len := 8, mask := BitVec.ofNat 64 m, data := List.replicate 8 0,
      opfmt := 0, tally := false, vat := none, vatGen := 0, vop := 0, vscale := 0, entered := 0, setAside := none, tag := 0 }
  [m0, m1].map (fun m => { req := r m, status := .ok, ce := false, sup := false, stored := true, data := [] })

/-- The first of two writes survives exactly when it enables a byte that the second leaves. -/
theorem witness_sup :
    (markSup (storedWrites 0x0F 0x1F)).map (fun a => a.sup) = [true, false] ∧
    (markSup (storedWrites 0x1F 0x0F)).map (fun a => a.sup) = [false, false] := by decide

theorem witness_atomic_operands : (2 ^ 64 - 1 < 2 ^ 64) ∧ atomicResult .fadd 8 255 1 0 = some 0 ∧ atomicResult .fmins 8 0x80 0x7F 0 = some 0x80 := by
  decide

/-! ### Ill-formed commands -/

theorem test_illformed_requests :
    wellFormed (.readReq (hdr 1 false) 0 0) = false ∧ wellFormed (.readReq (hdr 1 false) 0 65) = false ∧
    wellFormed (.writeReq (hdr 1 false) 0 8 0 [1]) = false ∧ wellFormed (.rdcvReq (hdr 1 false) 0 0) = false ∧
    wellFormed (.accReq (hdr 1 false) 0 64 8 false (List.replicate 64 0)) = false ∧
    wellFormed (.casReq (hdr 1 false) 0 8 (List.replicate 8 0)) = false ∧
    (∀ x ∈ [Instr.faddReq (hdr 1 false) 0 8 [], .fandReq (hdr 1 false) 0 8 [], .forReq (hdr 1 false) 0 8 [], .fxorReq (hdr 1 false) 0 8 [],
      .swapReq (hdr 1 false) 0 8 [], .fminsReq (hdr 1 false) 0 8 [], .fminuReq (hdr 1 false) 0 8 [], .fmaxsReq (hdr 1 false) 0 8 [],
      .fmaxuReq (hdr 1 false) 0 8 []], wellFormed x = false) := by decide

theorem test_illformed_runs :
    wellFormed (.readRun (hdr 1 false) 0 64 0) = false ∧ wellFormed (.readRun (hdr 1 false) 0 64 17) = false ∧
    wellFormed (.readRun (hdr 1 false) 0 63 1) = false ∧ wellFormed (.writeRun (hdr 1 false) 0 64 2 (List.replicate 64 0)) = false := by decide

theorem test_illformed_numbers :
    wellFormed (.registerWrite .sc 4 0) = false ∧ wellFormed (.setPend .sc 4132 0) = false ∧ wellFormed (.pendingClear .sc 4132 0) = false ∧
    wellFormed (.targetWrite .sc 4132 0) = false ∧ wellFormed (.tgtClaim .sc 36) = false ∧ wellFormed (.tgtEoi .sc 36 0) = false ∧
    wellFormed (.asleepWrite .sc 36 0) = false ∧ wellFormed (.fatalError 0 0) = false ∧ wellFormed (.fatalError 5 0) = false := by decide

theorem test_illformed_link :
    wellFormed (.flitReceive 0 []) = false ∧ wellFormed (.flitReceive 0 (List.replicate 9 [1])) = false ∧ wellFormed (.flitReceive 0 (symbolsOf zeroFlit)) = true ∧
    wellFormed (.emfUpdate 0 9 (observed 0)) = false ∧ wellFormed (.emfUpdate 0 0 { observed 0 with eyes := (eyes 0).take 2 }) = false ∧
    wellFormed (.emfUpdate 0 0 { observed 0 with eyes := [⟨1, 0⟩] }) = false ∧ wellFormed (.readaptTimeout 0 9) = false ∧
    wellFormed (.markerMissing 0 9) = false ∧ wellFormed (.trainingBlock 0 0 laneReport [0]) = false ∧
    wellFormed (.trainingBlock 0 9 laneReport (block 1 0 7 true)) = false ∧
    wellFormed (.trainingBlock 0 0 { laneReport with eyes := [] } (block 1 0 7 true)) = false ∧ wellFormed (.minClear .sc 0 9 0) = false ∧
    wellFormed (.lossOfLock 0 9) = false ∧
    (∀ x ∈ [Instr.eiReq ⟨0, [0]⟩, .eiAck ⟨0, [0]⟩, .eiNak ⟨0, [0]⟩, .retrainReq ⟨0, [0]⟩], wellFormed x = false) := by decide

theorem test_illformed_units :
    wellFormed (.linesUnit 0 0 0 3 (List.replicate 64 0)) = false ∧ wellFormed (.mbxUnit 0 0 0 1 false []) = false ∧
    wellFormed (.vatUnit 0 0 0 []) = false ∧ wellFormed (.healData 0 0 0 false [1]) = false ∧ wellFormed (.healData 0 0 0 true []) = false := by
  decide

theorem test_illformed_frames :
    (∀ f ∈ [(⟨1, 251, List.replicate 251 0, 0, [0], 257⟩ : ChainFrame), ⟨1, 2, [0], 0, [], 7⟩, ⟨1, 0, [], 0, [], 6⟩],
      wellFormed (.enumFrame f) = false ∧ wellFormed (.lineFrame f) = false ∧ wellFormed (.pollFrame f) = false ∧
      wellFormed (.statusFrame f) = false ∧ wellFormed (.peekFrame f) = false ∧ wellFormed (.undefinedTypeFrame f 9) = false) ∧
    wellFormed (.pollFrame ⟨1, 0, [], 0, [], 5⟩) = true := by decide

/-! ### Addresses (02_address_map, the address 0x0812_3440 on each variant) -/

theorem test_address_jz8x256 :
    arrayPresent .jz8x256 0x08123440 = true ∧ bankIndex .jz8x256 0x08123440 = 36 ∧ bankLine .jz8x256 0x08123440 * 64 = 0x24640 ∧
    lineAddr .jz8x256 36 (bankLine .jz8x256 0x08123440) = 0x08123440 ∧ arrayPresent .jz8x256 0x09123440 = true ∧
    bankIndex .jz8x256 0x09123440 = 36 := by decide

theorem test_address_other_variants :
    arrayPresent .jz8x128 0x08123440 = true ∧ bankIndex .jz8x128 0x08123440 = 32 ∧ bankLine .jz8x128 0x08123440 * 64 = 0x48D40 ∧
    arrayPresent .jz4x128 0x08123440 = false ∧ arrayPresent .jz8x128 0x09123440 = false := by decide

/-- A read of `len` bytes that arrives on port `p`. -/
def readFrom (p : BitVec 3) (addr len : Nat) : Req :=
  memberReq { port := p, slot := 2, tag := 1, ord := false, mgmt := false } 1 addr len 0 0 false [] .read 0

/-- The status that a register request is refused with (02_address_map, the driver at (P5, 2)). -/
theorem test_register_views :
    R_SRC_ENTRY 2816 = 0x205800 ∧ R_TGT_CTL 22 = 0x211600 ∧ decodeReg started (readFrom 5 0xFF211600 8) = none ∧
    decodeReg started (readFrom 3 0xFF211600 8) = some .absent ∧ decodeReg started (readFrom 3 0xFFA11600 8) = some .denied ∧
    decodeReg started (readFrom 5 0xFF211600 4) = some .misalign ∧
    decodeReg { started with variant := .jz4x128 } (readFrom 0 0xFF211600 8) = some .absent := by decide

/-! ### Plain accesses (03_array_access) -/

theorem test_split_write :
    halvesOf { readFrom 0 0x081234FA 16 with op := .write, mask := 0xFFC0, data := leBytes 16 0 } =
      [(0, 0x081234FA, 6, 0xFFC0, List.replicate 6 0), (1, 0x08123500, 10, 0x3FF, List.replicate 10 0)] ∧
    bankIndex .jz8x256 0x081234FA = 36 ∧ bankIndex .jz8x256 0x08123500 = 37 := by decide

/-- Arbitration at B36 with E3 of weight 2, in a cycle, from a service pointer, with P4, P1 and E3 presenting. -/
def atB36 (cycle ptr : Nat) : Option Nat × Nat :=
  arbitrate (setBank { started with time := cycle, power := { started.power with weightEff := setF 0 ⟨6, 2⟩ 1 } } 36 { bankReset with ptr := ptr })
    36 (fun i => i == 4 || i == 1 || i == 11) (fun i => i == 4 || i == 1 || i == 11)

/-- The table "Slot allocation at B36, 50 % home share": E3 stands twice in the rotation list, at 10 and 11. -/
theorem test_slot_allocation :
    atB36 0 0 = (some 4, 0) ∧ atB36 1 0 = (some 1, 2) ∧ atB36 2 2 = (some 4, 2) ∧ atB36 3 2 = (some 11, 11) ∧ atB36 4 11 = (some 4, 11) ∧
    atB36 5 11 = (some 11, 12) ∧ atB36 6 12 = (some 4, 12) ∧ atB36 7 12 = (some 1, 2) := by decide

/-! ### Semaphores (04_atomics_semaphores, a lock guarding a shared record) -/

theorem test_try_word :
    takenWord 0x11 (.port 2 0) = 0xA000000000000012 ∧ releasedWord 0xA000000000000012 = 0x2000000000000012 ∧
    takenWord 0x11 (.port 5 2) = 0xD800000000000012 := by decide

/-! ### Accumulate (05_vats_accumulate, three operands in FW128 with S = −60) -/

/-- The operands 1.0, 2^53 and 10^−20 as binary64. -/
theorem test_fw128_window :
    fwConvert (-60) 0x3FF0000000000000 = 2 ^ 60 ∧ fwConvert (-60) 0x4340000000000000 = 2 ^ 113 ∧ fwConvert (-60) 0xC340000000000000 = -2 ^ 113 ∧
    fwLossy (-60) 0x4340000000000000 = false ∧ fwConvert (-60) 0x3BC79CA10C924223 = 0 ∧ fwLossy (-60) 0x3BC79CA10C924223 = true ∧
    fwConvert (-60) 0xBBC79CA10C924223 = -1 ∧ fwLossy (-60) 0xBBC79CA10C924223 = true := by decide

/-! ### Codes (07_rack_engines, 10_data_integrity, 13_derzalet_link, 16_management) -/

theorem test_codeword_check : (encodeCw 1).check = 0x495C9 ∧ (poisonCw 1).check.toNat % 2 ^ 18 = 0x097D8 := by decide

theorem test_two_positions_corrected :
    (decodeCw (flipPos (flipPos ⟨0, 0⟩ 0) 9)).outcome = .corrected ∧ (decodeCw (flipPos (flipPos ⟨0, 0⟩ 0) 9)).pos = [0, 9] ∧
    (decodeCw (flipPos (flipPos ⟨0, 0⟩ 0) 9)).s1 = 0x010 ∧ (decodeCw (flipPos (flipPos ⟨0, 0⟩ 0) 9)).s3 = 0x198 := by decide

/-- The residues over "123456789". -/
theorem test_crcs :
    crc64 (asciiBytes "123456789") = 0x995DC9BBDF1939FA ∧ crc16 (asciiBytes "123456789") = 0x29B1 ∧
    crc32c 0 (asciiBytes "123456789") = 0xE3069283 := by decide

/-! ### Matching (08_matching, receive b: K = 10, source 3, tag 7) -/

theorem test_match_bucket : mcHash 10 0x0000000300000007 = 483 := by decide

/-! ### The link (13_derzalet_link, the ACC from (P3, 2) with tag 0x2A5) -/

/-- The header of the ACC. -/
def accHeader : List Byte := [0x20, 0x40, 0xA5, 0xE2, 0xC0, 0x1F, 0x00, 0x06, 0x08, 0, 0, 0, 0, 0, 0, 0]

/-- `linked`, with port 3 in place of port 0. -/
def linked3 : State :=
  setLink (setFields started [(R_LPH_STAT 3, LPH_STAT_STATE, 5), (R_PT_STAT 3, PT_STAT_SESSION, 1), (R_PT_STAT 3, PT_STAT_CREDITED, 1)])
    3 { linkReset with partnerSize := [64, 64, 64, 64] }

theorem test_acc_header :
    requestSlots accHeader = some 3 ∧
    (takeRequest linked3 3 (accHeader ++ List.replicate 32 1)).txns.map
      (fun t => decide (t.req.who = .port 3 2 ∧ t.req.tag = 0x2A5 ∧ t.req.ord = true ∧ t.req.code = 0x20 ∧ t.req.addr = 0x06001FC0 ∧
        t.req.len = 64 ∧ t.req.opfmt = 8 ∧ t.req.tally = true)) = [true] := by decide

theorem test_response_entry :
    (takeRequest linked3 3 (accHeader ++ List.replicate 32 1)).txns.map (fun t => (responseUnit { t with status := .ok }).take 4) =
      [[0x81, 0xA5, 0x22, 0x00]] := by decide

/-! ### Management (16_management) -/

/-- ENUM with token 1, with its CRC. -/
def enumOne : ChainFrame := { addr := 0x3F, len := 1, payload := [1], crc := BitVec.ofNat 16 (crc16 [0x3F, 1, 1, 1]), rest := [0, 0, 0], received := 9 }

theorem test_enum_takes_address :
    rdF (after (.enumFrame enumOne) started) R_MG_CHAINADDR MG_CHAINADDR_ADDRESS = 1 ∧
    (after (.enumFrame enumOne) started).out.any (fun o => match o with
      | .frame bs => bs.take 4 == [0x3F, 1, 1, 2] && crc16 (bs.take 6) == 0
      | _ => false) = true := by decide

theorem test_line_suffix :
    suffixOf (asciiBytes "get pwr_devstat") = asciiBytes "*19" ∧ suffixOf (asciiBytes "ok 0x0000_0000_0000_0008") = asciiBytes "*3B" ∧
    hexText 8 = asciiBytes "0x0000_0000_0000_0008" := by decide

/-! ### Steps of the queue -/

/-- An empty queue runs a core cycle, a command at the front is taken and run. -/
theorem test_step :
    (match step started with | .next t => decide (t.time = 10001) | _ => false) = true ∧
    (match step { started with pending := [.bankSlot 0, .powerOn] } with | .next t => decide (t.pending = [.powerOn]) | _ => false) = true := by
  decide

/-- A sampled READ of an absent register was refused at decode: DEST 4 (R411). -/
theorem test_sampler_destination :
    (after (.readReq (hdr 1 false) 0xFF800000 4) (setFields linked [(R_SMP_CTL, SMP_CTL_ENABLE, 1), (R_SMP_CTL, SMP_CTL_K, 0)])).txns.map
      (fun t => t.sample.map (fun m => (m.t1, m.dest, m.d3))) = [some (10000, 4, 0xFFFFFFFF)] := by decide

end Sys2Proof.Tests
end

section
/-! SUPPORT. What a step can do to the fields that `Keeps` speaks of: the meaning of every command and the core cycle answer a next state
with the variant and the queue as before, device time as given here, and every property of the memory that survives changes of bytes. -/

namespace Sys2Proof.Machine

/-! ### Every command -/

/-- Device time after a command: POWER_ON of a device that is off begins it anew (R22), any other command leaves it where it is. -/
def timeAfter : Instr → State → Nat
  | .powerOn, s => if s.power.clock = .none then 0 else s.time
  | _, s => s.time

theorem Keeps.withTime {M : List Host.Cell → Prop} {z₀ s : State} (k : Keeps M z₀ s) (n : Nat) :
    Keeps M { z₀ with time := n } { s with time := n } := by
  obtain ⟨hvariant, -, hpending, hcells⟩ := k
  exact ⟨hvariant, Eq.refl n, hpending, hcells⟩

theorem Keeps.later {M : List Host.Cell → Prop} {z₀ s : State} (k : Keeps M z₀ s) (n : Nat) :
    Keeps M { z₀ with time := z₀.time + n } { s with time := s.time + n } := by
  obtain ⟨hvariant, htime, hpending, hcells⟩ := k
  exact ⟨hvariant, congrArg (· + n) htime, hpending, hcells⟩

/-- The one command that sets device time: it does so only with the device off. -/
theorem execPowerOn_answers {M : CellProp} (s : State) (k : Keeps M.holds s s) :
    Answers M.holds { s with time := timeAfter .powerOn s } (execPowerOn s) := by
  unfold execPowerOn timeAfter
  by_cases off : s.power.clock = .none
  · simp only [off, if_true]
    have anew : Keeps M.holds { s with time := 0 } { s with time := 0, power := { s.power with clock := .pll, vdd := .good, vioOn := true } } :=
      k.withTime 0
    apply answers_next
    apply keeps_mk
    exact deviceReset_keeps _ _ anew
  · simp only [off, if_false]
    exact answers_next k

/-- Every command answers a next state: the variant, the queue and device time are as stated, the memory keeps its property. -/
theorem exec_answers {M : CellProp} (i : Instr) (s : State) (k : Keeps M.holds s s) :
    Answers M.holds { s with time := timeAfter i s } (exec i s) :=
  match i with
  | .readReq h addr len => execReadReq_keeps h addr len s k
  | .writeReq h addr len mask data => execWriteReq_keeps h addr len mask data s k
  | .readRun h addr len run => execReadRun_keeps h addr len run s k
  | .writeRun h addr len run data => execWriteRun_keeps h addr len run data s k
  | .faddReq h addr len data => execFaddReq_keeps h addr len data s k
  | .fandReq h addr len data => execFandReq_keeps h addr len data s k
  | .forReq h addr len data => execForReq_keeps h addr len data s k
  | .fxorReq h addr len data => execFxorReq_keeps h addr len data s k
  | .swapReq h addr len data => execSwapReq_keeps h addr len data s k
  | .casReq h addr len data => execCasReq_keeps h addr len data s k
  | .fminsReq h addr len data => execFminsReq_keeps h addr len data s k
  | .fminuReq h addr len data => execFminuReq_keeps h addr len data s k
  | .fmaxsReq h addr len data => execFmaxsReq_keeps h addr len data s k
  | .fmaxuReq h addr len data => execFmaxuReq_keeps h addr len data s k
  | .accReq h addr len opfmt tally data => execAccReq_keeps h addr len opfmt tally data s k
  | .rdcvReq h addr len => execRdcvReq_keeps h addr len s k
  | .fenceReq h => execFenceReq_keeps h s k
  | .malformedUnit port => execMalformedUnit_keeps port s k
  | .orderedRelease port slot => execOrderedRelease_keeps port slot s k
  | .bankSlot bank => execBankSlot_keeps bank s k
  | .arbitrationSettingApply => execArbitrationSettingApply_keeps s k
  | .tallyStep => execTallyStep_keeps s k
  | .semTry => execSemTry_keeps s k
  | .semRelease => execSemRelease_keeps s k
  | .semTicket => execSemTicket_keeps s k
  | .semServe => execSemServe_keeps s k
  | .semPeek => execSemPeek_keeps s k
  | .stateWrite => execStateWrite_keeps s k
  | .notifyRead => execNotifyRead_keeps s k
  | .notifyWrite => execNotifyWrite_keeps s k
  | .semClear by_ v => execSemClear_keeps by_ v s k
  | .semClearStep => execSemClearStep_keeps s k
  | .semStatClear by_ v => execSemStatClear_keeps by_ v s k
  | .payloadWrite => execPayloadWrite_keeps s k
  | .mailboxRead => execMailboxRead_keeps s k
  | .doorbell => execDoorbell_keeps s k
  | .mailboxClaim => execMailboxClaim_keeps s k
  | .bindingWrite => execBindingWrite_keeps s k
  | .mailboxCommit => execMailboxCommit_keeps s k
  | .mbxClear by_ v => execMbxClear_keeps by_ v s k
  | .mbxClearStep => execMbxClearStep_keeps s k
  | .mbxStatClear by_ v => execMbxStatClear_keeps by_ v s k
  | .arbStatClear by_ v => execArbStatClear_keeps by_ v s k
  | .vatCtlWrite by_ vat v => execVatCtlWrite_keeps by_ vat v s k
  | .vatRearm by_ vat v => execVatRearm_keeps by_ vat v s k
  | .vatStatClear by_ vat v => execVatStatClear_keeps by_ vat v s k
  | .registerWrite by_ key v => execRegisterWrite_keeps by_ key v s k
  | .responseSend port mgmt => execResponseSend_keeps port mgmt s k
  | .engineIssue e => execEngineIssue_keeps e s k
  | .nopDesc e q => execNopDesc_keeps e q s k
  | .copyDesc e q => execCopyDesc_keeps e q s k
  | .fillDesc e q => execFillDesc_keeps e q s k
  | .gatherDesc e q => execGatherDesc_keeps e q s k
  | .scatterDesc e q => execScatterDesc_keeps e q s k
  | .accumDesc e q => execAccumDesc_keeps e q s k
  | .crcDesc e q => execCrcDesc_keeps e q s k
  | .compareDesc e q => execCompareDesc_keeps e q s k
  | .semaTry e q => execSemaTry_keeps e q s k
  | .semaRelease e q => execSemaRelease_keeps e q s k
  | .semaTicket e q => execSemaTicket_keeps e q s k
  | .semaServe e q => execSemaServe_keeps e q s k
  | .semaPeek e q => execSemaPeek_keeps e q s k
  | .semaNotify e q => execSemaNotify_keeps e q s k
  | .postDesc e q => execPostDesc_keeps e q s k
  | .waitTally e q => execWaitTally_keeps e q s k
  | .waitCompletions e q => execWaitCompletions_keeps e q s k
  | .waitFree e q => execWaitFree_keeps e q s k
  | .waitTake e q => execWaitTake_keeps e q s k
  | .waitReevaluate e q => execWaitReevaluate_keeps e q s k
  | .waitTimeout e q => execWaitTimeout_keeps e q s k
  | .pushDesc e q => execPushDesc_keeps e q s k
  | .descriptorFence e q => execDescriptorFence_keeps e q s k
  | .matchArrive e q => execMatchArrive_keeps e q s k
  | .matchPost e q => execMatchPost_keeps e q s k
  | .matchProbe e q => execMatchProbe_keeps e q s k
  | .matchCancel e q => execMatchCancel_keeps e q s k
  | .accessReissue e q => execAccessReissue_keeps e q s k
  | .descriptorRetire e q => execDescriptorRetire_keeps e q s k
  | .qTailWrite by_ e q v => execQTailWrite_keeps by_ e q v s k
  | .qCfgWrite by_ e q v => execQCfgWrite_keeps by_ e q v s k
  | .stopQueue by_ e q v => execStopQueue_keeps by_ e q v s k
  | .goQueue by_ e q v => execGoQueue_keeps by_ e q v s k
  | .resumeRetry by_ e q v => execResumeRetry_keeps by_ e q v s k
  | .resumeSkip by_ e q v => execResumeSkip_keeps by_ e q v s k
  | .offlineWrite by_ e v => execOfflineWrite_keeps by_ e v s k
  | .engineOfflineDone e => execEngineOfflineDone_keeps e s k
  | .engineReset by_ e v => execEngineReset_keeps by_ e v s k
  | .rackCopyLine e => execRackCopyLine_keeps e s k
  | .mcCtlWrite by_ ctx v => execMcCtlWrite_keeps by_ ctx v s k
  | .mcStatClear by_ v => execMcStatClear_keeps by_ v s k
  | .intcCycle => execIntcCycle_keeps s k
  | .setPend by_ src v => execSetPend_keeps by_ src v s k
  | .pendingClear by_ src v => execPendingClear_keeps by_ src v s k
  | .targetWrite by_ src v => execTargetWrite_keeps by_ src v s k
  | .tgtClaim by_ t => execTgtClaim_keeps by_ t s k
  | .tgtEoi by_ t v => execTgtEoi_keeps by_ t v s k
  | .asleepWrite by_ t v => execAsleepWrite_keeps by_ t v s k
  | .messageSend port => execMessageSend_keeps port s k
  | .scrubVisit => execScrubVisit_keeps s k
  | .logWrite => execLogWrite_keeps s k
  | .remapCopy => execRemapCopy_keeps s k
  | .logClear by_ v => execLogClear_keeps by_ v s k
  | .intStatClear by_ v => execIntStatClear_keeps by_ v s k
  | .intInjectWrite by_ v => execIntInjectWrite_keeps by_ v s k
  | .bgGroupBegin bank => execBgGroupBegin_keeps bank s k
  | .holdTimeout bank => execHoldTimeout_keeps bank s k
  | .tstCmdStart by_ v => execTstCmdStart_keeps by_ v s k
  | .foregroundTestEnd => execForegroundTestEnd_keeps s k
  | .abortTest by_ v => execAbortTest_keeps by_ v s k
  | .tstStatClear by_ v => execTstStatClear_keeps by_ v s k
  | .rmpCmdGo by_ v => execRmpCmdGo_keeps by_ v s k
  | .retCmdStart by_ v => execRetCmdStart_keeps by_ v s k
  | .tstEngGo by_ v => execTstEngGo_keeps by_ v s k
  | .engineSelftestEnd e passed => execEngineSelftestEnd_keeps e passed s k
  | .flitReceive port symbols => execFlitReceive_keeps port symbols s k
  | .nakTimeout port => execNakTimeout_keeps port s k
  | .ackTimeout port => execAckTimeout_keeps port s k
  | .flitSend port => execFlitSend_keeps port s k
  | .replayFlits port => execReplayFlits_keeps port s k
  | .ptStatClear by_ p v => execPtStatClear_keeps by_ p v s k
  | .emfUpdate port lane rx => execEmfUpdate_keeps port lane rx s k
  | .readaptTimeout port lane => execReadaptTimeout_keeps port lane s k
  | .markerMissing port lane => execMarkerMissing_keeps port lane s k
  | .eiIdleTimeout port => execEiIdleTimeout_keeps port s k
  | .eiReq marker => execEiReq_keeps marker s k
  | .eiAck marker => execEiAck_keeps marker s k
  | .eiNak marker => execEiNak_keeps marker s k
  | .eiExit port => execEiExit_keeps port s k
  | .wakeBurst port => execWakeBurst_keeps port s k
  | .eiExitTimeout port => execEiExitTimeout_keeps port s k
  | .retrainReq marker => execRetrainReq_keeps marker s k
  | .retrainTimeout port => execRetrainTimeout_keeps port s k
  | .trainingBlock port lane rx block => execTrainingBlock_keeps port lane rx block s k
  | .trainingTimeout port => execTrainingTimeout_keeps port s k
  | .signalLoss port => execSignalLoss_keeps port s k
  | .downBackoffEnd port => execDownBackoffEnd_keeps port s k
  | .unansweredBackoffEnd port => execUnansweredBackoffEnd_keeps port s k
  | .lphRetrain by_ p v => execLphRetrain_keeps by_ p v s k
  | .spareNowWrite by_ p v => execSpareNowWrite_keeps by_ p v s k
  | .unspareWrite by_ p v => execUnspareWrite_keeps by_ p v s k
  | .loopWrite by_ p v => execLoopWrite_keeps by_ p v s k
  | .minClear by_ p lane v => execMinClear_keeps by_ p lane v s k
  | .lnStatClear by_ v => execLnStatClear_keeps by_ v s k
  | .linesUnit port utag base lmask data => execLinesUnit_keeps port utag base lmask data s k
  | .semUnit port utag n state binding => execSemUnit_keeps port utag n state binding s k
  | .mbxUnit port utag n parts isOpen data => execMbxUnit_keeps port utag n parts isOpen data s k
  | .vatUnit port utag n data => execVatUnit_keeps port utag n data s k
  | .acceptUnit port utags => execAcceptUnit_keeps port utags s k
  | .helloUnit port f => execHelloUnit_keeps port f s k
  | .helloSend => execHelloSend_keeps s k
  | .pairPortLoss port => execPairPortLoss_keeps port s k
  | .promoteWrite by_ v => execPromoteWrite_keeps by_ v s k
  | .autoPromote => execAutoPromote_keeps s k
  | .joinWrite by_ v => execJoinWrite_keeps by_ v s k
  | .leaveWrite by_ v => execLeaveWrite_keeps by_ v s k
  | .syncCopy => execSyncCopy_keeps s k
  | .healReq port utag addr => execHealReq_keeps port utag addr s k
  | .healData port utag addr good data => execHealData_keeps port utag addr good data s k
  | .pwrRegionWrite by_ v => execPwrRegionWrite_keeps by_ v s k
  | .retainWakeDone region => execRetainWakeDone_keeps region s k
  | .retainIdleTimeout region => execRetainIdleTimeout_keeps region s k
  | .offWakeDone region => execOffWakeDone_keeps region s k
  | .devStateWrite by_ v => execDevStateWrite_keeps by_ v s k
  | .holdEntry mv => execHoldEntry_keeps mv s k
  | .holdEnd minMv => execHoldEnd_keeps minMv s k
  | .brownoutReset => execBrownoutReset_keeps s k
  | .powerOn => execPowerOn_answers s k
  | .railFail vio => execRailFail_keeps vio s k
  | .pinReset => execPinReset_keeps s k
  | .warmReset by_ v => execWarmReset_keeps by_ v s k
  | .portReset by_ v => execPortReset_keeps by_ v s k
  | .startStep rep => execStartStep_keeps rep s k
  | .s8Timeout => execS8Timeout_keeps s k
  | .s9Timeout => execS9Timeout_keeps s k
  | .refclkLoss => execRefclkLoss_keeps s k
  | .refclkReturn => execRefclkReturn_keeps s k
  | .scHalt => execScHalt_keeps s k
  | .fatalError cause detail => execFatalError_keeps cause detail s k
  | .cellarRecordDone => execCellarRecordDone_keeps s k
  | .fatalWatchdog => execFatalWatchdog_keeps s k
  | .enumFrame f => execEnumFrame_keeps f s k
  | .lineFrame f => execLineFrame_keeps f s k
  | .pollFrame f => execPollFrame_keeps f s k
  | .statusFrame f => execStatusFrame_keeps f s k
  | .peekFrame f => execPeekFrame_keeps f s k
  | .peekDone => execPeekDone_keeps s k
  | .consoleCharacter c => execConsoleCharacter_keeps c s k
  | .consoleBreak => execConsoleBreak_keeps s k
  | .helpCmd sess => execHelpCmd_keeps sess s k
  | .showCmd sess => execShowCmd_keeps sess s k
  | .getCmd sess => execGetCmd_keeps sess s k
  | .setCmd sess => execSetCmd_keeps sess s k
  | .modeHuman sess => execModeHuman_keeps sess s k
  | .modeMachine sess => execModeMachine_keeps sess s k
  | .unlockCmd sess => execUnlockCmd_keeps sess s k
  | .lockCmd sess => execLockCmd_keeps sess s k
  | .phraseCmd sess => execPhraseCmd_keeps sess s k
  | .grantPriv sess => execGrantPriv_keeps sess s k
  | .grantUnpriv sess => execGrantUnpriv_keeps sess s k
  | .portEnable sess => execPortEnable_keeps sess s k
  | .portDisable sess => execPortDisable_keeps sess s k
  | .portResetCommand sess => execPortResetCommand_keeps sess s k
  | .portRetrain sess => execPortRetrain_keeps sess s k
  | .portSpare sess => execPortSpare_keeps sess s k
  | .portUnspare sess => execPortUnspare_keeps sess s k
  | .portRates sess => execPortRates_keeps sess s k
  | .bankRetire sess => execBankRetire_keeps sess s k
  | .bankRemap sess => execBankRemap_keeps sess s k
  | .engineOffline sess => execEngineOffline_keeps sess s k
  | .engineOnline sess => execEngineOnline_keeps sess s k
  | .engineResetCommand sess => execEngineResetCommand_keeps sess s k
  | .engineTest sess => execEngineTest_keeps sess s k
  | .testCmd sess => execTestCmd_keeps sess s k
  | .scrubOn sess => execScrubOn_keeps sess s k
  | .scrubOff sess => execScrubOff_keeps sess s k
  | .scrubPeriod sess => execScrubPeriod_keeps sess s k
  | .pairRole sess => execPairRole_keeps sess s k
  | .pairPorts sess => execPairPorts_keeps sess s k
  | .pairMirror sess => execPairMirror_keeps sess s k
  | .pairJoin sess => execPairJoin_keeps sess s k
  | .pairPromote sess => execPairPromote_keeps sess s k
  | .pairLeave sess => execPairLeave_keeps sess s k
  | .recordStart sess => execRecordStart_keeps sess s k
  | .recordCellar sess => execRecordCellar_keeps sess s k
  | .resetWarm sess => execResetWarm_keeps sess s k
  | .resetPort sess => execResetPort_keeps sess s k
  | .consoleBaud sess => execConsoleBaud_keeps sess s k
  | .keeperTimeout sess => execKeeperTimeout_keeps sess s k
  | .lockoutTick => execLockoutTick_keeps s k
  | .mgStatClear by_ v => execMgStatClear_keeps by_ v s k
  | .pcCfgWrite by_ n v => execPcCfgWrite_keeps by_ n v s k
  | .freezeCounters by_ v => execFreezeCounters_keeps by_ v s k
  | .clearAll by_ v => execClearAll_keeps by_ v s k
  | .smpCtlWrite by_ v => execSmpCtlWrite_keeps by_ v s k
  | .smpClear by_ v => execSmpClear_keeps by_ v s k
  | .smpIdxWrite by_ v => execSmpIdxWrite_keeps by_ v s k
  | .trIdxWrite by_ v => execTrIdxWrite_keeps by_ v s k
  | .trClear by_ v => execTrClear_keeps by_ v s k
  | .celCtlWrite by_ v => execCelCtlWrite_keeps by_ v s k
  | .resetNRise => execResetNRise_keeps s k
  | .undefinedTypeFrame f typ => execUndefinedTypeFrame_keeps f typ s k
  | .unknownCommand sess => execUnknownCommand_keeps sess s k
  | .lossOfLock port lane => execLossOfLock_keeps port lane s k
  | .retainEntryDone region => execRetainEntryDone_keeps region s k
  | .s4Timeout => execS4Timeout_keeps s k
  | .spareTestPassBegin spare => execSpareTestPassBegin_keeps spare s k
  | .scRepairPolicy bank => execScRepairPolicy_keeps bank s k

/-! ### The core cycle -/

/-- Device time that a core cycle takes from each clock (R431). -/
def cycleTime : CoreClock → Nat
  | .pll => 1
  | .oscillator => 4
  | .stopped => 0
  | .none => 0

theorem oscillatorStop_keeps {M : List Host.Cell → Prop} {z₀ : State} (s : State) (k : Keeps M z₀ s) : Keeps M z₀ (oscillatorStop s) := by
  unfold oscillatorStop
  split
  · apply wrB_keeps
    apply keepSnap_keeps
    apply keeps_mk
    exact k
  · exact k

theorem endCycle_keeps {M : CellProp} {z₀ : State} (s : State) (n : Nat) (k : Keeps M.holds z₀ s) :
    Keeps M.holds { z₀ with time := z₀.time + n } (endCycle s n) := by
  have worked : Keeps M.holds z₀ (countCycle (cycleEvents (ringCycle (ownWork s)))) :=
    countCycle_keeps _ (cycleEvents_keeps _ (ringCycle_keeps _ (ownWork_keeps _ k)))
  unfold endCycle
  exact worked.later n

/-- A core cycle leaves the variant and the queue alone and takes device time on by the cycle's length. -/
theorem tick_keeps {M : CellProp} (s : State) (k : Keeps M.holds s s) :
    Keeps M.holds { s with time := s.time + cycleTime s.power.clock } (tick s) := by
  unfold tick
  cases s.power.clock with
  | pll => exact endCycle_keeps s 1 k
  | oscillator => exact oscillatorStop_keeps _ (endCycle_keeps s 4 k)
  | stopped => exact k
  | none => exact k

/-! ### One step -/

theorem step_of_pending_nil {s : State} (h : s.pending = []) : step s = .next (tick s) := by
  simp only [step, h]

theorem step_of_pending_cons {s : State} {c : Instr} {rest : List Instr} (h : s.pending = c :: rest) :
    step s = exec c { s with pending := rest } := by
  simp only [step, h]

/-- A step keeps every property of the memory that survives each change of a byte and each clearing of bytes, whatever it runs. -/
theorem step_keeps_cells (M : CellProp) {s t : State} (h : M.holds s.cells) (hs : step s = .next t) : M.holds t.cells := by
  cases hp : s.pending with
  | nil =>
    obtain rfl : tick s = t := Host.Outcome.next.inj ((step_of_pending_nil hp).symm.trans hs)
    obtain ⟨-, -, -, hcells⟩ := tick_keeps s (.rfl h)
    exact hcells
  | cons c rest =>
    obtain ⟨u, hu, -, -, -, hcells⟩ := exec_answers (M := M) c { s with pending := rest } (.rfl h)
    obtain rfl : u = t := Host.Outcome.next.inj (hu.symm.trans ((step_of_pending_cons hp).symm.trans hs))
    exact hcells

end Sys2Proof.Machine
end

section
/-! PROOF. The statements of chapter 00: one step and the form of the memory. -/

namespace Sys2Proof.Machine

/-- The canonical form survives a change of a byte and the clearing of bytes. -/
def canonicalCells : CellProp where
  holds m := Memory.wf m = true
  set _ k b h := scanon_sset k b h
  clear _ p h := scanon_filter p h

/-- Settles O4: whatever a step runs, it changes the memory by writing and clearing bytes only, and both keep the canonical form. -/
theorem stepKeepsMemoryCanonical : Obligations.StepKeepsMemoryCanonical :=
  fun _ _ hinv hs => step_keeps_cells canonicalCells hinv hs

/-- Settles O1: the queue's front decides the arm of `step`. -/
theorem stepRunsTheFrontCommand : Obligations.StepRunsTheFrontCommand :=
  fun _ _ _ => step_of_pending_cons rfl

end Sys2Proof.Machine
end

section
/-! SUPPORT. What the work of a core cycle leaves of the power state: the cellar record, the console, the lanes that train and the ports in
idle begin no warm reset (R355). -/

namespace Sys2Proof.Machine

/-- A reader of the state that every turn of a fold leaves alone, the fold leaves alone. -/
theorem foldl_reads_same {α β : Type} (g : State → β) {f : State → α → State} (h : ∀ s x, g (f s x) = g s) (l : List α) (s : State) :
    g (l.foldl f s) = g s := by
  induction l generalizing s with
  | nil => rfl
  | cons x l ih => exact (ih (f s x)).trans (h s x)

/-! ### Registers -/

@[simp] theorem wr_power (s : State) (key : Nat) (w : Word64) : (wr s key w).power = s.power := by
  obtain ⟨r, k, h⟩ := wr_eq s key w
  rw [h]

@[simp] theorem wrF_power (s : State) (key : Nat) (f : Fld) (v : Nat) : (wrF s key f v).power = s.power := wr_power _ _ _

@[simp] theorem wrB_power (s : State) (key : Nat) (f : Fld) (b : Bool) : (wrB s key f b).power = s.power := wr_power _ _ _

@[simp] theorem addSat_power (s : State) (key : Nat) (f : Fld) (n : Nat) : (addSat s key f n).power = s.power := wr_power _ _ _

@[simp] theorem addWrap_power (s : State) (key : Nat) (f : Fld) (n : Nat) : (addWrap s key f n).power = s.power := wr_power _ _ _

@[simp] theorem countSat_power (s : State) (block key : Nat) (f : Fld) (n : Nat) : (countSat s block key f n).power = s.power := by
  unfold countSat
  split <;> simp

@[simp] theorem countWrap_power (s : State) (block key : Nat) (f : Fld) (n : Nat) : (countWrap s block key f n).power = s.power := by
  unfold countWrap
  split <;> simp

/-! ### Answers of an access -/

@[simp] theorem mapTxn_power (s : State) (uid : Nat) (f : Txn → Txn) : (mapTxn s uid f).power = s.power := rfl

@[simp] theorem answerPart_power (s : State) (who : Who) (uid half : Nat) (st : Status) (ce sup : Bool) (data : List Byte) (waits : Nat) :
    (answerPart s who uid half st ce sup data waits).power = s.power := by
  cases who <;> rfl

@[simp] theorem sampleQueued_power (s : State) (who : Who) (uid dest bank depth : Nat) :
    (sampleQueued s who uid dest bank depth).power = s.power := by
  cases who <;> rfl

@[simp] theorem trace_power (s : State) (t : TraceInfo) : (trace s t).power = s.power := by
  unfold trace
  split <;> rfl

@[simp] theorem traceRefused_power (s : State) (r : Req) (half2 : Bool) (st : Status) : (traceRefused s r half2 st).power = s.power :=
  trace_power ..

@[simp] theorem refuse_power (s : State) (r : Req) (uid halves : Nat) (st : Status) : (refuse s r uid halves st).power = s.power := by
  unfold refuse
  rw [foldl_reads_same State.power fun _ _ => answerPart_power ..]
  exact traceRefused_power ..

/-! ### Accesses on their way to the banks -/

@[simp] theorem wakeRegion_power (s : State) (h : Nat) : (wakeRegion s h).power = s.power := by
  unfold wakeRegion setRegionState
  split <;> simp

/-- An access that enters a bank's queue may wake its region (R350), and begins no warm reset. -/
@[simp] theorem enterBank_warmPending (s : State) (r : BReq) : (enterBank s r).power.warmPending = s.power.warmPending := by
  unfold enterBank touchRegion
  dsimp only
  split <;> simp

@[simp] theorem toBanks_warmPending (s : State) (r : Req) (uid : Nat) (vat : Option Nat) :
    (toBanks s r uid vat).power.warmPending = s.power.warmPending := by
  unfold toBanks
  refine foldl_reads_same (fun s => s.power.warmPending) (fun s h => ?_) _ _
  dsimp only
  split <;> simp

/-! ### The cellar record -/

@[simp] theorem setCellar_power (s : State) (f : Cellar → Cellar) : (setCellar s f).power = s.power := rfl

@[simp] theorem cellarIssue_warmPending (s : State) (op : Op) (addr : Nat) (bs : List Byte) :
    (cellarIssue s op addr bs).power.warmPending = s.power.warmPending := by
  unfold cellarIssue takeUid
  dsimp only
  split
  · simp
  · split <;> simp

@[simp] theorem cellarNext_warmPending (s : State) : (cellarNext s).power.warmPending = s.power.warmPending := by
  unfold cellarNext
  split
  · split <;> simp
  · split <;> simp
  · rfl

@[simp] theorem cellarTook_power (s : State) (a : EngAcc) : (cellarTook s a).power = s.power := by
  unfold cellarTook
  dsimp only
  split <;> split <;> simp

@[simp] theorem cellarCycle_warmPending (s : State) : (cellarCycle s).power.warmPending = s.power.warmPending := by
  unfold cellarCycle
  split
  · split
    · split <;> simp
    · simp
  · rfl

/-! ### The console -/

@[simp] theorem consoleLine_power (s : State) (text : List Byte) : (consoleLine s text).power = s.power := rfl

@[simp] theorem consoleWrite_power (s : State) (text : List Byte) : (consoleWrite s text).power = s.power := by
  unfold consoleWrite
  dsimp only
  rw [consoleLine_power]

@[simp] theorem ownPrompt_power (s : State) : (ownPrompt s).power = s.power := by
  unfold ownPrompt
  split <;> simp

@[simp] theorem replyOver_power (s : State) : (replyOver s).power = s.power :=
  (ownPrompt_power _).trans (foldl_reads_same State.power consoleLine_power _ _)

@[simp] theorem afterReply_power (s : State) (x : Session) : (afterReply s x).power = s.power := by
  cases x with
  | console =>
    unfold afterReply
    dsimp only
    split <;> simp
  | chain => rfl

@[simp] theorem consoleTurn_power (s : State) : (consoleTurn s).power = s.power := by
  unfold consoleTurn
  split
  · rfl
  · split <;> simp

/-! ### The lanes -/

@[simp] theorem sendBits_power (s : State) (p j : Nat) (bits : List Bool) : (sendBits s p j bits).power = s.power := by
  simp [sendBits]

@[simp] theorem seedTx_power (s : State) (p j : Nat) : (seedTx s p j).power = s.power := setLane_power ..

@[simp] theorem txMarked_power (s : State) (p j : Nat) : (txMarked s p j).power = s.power := by
  simp [txMarked]

@[simp] theorem sendScrambled_power (s : State) (p j : Nat) (bits : List Bool) : (sendScrambled s p j bits).power = s.power := by
  simp [sendScrambled]

@[simp] theorem sendFrame_power (s : State) (p j : Nat) : (sendFrame s p j).power = s.power := by
  unfold sendFrame
  rw [emit_power, setLane_power, sendScrambled_power, seedTx_power, sendBits_power]

@[simp] theorem sendMarker_power (s : State) (p flags : Nat) : (sendMarker s p flags).power = s.power := by
  unfold sendMarker
  rw [emit_power]
  exact foldl_reads_same State.power (fun _ _ => (txMarked_power ..).trans (sendBits_power ..)) _ s

@[simp] theorem lanesOff_power (s : State) (p : Nat) : (lanesOff s p).power = s.power :=
  foldl_reads_same State.power (fun _ _ => (wrB_power ..).trans (wrB_power ..)) nineLanes s

@[simp] theorem trainingCycle_power (s : State) (p : Nat) : (trainingCycle s p).power = s.power := by
  have frames : ((trainingLanes s p).foldl (fun s j => sendFrame s p j) s).power = s.power :=
    foldl_reads_same State.power (fun _ _ => sendFrame_power ..) _ s
  unfold trainingCycle
  dsimp only
  split
  · split <;> simp [frames]
  · rfl

@[simp] theorem enterEi_power (s : State) (p : Nat) : (enterEi s p).power = s.power := by
  simp [enterEi]

@[simp] theorem idleCycle_power (s : State) (p : Nat) : (idleCycle s p).power = s.power := by
  unfold idleCycle
  dsimp only
  split
  · split <;> split <;> simp
  · rfl

end Sys2Proof.Machine
end

section
/-! PROOF. The statement of chapter 01: one core cycle on an empty queue. -/

namespace Sys2Proof.Machine

/-- The property that says nothing of the memory: for what a cycle does to device time and the queue, from every state. -/
def anyCells : CellProp where
  holds _ := True
  set _ _ _ h := h
  clear _ _ h := h

theorem semUnitTurn_of_semq_nil {s : State} (h : s.semq = []) : semUnitTurn s = s := by
  have front : semFront s = none := by simp [semFront, opsOf, h]
  simp only [semUnitTurn, front]

theorem mbxUnitTurn_of_mbxq_nil {s : State} (h : s.mbxq = []) : mbxUnitTurn s = s := by
  have front : mbxFront s = none := by simp [mbxFront, opsOf, h]
  simp only [mbxUnitTurn, front]

theorem agentsCycle_of_agents_nil {s : State} (h : s.test.agents = []) : agentsCycle s = s := by
  simp [agentsCycle, h]

theorem warmStep_of_not_warmPending {s : State} (h : s.power.warmPending = false) : warmStep s = s := by
  simp [warmStep, h]

/-- The ports' part of a cycle's work (R275, R279). -/
def portsCycle (s : State) : State := (List.range (numPorts s.variant)).foldl (fun s p => idleCycle (trainingCycle s p) p) s

theorem ownWork_eq (s : State) :
    ownWork s = warmStep (portsCycle (consoleTurn (cellarCycle (agentsCycle (mbxUnitTurn (semUnitTurn s)))))) := rfl

@[simp] theorem portsCycle_power (s : State) : (portsCycle s).power = s.power :=
  foldl_reads_same State.power (fun _ _ => (idleCycle_power ..).trans (trainingCycle_power ..)) _ s

theorem portsCycle_keeps {M : List Host.Cell → Prop} {z₀ s : State} (k : Keeps M z₀ s) : Keeps M z₀ (portsCycle s) :=
  keeps_foldl (fun t p k => idleCycle_keeps _ p (trainingCycle_keeps t p k)) k

/-- With no store operation, no test without an arbiter and no warm reset waiting, the record, the console and the ports have the cycle
to themselves. -/
theorem ownWork_of_nothing_waiting {s : State} (hsem : s.semq = []) (hmbx : s.mbxq = []) (hagents : s.test.agents = [])
    (hwarm : s.power.warmPending = false) : ownWork s = portsCycle (consoleTurn (cellarCycle s)) := by
  rw [ownWork_eq, semUnitTurn_of_semq_nil hsem, mbxUnitTurn_of_mbxq_nil hmbx, agentsCycle_of_agents_nil hagents]
  exact warmStep_of_not_warmPending (by simpa using hwarm)

/-- Of the work of a cycle only the stores' turns, the tests without an arbiter and a warm reset write bytes. -/
theorem ownWork_cells {s : State} (hsem : s.semq = []) (hmbx : s.mbxq = []) (hagents : s.test.agents = [])
    (hwarm : s.power.warmPending = false) : (ownWork s).cells = s.cells := by
  obtain ⟨-, -, -, hcells⟩ : Keeps (· = s.cells) s (portsCycle (consoleTurn (cellarCycle s))) :=
    portsCycle_keeps (consoleTurn_keeps _ (cellarCycle_keeps s (.rfl rfl)))
  rw [ownWork_of_nothing_waiting hsem hmbx hagents hwarm, hcells]

/-- Rings, events and counters write no byte, so the bytes at a cycle's end are those that its work has left. -/
theorem endCycle_cells (s : State) (n : Nat) : (endCycle s n).cells = (ownWork s).cells := by
  obtain ⟨-, -, -, hcells⟩ : Keeps (· = (ownWork s).cells) (ownWork s) (countCycle (cycleEvents (ringCycle (ownWork s)))) :=
    countCycle_keeps _ (cycleEvents_keeps _ (ringCycle_keeps _ (.rfl rfl)))
  simpa only [endCycle] using hcells

theorem oscillatorStop_cells (s : State) : (oscillatorStop s).cells = s.cells := by
  obtain ⟨-, -, -, hcells⟩ : Keeps (· = s.cells) s (oscillatorStop s) := oscillatorStop_keeps s (.rfl rfl)
  exact hcells

/-- A core cycle in which no unit works on the memory changes no byte. -/
theorem tick_cells {s : State} (idle : (ownWork s).cells = s.cells) : (tick s).cells = s.cells := by
  unfold tick
  cases s.power.clock with
  | pll => exact (endCycle_cells s 1).trans idle
  | oscillator => exact (oscillatorStop_cells _).trans ((endCycle_cells s 4).trans idle)
  | stopped => rfl
  | none => rfl

theorem tick_of_no_clock {s : State} (h : s.power.clock = .stopped ∨ s.power.clock = .none) : tick s = s := by
  obtain h | h := h <;> simp only [tick, h]

/-- Settles O2: an empty queue runs `tick`, whose time and queue `tick_keeps` gives; its bytes can change only by the work that the
hypotheses exclude. -/
theorem emptyQueueRunsOneCoreCycle : Obligations.EmptyQueueRunsOneCoreCycle := by
  intro s hempty
  obtain ⟨-, htime, hpending, -⟩ := tick_keeps (M := anyCells) s (.rfl trivial)
  refine ⟨tick s, step_of_pending_nil hempty, hpending.trans hempty, ?_, tick_of_no_clock, fun hsem hmbx hagents hwarm =>
    tick_cells (ownWork_cells hsem hmbx hagents hwarm)⟩
  rw [htime]
  cases s.power.clock <;> rfl

end Sys2Proof.Machine
end

section
/-! SUPPORT. Decode of a register access in the privileged view (R30, R34–R38): which words it touches, how each appears there, and which
check it fails first. -/

namespace Sys2Proof.Machine

/-- Whether a word of the privileged view holds a present register (R30, R32). -/
def wordPresent (v : Variant) (a : Nat) : Bool := decide (a < 2 ^ 32) && regPresent v (keyOf a)

/-! ### The words that an access touches -/

theorem first_mem_touchedWords {r : Req} (h : 1 ≤ r.len) : r.addr / 8 * 8 ∈ touchedWords r := by
  refine List.mem_map.mpr ⟨0, List.mem_range.mpr ?_, rfl⟩
  omega

/-- An access of 8 aligned bytes touches its own word alone. -/
theorem touchedWords_of_aligned {r : Req} (hlen : r.len = 8) (haligned : r.addr % 8 = 0) : touchedWords r = [r.addr] := by
  have hword : r.addr / 8 * 8 = r.addr := by omega
  simp [touchedWords, hlen, haligned, hword]

/-- No word of an access to the privileged view lies in the unprivileged one. -/
theorem not_inUnprivView_of_touched {r : Req} (haddr : 0xFF800000 ≤ r.addr) {a : Nat} (ha : a ∈ touchedWords r) : inUnprivView a = false := by
  obtain ⟨i, -, rfl⟩ := List.mem_map.mp ha
  refine decide_eq_false ?_
  omega

/-- From the unprivileged view on, an address is a register's or lies past the space (R25). -/
theorem spaceOf_register_view {a : Nat} (h : 0xFF000000 ≤ a) : spaceOf a = if a < 2 ^ 32 then .reg else .nothing := by
  have harray : ¬a < 0x10000000 := by omega
  have hsem : ¬a < 0xFE400000 := by omega
  have hmbx : ¬a < 0xFE500000 := by omega
  simp [spaceOf, harray, hsem, hmbx, h]

/-- A word of the privileged view appears whole, or is absent. -/
theorem regMode_privileged_view (s : State) (who : Who) {a : Nat} (ha : inUnprivView a = false) :
    regMode s who a = if wordPresent s.variant a then .full else .absent := by
  have hlow : 0xFF800000 ≤ a := Nat.le_of_not_lt (of_decide_eq_false ha)
  unfold regMode wordPresent
  rw [spaceOf_register_view (by omega), ha]
  by_cases hreg : a < 2 ^ 32
  · rw [if_pos hreg, decide_eq_true hreg]
    cases regPresent s.variant (keyOf a) with
    | false => rfl
    | true => cases who <;> rfl
  · rw [if_neg hreg, decide_eq_false hreg]
    rfl

/-- In the privileged view an access meets an absent word exactly when one of its words is not present. -/
theorem touches_absent_privileged_view (s : State) {r : Req} (haddr : 0xFF800000 ≤ r.addr) :
    (touchedWords r).any (fun a => regMode s r.who a = .absent) = !(touchedWords r).all (wordPresent s.variant) := by
  rw [List.not_all_eq_any_not, Bool.eq_iff_iff, List.any_eq_true, List.any_eq_true]
  refine exists_congr fun a => and_congr_right fun ha => ?_
  rw [regMode_privileged_view s r.who (not_inUnprivView_of_touched haddr ha)]
  cases wordPresent s.variant a <;> rfl

/-! ### The privilege of the port -/

/-- Whatever an unprivileged port does in the privileged view breaks its view (R35). -/
theorem regDenied_of_unprivileged {s : State} {r : Req} {p sl : Nat} (hwho : r.who = .port p sl) (hpriv : portPrivileged s p = false)
    (haddr : 0xFF800000 ≤ r.addr) (hlen : 1 ≤ r.len) : regDenied s r = true := by
  have hfirst := first_mem_touchedWords hlen
  have hany : (touchedWords r).any (fun a => (!inUnprivView a && !portPrivileged s p) ||
      (r.op = .write && (regMode s r.who a = .read || scOnlyKey (keyOf a)))) = true := by
    refine List.any_eq_true.mpr ⟨_, hfirst, ?_⟩
    rw [not_inUnprivView_of_touched haddr hfirst, hpriv]
    rfl
  unfold regDenied
  rw [hwho] at hany ⊢
  exact Bool.or_eq_true_iff.mpr (.inr hany)

/-- An atomic operation or an ACC is neither a READ nor a WRITE. -/
theorem not_plainOp_of_neverDenied {o : Op} (h : neverDenied o = true) : plainOp o = false := by
  cases o with
  | atomic _ => rfl
  | acc => rfl
  | _ => cases h

/-- What an unprivileged port is answered in the privileged view (R35, R76, R101). -/
theorem decodeReg_of_unprivileged {s : State} {r : Req} {p sl : Nat} (hwho : r.who = .port p sl) (hpriv : portPrivileged s p = false)
    (haddr : 0xFF800000 ≤ r.addr) (hlen : 1 ≤ r.len) :
    decodeReg s r = some (if (touchedWords r).all (wordPresent s.variant) then (if neverDenied r.op then .range else .denied) else .absent) := by
  unfold decodeReg
  rw [touches_absent_privileged_view s haddr, regDenied_of_unprivileged hwho hpriv haddr hlen]
  cases (touchedWords r).all (wordPresent s.variant) with
  | false => rfl
  | true =>
    cases hnever : neverDenied r.op with
    | false => rfl
    | true => simp [not_plainOp_of_neverDenied hnever]

/-- Of a READ of 8 aligned bytes: DENIED at a present register, ABSENT elsewhere. -/
theorem decodeReg_of_unprivileged_read {s : State} {r : Req} {p sl : Nat} (hwho : r.who = .port p sl) (hpriv : portPrivileged s p = false)
    (hop : r.op = .read) (haddr : 0xFF800000 ≤ r.addr) (hend : r.addr < 2 ^ 32) (hlen : r.len = 8) (haligned : r.addr % 8 = 0) :
    decodeReg s r = some (if regPresent s.variant (keyOf r.addr) then .denied else .absent) := by
  rw [decodeReg_of_unprivileged hwho hpriv haddr (by omega), touchedWords_of_aligned hlen haligned, hop]
  simp only [List.all_cons, List.all_nil, Bool.and_true, wordPresent, decide_eq_true hend, Bool.true_and, neverDenied, Bool.false_eq_true, if_false]

/-- One check in a chain: it and those after it let pass. -/
theorem refusal_eq_none_iff {fails : Bool} {st : Status} {rest : Option Status} :
    (if fails then some st else rest) = none ↔ fails = false ∧ rest = none := by
  cases fails <;> simp only [Bool.false_eq_true, if_false, if_true, reduceCtorEq, Bool.true_eq_false, true_and, false_and]

/-- The access that decode lets pass (R31, R34): no word absent, nothing denied, a READ or WRITE, 8 aligned bytes, all of them written. -/
theorem decodeReg_eq_none_iff (s : State) (r : Req) :
    decodeReg s r = none ↔ (touchedWords r).any (fun a => regMode s r.who a = .absent) = false ∧
      (regDenied s r && !neverDenied r.op) = false ∧ plainOp r.op = true ∧
      r.len = 8 ∧ r.addr % 8 = 0 ∧ (r.op = .write → allEnabled r = true) := by
  unfold decodeReg
  simp only [refusal_eq_none_iff, Bool.not_eq_false', Bool.or_eq_false_iff, bne_eq_false_iff_eq, Bool.and_eq_false_imp, decide_eq_true_eq,
    and_true, and_assoc]

/-- A privileged port's aligned READ, or whole WRITE that no rule reserves, of a present register passes decode (R35). -/
theorem decodeReg_of_privileged {s : State} {r : Req} {p sl : Nat} (hwho : r.who = .port p sl) (hpriv : portPrivileged s p = true)
    (haddr : 0xFF800000 ≤ r.addr) (hlen : r.len = 8) (haligned : r.addr % 8 = 0) (hpresent : wordPresent s.variant r.addr = true)
    (hop : r.op = .read ∨ (r.op = .write ∧ allEnabled r = true ∧ scOnlyKey (keyOf r.addr) = false ∧
      (pairRefuses s && mirroredKey (keyOf r.addr)) = false)) : decodeReg s r = none := by
  have hword := touchedWords_of_aligned hlen haligned
  have hview : inUnprivView r.addr = false := not_inUnprivView_of_touched haddr (hword ▸ List.mem_singleton_self _)
  have hmode : regMode s r.who r.addr = .full := by rw [regMode_privileged_view s _ hview, hpresent]; rfl
  have habsent : (touchedWords r).any (fun a => regMode s r.who a = .absent) = false := by simp [hword, hmode]
  have hdenied : regDenied s r = false := by
    unfold regDenied
    rw [hwho] at hmode ⊢
    obtain hread | ⟨-, -, hsc, hpair⟩ := hop
    · simp [hword, hpriv, hread]
    · simp [hword, hpriv, hmode, hsc, Bool.and_assoc, hpair]
  refine (decodeReg_eq_none_iff s r).mpr ⟨habsent, by rw [hdenied, Bool.false_and], ?_⟩
  obtain hread | ⟨hwrite, hall, -, -⟩ := hop
  · exact ⟨by rw [hread]; rfl, hlen, haligned, fun hwrite => nomatch hread.symm.trans hwrite⟩
  · exact ⟨by rw [hwrite]; rfl, hlen, haligned, fun _ => hall⟩

end Sys2Proof.Machine
end

section
/-! SUPPORT. The acceptance of a request unit (R309–R312): what its counters touch, and the response of a register access that decode
refuses (R34, R66). -/

namespace Sys2Proof.Machine

/-! ### The counters of acceptance -/

/-- Only registers that are no triple-kept words, the links, the free values and the observation's own state differ. -/
def CountsOnly (s t : State) : Prop :=
  ∃ free regs links obs, t = { s with free := free, regs := regs, links := links, obs := obs }

theorem CountsOnly.refl (s : State) : CountsOnly s s := ⟨s.free, s.regs, s.links, s.obs, rfl⟩

theorem CountsOnly.trans {s t u : State} (h : CountsOnly s t) (k : CountsOnly t u) : CountsOnly s u := by
  obtain ⟨_, _, _, _, rfl⟩ := h
  obtain ⟨_, _, _, _, rfl⟩ := k
  exact ⟨_, _, _, _, rfl⟩

theorem wr_countsOnly (s : State) {key : Nat} (w : Word64) (h : tkIndex key = none) : CountsOnly s (wr s key w) := by
  simp only [wr, h]
  exact ⟨_, _, _, _, rfl⟩

theorem countWrap_countsOnly (s : State) (block : Nat) {key : Nat} (f : Fld) (n : Nat) (h : tkIndex key = none) :
    CountsOnly s (countWrap s block key f n) := by
  unfold countWrap
  split
  · exact wr_countsOnly s _ h
  · exact .refl s

theorem occur_countsOnly (s : State) (ev : Nat) : CountsOnly s (occur s ev) := by
  unfold occur occurN
  split
  · exact .refl s
  · exact ⟨_, _, _, _, rfl⟩

theorem countSlots_countsOnly (s : State) (p vc n : Nat) : CountsOnly s (countSlots s p vc n) := ⟨_, _, _, _, rfl⟩

theorem sampleAccept_countsOnly (s : State) : CountsOnly s (sampleAccept s).2 := by
  have advanced : CountsOnly s { s with obs := { s.obs with smpS := smpNext s.obs.smpS } } := ⟨_, _, _, _, rfl⟩
  have hskipped : tkIndex R_SMP_STAT = none := by decide
  unfold sampleAccept
  split
  · dsimp only
    split
    · split
      · exact advanced.trans (wr_countsOnly _ _ hskipped)
      · exact ⟨_, _, _, _, rfl⟩
    · exact advanced
  · exact .refl s

/-- No register of a port is a triple-kept word: their blocks come before all of them (R30, R236). -/
theorem tkIndex_port_register {key : Nat} (h : key < 0xA0000) : tkIndex key = none := by
  have hne : ∀ k, 0xA0000 ≤ k → key ≠ k := fun k hk => by omega
  have hunits : ¬R_INT_UNITERR 0 ≤ key := by unfold R_INT_UNITERR; omega
  simp (disch := decide) [tkIndex, hne, hunits]

theorem CountsOnly.nextUid_eq {s t : State} (h : CountsOnly s t) : t.nextUid = s.nextUid := by
  obtain ⟨_, _, _, _, rfl⟩ := h
  rfl

theorem CountsOnly.time_eq {s t : State} (h : CountsOnly s t) : t.time = s.time := by
  obtain ⟨_, _, _, _, rfl⟩ := h
  rfl

theorem CountsOnly.variant_eq {s t : State} (h : CountsOnly s t) : t.variant = s.variant := by
  obtain ⟨_, _, _, _, rfl⟩ := h
  rfl

theorem CountsOnly.heldOrd_eq {s t : State} (h : CountsOnly s t) : t.heldOrd = s.heldOrd := by
  obtain ⟨_, _, _, _, rfl⟩ := h
  rfl

/-- The counters of acceptance leave the grant as it is (R398). -/
theorem CountsOnly.portPrivileged_eq {s t : State} (h : CountsOnly s t) (p : Nat) : portPrivileged t p = portPrivileged s p := by
  obtain ⟨_, _, _, _, rfl⟩ := h
  rfl

/-- The state in which port `p` has counted an accepted request, and the sampler's tag for it (R311, R409). -/
def acceptCounted (s : State) (p : Nat) : Option Sample × State :=
  sampleAccept (occur (occur (countWrap s (2 + p) (R_PT_REQS p) PT_REQS_ACCEPTED 1) EV_ACCEPTED) (evPort p 0))

theorem acceptCounted_countsOnly (s : State) {p : Nat} (h : p < 8) : CountsOnly s (acceptCounted s p).2 := by
  have hreqs : R_PT_REQS p < 0xA0000 := by unfold R_PT_REQS; omega
  exact (((countWrap_countsOnly s _ _ _ (tkIndex_port_register hreqs)).trans (occur_countsOnly _ _)).trans
    (occur_countsOnly _ _)).trans (sampleAccept_countsOnly _)

/-! ### A request that is refused -/

/-- A list built element by element holds each element that the building leaves as it is. -/
theorem mem_foldl_append {α : Type} {g : List α → α → α} {x : α} (hx : ∀ acc, g acc x = x) (l acc : List α) (h : x ∈ acc ∨ x ∈ l) :
    x ∈ l.foldl (fun acc t => acc ++ [g acc t]) acc := by
  induction l generalizing acc with
  | nil => simpa using h
  | cons y l ih =>
    refine ih _ ?_
    obtain h | h := h
    · exact .inl (List.mem_append_left _ h)
    · obtain rfl | h := List.mem_cons.mp h
      · exact .inl (by simp [hx])
      · exact .inr h

/-- A request that is no FENCE and whose response is wanted stays as it is when FENCEs are settled (R68, R320). -/
theorem mem_settleFences {s : State} {t : Txn} (h : t ∈ s.txns) (hop : t.req.op ≠ .fence) (hlost : t.lost = false) :
    t ∈ (settleFences s).txns := by
  refine List.mem_filter.mpr ⟨mem_foldl_append (fun acc => ?_) _ _ (.inr h), by simp [hlost]⟩
  simp [hop]

/-- The response of a request of one part that nothing else delays falls due as the part is served (R66). -/
theorem mem_mapTxn {s : State} {uid : Nat} {f : Txn → Txn} {t : Txn} (h : t ∈ s.txns) (huid : t.uid = uid)
    (hop : (f t).req.op ≠ .fence) (hlost : (f t).lost = false) (hserved : txnServed (f t) = true) (hdue : (f t).due = none) :
    { f t with due := some s.time } ∈ (mapTxn s uid f).txns := by
  have hnote : noteDue s (f t) = { f t with due := some s.time } := by simp [noteDue, hserved, hdue, hop]
  refine mem_settleFences (List.mem_map.mpr ⟨t, h, ?_⟩) hop hlost
  simp only [huid, ite_true, hnote]

theorem worseStatus_ok_left {st : Status} : worseStatus .ok st = st := by
  cases st <;> rfl

@[simp] theorem trace_txns (s : State) (t : TraceInfo) : (trace s t).txns = s.txns := by
  unfold trace
  split <;> rfl

@[simp] theorem trace_time (s : State) (t : TraceInfo) : (trace s t).time = s.time := by
  unfold trace
  split <;> rfl

/-- A request in flight of which one part, the only one, is still to be answered, to a requester that wants its response. -/
def AwaitsOnePart (t : Txn) : Prop := t.left = 1 ∧ t.waits = 0 ∧ t.lost = false ∧ t.due = none ∧ t.req.op ≠ .fence

/-- A request as its only part is answered with a status that decode gives it, in a cycle (R34, R66). -/
def answeredTxn (time : Nat) (st : Status) (t : Txn) : Txn := { mergePart t 0 st false false [] 0 with due := some time }

/-- A whole request of a port that decode refuses is answered in the same step (R34). -/
theorem mem_refuse {s : State} {t : Txn} {p sl : Nat} (st : Status) (h : t ∈ s.txns) (hwho : t.req.who = .port p sl) (hone : AwaitsOnePart t) :
    answeredTxn s.time st t ∈ (refuse s t.req t.uid 1 st).txns := by
  obtain ⟨hleft, hwaits, hlost, hdue, hop⟩ := hone
  have hrefuse : refuse s t.req t.uid 1 st = mapTxn (traceRefused s t.req false st) t.uid (fun t => mergePart t 0 st false false [] 0) := by
    simp only [refuse, List.range_one, List.foldl_cons, List.foldl_nil, hwho, answerPart]
  have hserved : txnServed (mergePart t 0 st false false [] 0) = true := by simp [txnServed, mergePart, hleft, hwaits]
  have htrace : t ∈ (traceRefused s t.req false st).txns := by rwa [traceRefused, trace_txns]
  have htime : (traceRefused s t.req false st).time = s.time := trace_time _ _
  rw [hrefuse, ← htime]
  exact mem_mapTxn htrace rfl hop hlost hserved hdue

/-- A READ of a register that decode refuses counts nowhere (R336), and is answered with its status. -/
theorem submitReg_of_refused_read {s : State} {r : Req} {st : Status} (hop : r.op = .read) (h : decodeReg s r = some st) (uid : Nat) :
    submitReg s r uid = refuse s r uid 1 st := by
  have hcount : countRegDenied s r = s := by simp [countRegDenied, hop]
  unfold submitReg
  rw [h]
  cases st <;> simp only [hcount]

/-- The state in which a request that has left decode is in flight. -/
def inFlight (s : State) (t : Txn) : State := { s with txns := s.txns ++ [sampleDecoded t] }

/-- A register access that leaves decode goes to the register file. -/
theorem passDecode_register {s : State} {t : Txn} (hop : t.req.op ≠ .fence) (hspace : spaceOf t.req.addr = .reg) :
    passDecode s t = submitReg (inFlight s t) t.req t.uid := by
  unfold passDecode
  simp only [sampleDecoded, hop, hspace, if_true, if_false]
  rfl

/-- A READ of a register that leaves decode refused is answered in that step (R34). -/
theorem mem_passDecode_of_refused_read {s : State} {t : Txn} {p sl : Nat} {st : Status} (hwho : t.req.who = .port p sl) (hop : t.req.op = .read)
    (hspace : spaceOf t.req.addr = .reg) (hone : AwaitsOnePart t) (hst : decodeReg s t.req = some st) :
    answeredTxn s.time st (sampleDecoded t) ∈ (passDecode s t).txns := by
  have hmem : sampleDecoded t ∈ (inFlight s t).txns := List.mem_append_right _ (List.mem_singleton_self _)
  have hrefused : decodeReg (inFlight s t) t.req = some st := hst
  rw [passDecode_register (by simp [hop]) hspace, submitReg_of_refused_read hop hrefused]
  exact mem_refuse st hmem hwho hone

/-! ### Acceptance -/

/-- A unit of one member that is accepted is its request, accepted with its slots (R309–R312). -/
theorem arriveUnit_of_accepted {s : State} {h : ReqHdr} {code len opfmt run : Nat} {op : Op} (accepted : UnitAccepted s h code len opfmt run)
    (hop : opOfCode code = some op) (hone : isRun code = false) (addr : Nat) (mask : BitVec 64) (tally : Bool) (data : List Byte) :
    arriveUnit s h code addr len mask opfmt tally run data =
      acceptUnit s h (memberReq h code addr len mask opfmt tally (sliceBytes data 0 (payloadLen code len opfmt run)) op 0)
        (slotsNeeded (payloadLen code len opfmt run)) := by
  obtain ⟨hcore, hport, hsession, hpair, hheader, htags, hcredit⟩ := accepted
  have hcount : memberCount code run = 1 := by simp [memberCount, hone]
  have htag : h.tag.toNat % 4096 ∉ tagsOf s h.port.toNat := by simpa using htags 0 (by omega)
  unfold arriveUnit
  simp [hcore, Nat.not_le.mpr hport, hsession, hpair, hop, hheader, hone, hcount, htag, Nat.not_lt.mpr hcredit, acceptUnit, slotsNeeded, unitVc]

/-- The one request of a unit that is no run and no FENCE (R309, R310). -/
theorem memberReq_eq_unitReq (h : ReqHdr) {code addr : Nat} {op : Op} (hone : isRun code = false) (hop : op ≠ .fence) (haddr : addr < 2 ^ 32)
    (len : Nat) (mask : BitVec 64) (opfmt : Nat) (data : List Byte) :
    memberReq h code addr len mask opfmt false data op 0 = unitReq h op code addr len mask opfmt false data := by
  have htag : h.tag.toNat % 4096 = h.tag.toNat := Nat.mod_eq_of_lt h.tag.isLt
  have hwrap : (addr + 64 * 0) % 2 ^ 32 = addr := Nat.mod_eq_of_lt haddr
  simp only [memberReq, unitReq, hone, hop, Nat.add_zero, htag, hwrap, if_false, Bool.false_and, Bool.false_eq_true]

/-- The state that `takeUid` leaves: its next number is given away. -/
def numbered (s : State) : State := { s with nextUid := s.nextUid + 1 }

/-- The request in flight as a port's counted request begins it. -/
def acceptedTxn (s : State) (p : Nat) (r : Req) (slots : Nat) : Txn :=
  { uid := (acceptCounted s p).2.nextUid, req := r, left := if r.op = .fence then 0 else if isSplit r then 2 else 1, waits := 0, status := .ok,
    ce := false, sup := true, data0 := [], data1 := [], split := isSplit r,
    sample := if r.op = .fence then (acceptCounted s p).1.map (fun m => { m with dest := 5 }) else (acceptCounted s p).1,
    due := none, lost := false, slots := slots, noStore := false }

/-- The state in which that request meets decode: it has its number. -/
def accepting (s : State) (p : Nat) : State := numbered (acceptCounted s p).2

theorem accepting_countsOnly (s : State) {p : Nat} (h : p < 8) : CountsOnly (numbered s) (accepting s p) := by
  obtain ⟨_, _, _, _, hcounted⟩ := acceptCounted_countsOnly s h
  unfold accepting
  rw [hcounted]
  exact ⟨_, _, _, _, rfl⟩

theorem acceptedTxn_uid (s : State) {p : Nat} (h : p < 8) (r : Req) (slots : Nat) : (acceptedTxn s p r slots).uid = s.nextUid :=
  (acceptCounted_countsOnly s h).nextUid_eq

/-- The state after decode has let the request pass, or holds it (R65, R67). -/
def acceptPassed (s : State) (p : Nat) (r : Req) (slots : Nat) : State :=
  if mayPass (accepting s p) (acceptedTxn s p r slots) then passDecode (accepting s p) (acceptedTxn s p r slots)
  else { accepting s p with heldOrd := (accepting s p).heldOrd ++ [acceptedTxn s p r slots] }

/-- An acceptance ends with the peak of the port's tags (R323). -/
theorem acceptMember_eq (s : State) (p : Nat) (r : Req) (slots : Nat) :
    acceptMember s p r slots =
      if rdF (acceptPassed s p r slots) (R_PT_TAGS p) PT_TAGS_PEAK < (tagsOf (acceptPassed s p r slots) p).length then
        wrF (acceptPassed s p r slots) (R_PT_TAGS p) PT_TAGS_PEAK (tagsOf (acceptPassed s p r slots) p).length
      else acceptPassed s p r slots := rfl

@[simp] theorem wrF_txns (s : State) (key : Nat) (f : Fld) (v : Nat) : (wrF s key f v).txns = s.txns := by
  obtain ⟨_, _, hwr⟩ := wrF_eq s key f v
  rw [hwr]

/-- The peak changes nothing in flight. -/
theorem acceptMember_txns (s : State) (p : Nat) (r : Req) (slots : Nat) : (acceptMember s p r slots).txns = (acceptPassed s p r slots).txns := by
  rw [acceptMember_eq]
  split
  · exact wrF_txns _ _ _ _
  · rfl

/-- A RELAXED READ is held only behind a held request (R65). -/
theorem mayPass_relaxed_read {s : State} {t : Txn} (hop : t.req.op = .read) (hord : t.req.ord = false) (hheld : s.heldOrd = []) :
    mayPass s t = true := by
  simp [mayPass, hop, hord, hheld, regBlocked, lookupBlocked, meetsMismatch]

/-- A RELAXED READ of a register that decode refuses, with nothing held, is answered as it is accepted (R34, R35). -/
theorem mem_acceptMember_of_refused_read {s : State} {p sl : Nat} {r : Req} {st : Status} (slots : Nat) (hp : p < 8) (hwho : r.who = .port p sl)
    (hop : r.op = .read) (hord : r.ord = false) (hspace : spaceOf r.addr = .reg) (hheld : s.heldOrd = [])
    (hst : decodeReg (accepting s p) r = some st) :
    answeredTxn s.time st (sampleDecoded (acceptedTxn s p r slots)) ∈ (acceptMember s p r slots).txns := by
  have hcounts := accepting_countsOnly s hp
  have hone : AwaitsOnePart (acceptedTxn s p r slots) := by simp [AwaitsOnePart, acceptedTxn, isSplit, hop, hspace]
  have htime : (accepting s p).time = s.time := hcounts.time_eq
  rw [acceptMember_txns, acceptPassed, if_pos (mayPass_relaxed_read hop hord (hcounts.heldOrd_eq.trans hheld)), ← htime]
  exact mem_passDecode_of_refused_read hwho hop hspace hone hst

/-- The same of a unit: whatever the counters of acceptance have done, decode refuses its request with status `st`. -/
theorem mem_acceptUnit_of_refused_read {s : State} {h : ReqHdr} {sl : Nat} {r : Req} {st : Status} (slots : Nat)
    (hwho : r.who = .port h.port.toNat sl) (hop : r.op = .read) (hord : r.ord = false) (hspace : spaceOf r.addr = .reg) (hheld : s.heldOrd = [])
    (hst : ∀ t, CountsOnly (numbered s) t → decodeReg t r = some st) :
    ∃ x ∈ (acceptUnit s h r slots).txns, x.uid = s.nextUid ∧ x.req = r ∧ x.due = some s.time ∧ x.status = st := by
  have hcounts : CountsOnly (numbered s) (accepting (countSlots s h.port.toNat (unitVc h) slots) h.port.toNat) :=
    (countSlots_countsOnly _ _ _ _).trans (accepting_countsOnly _ h.port.isLt)
  exact ⟨_, mem_acceptMember_of_refused_read slots h.port.isLt hwho hop hord hspace hheld (hst _ hcounts),
    acceptedTxn_uid _ h.port.isLt r slots, rfl, rfl, worseStatus_ok_left⟩

/-- READ of an accepted unit (R310). -/
theorem exec_readReq_of_accepted {s : State} {h : ReqHdr} (addr : BitVec 32) {len : BitVec 7} (accepted : UnitAccepted s h 0x01 len.toNat 0 0) :
    exec (.readReq h addr len) s = .next (acceptUnit s h (unitReq h .read 0x01 addr.toNat len.toNat 0 0 false []) (slotsNeeded 0)) := by
  have harrive := arriveUnit_of_accepted accepted rfl rfl addr.toNat 0 false []
  rw [memberReq_eq_unitReq h rfl (by decide) addr.isLt] at harrive
  exact congrArg Host.Outcome.next harrive

end Sys2Proof.Machine
end

section
/-! SUPPORT. The register rows (R31, R36, R38): each is one write of its register, and the SC's write of a register that is open to it and
that the interrupt controller takes is served at once. -/

namespace Sys2Proof.Machine

/-! ### The rows -/

/-- Each register row writes its register; REGISTER_WRITE by the SC spares those that only a session's command changes (R399). -/
theorem exec_of_regRow {c : Instr} {who : RegBy} {key : Nat} {v : Word64} (h : regRow c = some (who, key, v))
    (hopen : who = .sc → scOnlyKey key = false) (s : State) : exec c s = .next (writeBy s who key v) := by
  unfold regRow at h
  split at h <;> cases h
  case h_9 => -- REGISTER_WRITE, the one row with a guard
    refine if_neg ?_
    simpa using hopen
  all_goals rfl

/-- A unit's addresses wrap at the end of the space (R310). -/
theorem memberReq_addr_mod (h : ReqHdr) (code addr len : Nat) (mask : BitVec 64) (opfmt : Nat) (tally : Bool) (data : List Byte) (op : Op) (k : Nat) :
    memberReq h code (addr % 2 ^ 32) len mask opfmt tally data op k = memberReq h code addr len mask opfmt tally data op k := by
  simp only [memberReq, Nat.mod_add_mod]

theorem arriveUnit_addr_mod (s : State) (h : ReqHdr) (code addr len : Nat) (mask : BitVec 64) (opfmt : Nat) (tally : Bool) (run : Nat)
    (data : List Byte) :
    arriveUnit s h code (addr % 2 ^ 32) len mask opfmt tally run data = arriveUnit s h code addr len mask opfmt tally run data := by
  unfold arriveUnit
  simp only [memberReq_addr_mod]

/-! ### The SC's write -/

theorem sliceBytes_self (bs : List Byte) : sliceBytes bs 0 bs.length = bs := by
  simp [sliceBytes]

theorem length_leBytes (n v : Nat) : (leBytes n v).length = n := by
  induction n generalizing v with
  | zero => rfl
  | succ n ih => exact congrArg (· + 1) (ih _)

/-- Bytes hold the number that they were made of, cut to their length (R8). -/
theorem leNat_leBytes (n v : Nat) : leNat (leBytes n v) = v % 256 ^ n := by
  induction n generalizing v with
  | zero => exact (Nat.mod_one v).symm
  | succ n ih =>
    have hsplit : v % 256 ^ (n + 1) = v % 256 + 256 * (v / 256 % 256 ^ n) := by rw [Nat.pow_succ', Nat.mod_mul]
    rw [leBytes, leNat, ih, BitVec.toNat_ofNat, hsplit]

/-- The value of an 8-byte write is the word that its bytes were made of. -/
theorem w64_leBytes (v : Word64) : w64 (leNat (sliceBytes (leBytes 8 v.toNat) 0 8)) = v := by
  have hslice : sliceBytes (leBytes 8 v.toNat) 0 8 = leBytes 8 v.toNat := by
    simpa only [length_leBytes] using sliceBytes_self (leBytes 8 v.toNat)
  have hfits : v.toNat % 256 ^ 8 = v.toNat := Nat.mod_eq_of_lt v.isLt
  rw [hslice, leNat_leBytes, hfits, w64, BitVec.ofNat_toNat, BitVec.setWidth_eq]

/-- A register access of the SC that decode lets pass is to the register of its key: the key is aligned and within the space (R30, R31). -/
theorem keyOf_scReq_of_decoded {s : State} {op : Op} {key : Nat} {v : Word64} (h : decodeReg s (scReq op key v) = none) :
    keyOf (scReq op key v).addr = key := by
  have haddr : 0xFF800000 ≤ (scReq op key v).addr := Nat.le_add_right _ _
  obtain ⟨hpresent, -, -, hlen, haligned, -⟩ := (decodeReg_eq_none_iff s _).mp h
  have hend : (scReq op key v).addr < 2 ^ 32 := by
    rw [touches_absent_privileged_view s haddr, touchedWords_of_aligned hlen haligned] at hpresent
    simp only [List.all_cons, List.all_nil, Bool.and_true, Bool.not_eq_false', wordPresent, Bool.and_eq_true, decide_eq_true_eq] at hpresent
    exact hpresent.1
  simp only [scReq, keyOf] at hend haligned ⊢
  omega

/-- A write of the SC that meets its register: its effect is settled. -/
theorem serveReg_sc_write (s : State) {key : Nat} (v : Word64) (uid : Nat) (hkey : keyOf (scReq .write key v).addr = key) :
    serveReg s (scReq .write key v) uid = scSettled uid key v (regWrite s key v) := by
  have hdata : w64 (leNat (sliceBytes (scReq .write key v).data 0 8)) = v := w64_leBytes v
  unfold serveReg
  rw [hkey, hdata]
  rfl

/-! Nothing that decode, admission or the controller looks at is the next number. -/

theorem decodeReg_numbered (s : State) (r : Req) : decodeReg (numbered s) r = decodeReg s r := rfl
theorem regRetry_numbered (s : State) (r : Req) : regRetry (numbered s) r = regRetry s r := rfl
theorem scBlocked_numbered (s : State) (r : Req) : scBlocked (numbered s) r = scBlocked s r := rfl
theorem intcMay_numbered (s : State) (r : Req) : intcMay (numbered s) r = intcMay s r := rfl

/-- What the interrupt controller notes of a write that it takes: the target of an EOI, or that it has taken a write (R206). -/
def intcNoted (s : State) (r : Req) : State :=
  if isIntcReq r then
    match intcTarget r with
    | some k => takeTarget s k
    | none => takeWrite s
  else s

theorem scPrepared_eq (s : State) (key : Nat) (v : Word64) : scPrepared s key v = intcNoted (numbered s) (scReq .write key v) := rfl

/-- A write that the controller takes is served in the state with its note. -/
theorem intcTake_write {s : State} {r : Req} (hop : r.op = .write) (uid : Nat) : intcTake s r uid = serveReg (intcNoted s r) r uid := by
  unfold intcTake intcNoted
  split
  · cases intcTarget r with
    | none => simp only [hop, reduceCtorEq, if_false]
    | some k => rfl
  · rfl

/-- An admitted write that nothing keeps waiting is served at once (R206, R332). -/
theorem enterReg_write {s : State} {r : Req} (hop : r.op = .write) (hfree : scBlocked s r = false)
    (hintc : isIntcReq r = true → s.intcWait = [] ∧ intcMay s r = true) (uid : Nat) : enterReg s r uid = serveReg (intcNoted s r) r uid := by
  unfold enterReg
  rw [hfree]
  cases hreq : isIntcReq r with
  | false =>
    have hnote : intcNoted s r = s := if_neg (by simp [hreq])
    rw [hnote]
    rfl
  | true =>
    obtain ⟨hwait, hmay⟩ := hintc hreq
    rw [hwait, hmay]
    exact intcTake_write hop uid

/-- An access that decode and admission let pass enters the register file (R34, R361). -/
theorem submitReg_of_admitted {s : State} {r : Req} (hdecode : decodeReg s r = none) (hretry : regRetry s r = false) (uid : Nat) :
    submitReg s r uid = enterReg s r uid := by
  unfold submitReg
  rw [hdecode, hretry]
  rfl

/-- The SC's write of a register that is open to it is done in one step (R38). -/
theorem writeBy_sc {s : State} {key : Nat} {v : Word64} (h : ScMayWrite s key v) :
    writeBy s .sc key v = scSettled s.nextUid key v (regWrite (scPrepared s key v) key v) := by
  obtain ⟨hruns, hdecode, hretry, hfree, hintc⟩ := h
  have hkey := keyOf_scReq_of_decoded hdecode
  have hpost : writeBy s .sc key v = submitReg (numbered s) (scReq .write key v) s.nextUid := if_pos hruns
  rw [← decodeReg_numbered] at hdecode
  rw [← regRetry_numbered] at hretry
  rw [← scBlocked_numbered] at hfree
  rw [← intcMay_numbered] at hintc
  rw [hpost, submitReg_of_admitted hdecode hretry, enterReg_write rfl hfree hintc, scPrepared_eq, serveReg_sc_write _ v _ hkey]

end Sys2Proof.Machine
end

section
/-! PROOF. The statements of chapter 02: what every command answers, the privilege of the privileged view, and the register rows. -/

namespace Sys2Proof.Machine

/-- Settles O3: every meaning answers a next state that `exec_answers` describes. -/
theorem everyCommandAnswersANextState : Obligations.EveryCommandAnswersANextState := by
  intro c s
  obtain ⟨t, hexec, hvariant, -, hpending, -⟩ := exec_answers (M := anyCells) c s (.rfl trivial)
  exact ⟨t, hexec, hpending, hvariant⟩

/-- A READ unit of 8 aligned bytes stores nothing, and its request, refused at decode, is answered in the same step. -/
theorem readReq_refused_of_unprivileged (s : State) (h : ReqHdr) (addr : BitVec 32) (accepted : UnitAccepted s h 0x01 8 0 0)
    (hord : h.ord = false) (hheld : s.heldOrd = []) (hpriv : portPrivileged s h.port.toNat = false) (haddr : 0xFF800000 ≤ addr.toNat)
    (haligned : addr.toNat % 8 = 0) :
    ∃ t x, exec (.readReq h addr 8) s = .next t ∧ x ∈ t.txns ∧ x.uid = s.nextUid ∧ x.req.tag = h.tag.toNat ∧ x.due = some s.time ∧
      x.status = (if regPresent s.variant (keyOf addr.toNat) then .denied else .absent) ∧ t.cells = s.cells := by
  have hspace : spaceOf addr.toNat = .reg := (spaceOf_register_view (by omega)).trans (if_pos addr.isLt)
  have hst : ∀ t, CountsOnly (numbered s) t → decodeReg t (unitReq h .read 0x01 addr.toNat 8 0 0 false []) =
      some (if regPresent s.variant (keyOf addr.toNat) then .denied else .absent) := by
    intro t hcounts
    have hvariant : t.variant = s.variant := hcounts.variant_eq
    rw [← hvariant]
    exact decodeReg_of_unprivileged_read rfl ((hcounts.portPrivileged_eq _).trans hpriv) rfl haddr addr.isLt rfl haligned
  obtain ⟨t, hexec, -, -, -, hcells⟩ := execReadReq_keeps (M := (· = s.cells)) h addr 8 s (.rfl rfl)
  obtain rfl := Host.Outcome.next.inj (hexec.symm.trans (exec_readReq_of_accepted addr accepted))
  obtain ⟨x, hmem, huid, hreq, hdue, hstatus⟩ := mem_acceptUnit_of_refused_read (slotsNeeded 0) rfl rfl hord hspace hheld hst
  exact ⟨_, x, hexec, hmem, huid, congrArg Req.tag hreq, hdue, hstatus, hcells⟩

/-- Settles O29: decode by the words that the access touches; then the accepted READ, whose request decode so refuses. -/
theorem unprivilegedPortIsRefused : Obligations.UnprivilegedPortIsRefused := by
  refine ⟨fun _ _ _ _ hwho hpriv haddr hlen => decodeReg_of_unprivileged hwho hpriv haddr hlen, readReq_refused_of_unprivileged, ?_⟩
  intro s r p sl hwho hpriv haddr hend hlen haligned hpresent hop
  have hword : wordPresent s.variant r.addr = true := by rw [wordPresent, hpresent, decide_eq_true hend]; rfl
  exact decodeReg_of_privileged hwho hpriv haddr hlen haligned hword hop

/-- Settles O25: the row and the unit arrive alike, since a unit's address is cut to 32 bits. -/
theorem portRegisterRowsAreWriteUnits : Obligations.PortRegisterRowsAreWriteUnits := by
  refine ⟨fun c s h u key v hrow => ?_, fun s h u x => ?_⟩
  · rw [exec_of_regRow hrow (fun hsc => nomatch hsc) s]
    exact congrArg Host.Outcome.next (arriveUnit_addr_mod s h 0x02 (viewBase u + key) 8 (BitVec.allOnes 64) 0 false 0 (leBytes 8 v.toNat)).symm
  · exact congrArg Host.Outcome.next (arriveUnit_addr_mod s h 0x01 (viewBase u + R_TGT_CLAIM x.toNat) 8 0 0 false 0 []).symm

/-- Settles O26: the row is the SC's write, which `writeBy_sc` carries through decode, admission and service. -/
theorem scRegisterRowsTakeEffect : Obligations.ScRegisterRowsTakeEffect := by
  refine ⟨fun s key v hsc => ?_, fun c s key v hrow hopen hmay _ => ?_⟩
  · refine if_pos ?_
    simp [hsc]
  · rw [exec_of_regRow hrow (fun _ => hopen) s, writeBy_sc hmay]

end Sys2Proof.Machine
end

section
/-! SUPPORT. A register's fields: what one holds after it, or another of the same word, is replaced or counted up, and what an occurrence
of a performance event leaves of the registers. -/

namespace Sys2Proof.Machine

/-! ### Fields of a word -/

theorem testBit_getF (w : Word64) (f : Fld) (i : Nat) : (getF w f).testBit i = (decide (i < f.width) && w.getLsbD (f.lo + i)) := by
  rw [getF, Nat.testBit_mod_two_pow, Nat.testBit_shiftRight, BitVec.testBit_toNat]

theorem getLsbD_fldMask (f : Fld) (i : Nat) : (fldMask f).getLsbD i = decide (i < 64 ∧ f.lo ≤ i ∧ i < f.lo + f.width) := by
  rw [fldMask, BitVec.getLsbD_ofNat, Nat.testBit_shiftLeft, Nat.testBit_two_pow_sub_one, Bool.eq_iff_iff]
  simp only [Bool.and_eq_true, decide_eq_true_eq]
  omega

/-- Inside the field stand the value's bits, outside it the word's own. -/
theorem getLsbD_setF (w : Word64) (f : Fld) (v i : Nat) (hi : i < 64) :
    (setF w f v).getLsbD i = if f.lo ≤ i ∧ i < f.lo + f.width then v.testBit (i - f.lo) else w.getLsbD i := by
  simp only [setF, BitVec.getLsbD_or, BitVec.getLsbD_and, BitVec.getLsbD_not, getLsbD_fldMask, BitVec.getLsbD_ofNat,
    Nat.testBit_shiftLeft, Nat.testBit_mod_two_pow]
  split
  next inside =>
    have hwidth : i - f.lo < f.width := by omega
    simp [hi, inside, hwidth]
  next outside => simp [hi, outside]

/-- A field that lies in the word reads back the value put into it, cut to its width. -/
theorem getF_setF_same (w : Word64) {f : Fld} (v : Nat) (hf : f.lo + f.width ≤ 64) : getF (setF w f v) f = v % 2 ^ f.width := by
  refine Nat.eq_of_testBit_eq fun i => ?_
  rw [testBit_getF, Nat.testBit_mod_two_pow]
  by_cases hi : i < f.width
  · have inside : f.lo ≤ f.lo + i ∧ f.lo + i < f.lo + f.width := by omega
    rw [getLsbD_setF w f v _ (by omega), if_pos inside, Nat.add_sub_cancel_left]
  · simp [hi]

/-- Replacing a field leaves the fields beside it alone. -/
theorem getF_setF_other (w : Word64) {f g : Fld} (v : Nat) (hf : f.lo + f.width ≤ 64)
    (apart : f.lo + f.width ≤ g.lo ∨ g.lo + g.width ≤ f.lo) : getF (setF w g v) f = getF w f := by
  refine Nat.eq_of_testBit_eq fun i => ?_
  rw [testBit_getF, testBit_getF]
  by_cases hi : i < f.width
  · have outside : ¬(g.lo ≤ f.lo + i ∧ f.lo + i < g.lo + g.width) := by omega
    rw [getLsbD_setF w g v _ (by omega), if_neg outside]
  · simp [hi]

/-! ### Fields of a register -/

theorem rdF_wrF_same (s : State) (key : Nat) {f : Fld} (v : Nat) (hf : f.lo + f.width ≤ 64) : rdF (wrF s key f v) key f = v % 2 ^ f.width := by
  rw [rdF, rd_wrF_same, getF_setF_same _ v hf]

theorem rdF_wrF_other (s : State) (key : Nat) {f g : Fld} (v : Nat) (hf : f.lo + f.width ≤ 64)
    (apart : f.lo + f.width ≤ g.lo ∨ g.lo + g.width ≤ f.lo) : rdF (wrF s key g v) key f = rdF s key f := by
  rw [rdF, rd_wrF_same, getF_setF_other _ v hf apart, ← rdF]

theorem rdF_addWrap (s : State) (key : Nat) {f : Fld} (n : Nat) (hf : f.lo + f.width ≤ 64) :
    rdF (addWrap s key f n) key f = (rdF s key f + n) % 2 ^ f.width := rdF_wrF_same _ _ _ hf

/-- A saturating count never exceeds its field, so nothing of it is cut. -/
theorem rdF_addSat (s : State) (key : Nat) {f : Fld} (n : Nat) (hf : f.lo + f.width ≤ 64) :
    rdF (addSat s key f n) key f = min (rdF s key f + n) (2 ^ f.width - 1) := by
  have hpos : 0 < 2 ^ f.width := Nat.two_pow_pos _
  rw [addSat, rdF_wrF_same _ _ _ hf, Nat.mod_eq_of_lt (by omega)]

@[simp] theorem rd_occur (s : State) (ev key : Nat) : rd (occur s ev) key = rd s key := by
  unfold occur occurN
  split <;> rfl

end Sys2Proof.Machine
end

section
/-! SUPPORT. The vat unit's registers through a tally step and a completion (R110–R112): which of them each writes, and what it leaves in
the others. -/

namespace Sys2Proof.Machine

/-! ### The registers of a vat entry -/

/-- No register of a vat entry is a triple-kept word (R236): a replaced field of another register leaves it alone. -/
theorem rd_wrF_other_vat (s : State) {key j : Nat} (f : Fld) (v : Nat) (hlow : 0x160000 ≤ j) (hhigh : j < 0x170000) (hne : j ≠ key) :
    rd (wrF s key f v) j = rd s j := by
  have below : ∀ k, k < 0x160000 → j ≠ k := fun k hk => by omega
  have above : ∀ k, 0x170000 ≤ k → j ≠ k := fun k hk => by omega
  have units : ¬j < R_INT_UNITERR 66 := by unfold R_INT_UNITERR; omega
  have plain : tkIndex j = none := by simp (disch := decide) [tkIndex, below, above, units]
  exact rd_wrF_other s f v hne (.inl plain)

section
variable {n : Nat} (hn : n < 1024)
include hn

theorem wrF_vatFlags_leaves (s : State) (f : Fld) (v : Nat) :
    rd (wrF s (R_VAT_FLAGS n) f v) (R_VAT_COUNT n) = rd s (R_VAT_COUNT n) ∧
    rd (wrF s (R_VAT_FLAGS n) f v) (R_VAT_CTL n) = rd s (R_VAT_CTL n) ∧
    rd (wrF s (R_VAT_FLAGS n) f v) (R_VAT_EVENTS n) = rd s (R_VAT_EVENTS n) := by
  refine ⟨rd_wrF_other_vat s f v ?_ ?_ ?_, rd_wrF_other_vat s f v ?_ ?_ ?_, rd_wrF_other_vat s f v ?_ ?_ ?_⟩ <;>
    simp only [R_VAT_COUNT, R_VAT_CTL, R_VAT_EVENTS, R_VAT_FLAGS] <;> omega

theorem wrF_vatCount_leaves (s : State) (f : Fld) (v : Nat) :
    rd (wrF s (R_VAT_COUNT n) f v) (R_VAT_CTL n) = rd s (R_VAT_CTL n) ∧
    rd (wrF s (R_VAT_COUNT n) f v) (R_VAT_EVENTS n) = rd s (R_VAT_EVENTS n) := by
  refine ⟨rd_wrF_other_vat s f v ?_ ?_ ?_, rd_wrF_other_vat s f v ?_ ?_ ?_⟩ <;>
    simp only [R_VAT_COUNT, R_VAT_CTL, R_VAT_EVENTS] <;> omega

theorem wrF_vatEvents_leaves (s : State) (f : Fld) (v : Nat) :
    rd (wrF s (R_VAT_EVENTS n) f v) (R_VAT_COUNT n) = rd s (R_VAT_COUNT n) ∧
    rd (wrF s (R_VAT_EVENTS n) f v) (R_VAT_CTL n) = rd s (R_VAT_CTL n) := by
  refine ⟨rd_wrF_other_vat s f v ?_ ?_ ?_, rd_wrF_other_vat s f v ?_ ?_ ?_⟩ <;>
    simp only [R_VAT_COUNT, R_VAT_CTL, R_VAT_EVENTS] <;> omega

theorem wrB_vatCtl_leaves (s : State) (f : Fld) (b : Bool) :
    rd (wrB s (R_VAT_CTL n) f b) (R_VAT_COUNT n) = rd s (R_VAT_COUNT n) ∧
    rd (wrB s (R_VAT_CTL n) f b) (R_VAT_EVENTS n) = rd s (R_VAT_EVENTS n) := by
  refine ⟨rd_wrF_other_vat s f _ ?_ ?_ ?_, rd_wrF_other_vat s f _ ?_ ?_ ?_⟩ <;>
    simp only [R_VAT_COUNT, R_VAT_CTL, R_VAT_EVENTS] <;> omega

end

/-! ### Completion (R112) -/

/-- The state after the first step of a completion: COMPLETIONS and the performance event are counted. -/
def completionCounted (s : State) (n : Nat) : State := occur (addWrap s (R_VAT_EVENTS n) VAT_EVENTS_COMPLETIONS 1) EV_COMPLETIONS

theorem rdF_completions_completionCounted (s : State) (n : Nat) :
    rdF (completionCounted s n) (R_VAT_EVENTS n) VAT_EVENTS_COMPLETIONS =
      (rdF s (R_VAT_EVENTS n) VAT_EVENTS_COMPLETIONS + 1) % 2 ^ VAT_EVENTS_COMPLETIONS.width := by
  rw [rdF, completionCounted, rd_occur, ← rdF, rdF_addWrap _ _ _ (by decide)]

theorem completionCounted_leaves {n : Nat} (hn : n < 1024) (s : State) :
    rd (completionCounted s n) (R_VAT_COUNT n) = rd s (R_VAT_COUNT n) ∧ rd (completionCounted s n) (R_VAT_CTL n) = rd s (R_VAT_CTL n) := by
  simp only [completionCounted, rd_occur]
  exact wrF_vatEvents_leaves hn s _ _

/-- After its count, a completion re-arms the vat or sets DONE. -/
theorem completeVat_state {n : Nat} (hn : n < 1024) (s : State) :
    (completeVat s n).1 = if rdB s (R_VAT_CTL n) VAT_CTL_AUTO_REARM then wrF (completionCounted s n) (R_VAT_COUNT n) VAT_COUNT_TALLY 0
      else wrB (completionCounted s n) (R_VAT_CTL n) VAT_CTL_DONE true := by
  rw [rdB, ← (completionCounted_leaves hn s).2]
  rfl

theorem completeVat_completions {n : Nat} (hn : n < 1024) (s : State) :
    rdF (completeVat s n).1 (R_VAT_EVENTS n) VAT_EVENTS_COMPLETIONS =
      (rdF s (R_VAT_EVENTS n) VAT_EVENTS_COMPLETIONS + 1) % 2 ^ VAT_EVENTS_COMPLETIONS.width := by
  have kept : rd (completeVat s n).1 (R_VAT_EVENTS n) = rd (completionCounted s n) (R_VAT_EVENTS n) := by
    rw [completeVat_state hn]
    split
    · exact (wrF_vatCount_leaves hn _ _ _).2
    · exact (wrB_vatCtl_leaves hn _ _ _).2
  rw [rdF, kept, ← rdF, rdF_completions_completionCounted]

theorem completeVat_of_autoRearm {n : Nat} (hn : n < 1024) {s : State} (rearms : rdB s (R_VAT_CTL n) VAT_CTL_AUTO_REARM = true) :
    rdF (completeVat s n).1 (R_VAT_COUNT n) VAT_COUNT_TALLY = 0 ∧ rd (completeVat s n).1 (R_VAT_CTL n) = rd s (R_VAT_CTL n) := by
  rw [completeVat_state hn, if_pos rearms]
  exact ⟨rdF_wrF_same _ _ 0 (by decide), (wrF_vatCount_leaves hn _ _ _).1.trans (completionCounted_leaves hn s).2⟩

theorem completeVat_of_not_autoRearm {n : Nat} (hn : n < 1024) {s : State} (stays : rdB s (R_VAT_CTL n) VAT_CTL_AUTO_REARM = false) :
    rd (completeVat s n).1 (R_VAT_COUNT n) = rd s (R_VAT_COUNT n) ∧ rdB (completeVat s n).1 (R_VAT_CTL n) VAT_CTL_DONE = true := by
  rw [completeVat_state hn, if_neg (by simp [stays])]
  refine ⟨(wrB_vatCtl_leaves hn _ _ _).1.trans (completionCounted_leaves hn s).1, ?_⟩
  have done : rdF (wrB (completionCounted s n) (R_VAT_CTL n) VAT_CTL_DONE true) (R_VAT_CTL n) VAT_CTL_DONE = 1 :=
    rdF_wrF_same _ _ 1 (by decide)
  exact bne_iff_ne.mpr fun cleared => Nat.one_ne_zero (done.symm.trans cleared)

theorem reachesExpected_iff (s : State) (n : Nat) :
    reachesExpected s n = true ↔
      rdF s (R_VAT_COUNT n) VAT_COUNT_EXPECTED ≠ 0 ∧ rdF s (R_VAT_COUNT n) VAT_COUNT_EXPECTED ≤ rdF s (R_VAT_COUNT n) VAT_COUNT_TALLY := by
  simp [reachesExpected]

/-! ### The tally step (R110, R111) -/

/-- The state after TALLY of a vat that is not DONE is counted, before it is compared with EXPECTED. -/
def tallyCounted (s : State) (n : Nat) : State := addWrap (occur s EV_TALLY) (R_VAT_COUNT n) VAT_COUNT_TALLY 1

theorem rdF_tally_tallyCounted (s : State) (n : Nat) :
    rdF (tallyCounted s n) (R_VAT_COUNT n) VAT_COUNT_TALLY = (rdF s (R_VAT_COUNT n) VAT_COUNT_TALLY + 1) % 2 ^ VAT_COUNT_TALLY.width := by
  rw [tallyCounted, rdF_addWrap _ _ _ (by decide), rdF, rd_occur, ← rdF]

theorem rdF_expected_tallyCounted (s : State) (n : Nat) :
    rdF (tallyCounted s n) (R_VAT_COUNT n) VAT_COUNT_EXPECTED = rdF s (R_VAT_COUNT n) VAT_COUNT_EXPECTED := by
  rw [tallyCounted, addWrap, rdF_wrF_other _ _ _ (by decide) (by decide), rdF, rd_occur, ← rdF]

theorem tallyCounted_leaves {n : Nat} (hn : n < 1024) (s : State) :
    rd (tallyCounted s n) (R_VAT_CTL n) = rd s (R_VAT_CTL n) ∧ rd (tallyCounted s n) (R_VAT_EVENTS n) = rd s (R_VAT_EVENTS n) := by
  obtain ⟨hctl, hevents⟩ := wrF_vatCount_leaves hn (occur s EV_TALLY) VAT_COUNT_TALLY _
  exact ⟨hctl.trans (rd_occur _ _ _), hevents.trans (rd_occur _ _ _)⟩

/-- EXPECTED is compared with TALLY as the step leaves it. -/
theorem reachesExpected_tallyCounted_iff (s : State) (n : Nat) :
    reachesExpected (tallyCounted s n) n = true ↔
      rdF s (R_VAT_COUNT n) VAT_COUNT_EXPECTED ≠ 0 ∧
        rdF s (R_VAT_COUNT n) VAT_COUNT_EXPECTED ≤ (rdF s (R_VAT_COUNT n) VAT_COUNT_TALLY + 1) % 2 ^ VAT_COUNT_TALLY.width := by
  rw [reachesExpected_iff, rdF_expected_tallyCounted, rdF_tally_tallyCounted]

theorem tallyVat_of_done {s : State} {n : Nat} (done : rdB s (R_VAT_CTL n) VAT_CTL_DONE = true) :
    tallyVat s n = (addSat (occur s EV_TALLY) (R_VAT_FLAGS n) VAT_FLAGS_EARLY 1, []) :=
  if_pos (by rwa [rdB, rd_occur, ← rdB])

/-- A step that leaves TALLY short of EXPECTED, or meets EXPECTED 0, counts and does no more. -/
theorem tallyVat_of_not_reached {s : State} {n : Nat} (waiting : rdB s (R_VAT_CTL n) VAT_CTL_DONE = false)
    (short : reachesExpected (tallyCounted s n) n = false) : tallyVat s n = (tallyCounted s n, []) :=
  (if_neg (by rw [rdB, rd_occur, ← rdB]; simp [waiting])).trans (if_neg (by simpa [tallyCounted] using short))

/-- A step that brings TALLY to EXPECTED completes the vat. -/
theorem tallyVat_of_reached {s : State} {n : Nat} (waiting : rdB s (R_VAT_CTL n) VAT_CTL_DONE = false)
    (reached : reachesExpected (tallyCounted s n) n = true) : tallyVat s n = completeVat (tallyCounted s n) n :=
  (if_neg (by rw [rdB, rd_occur, ← rdB]; simp [waiting])).trans (if_pos reached)

/-- A DONE vat takes its steps in EARLY alone, which a REARM credits (R113). -/
theorem tallyVat_done_counts_early {n : Nat} (hn : n < 1024) {s : State} (done : rdB s (R_VAT_CTL n) VAT_CTL_DONE = true) :
    let t := (tallyVat s n).1
    rdF t (R_VAT_FLAGS n) VAT_FLAGS_EARLY = min (rdF s (R_VAT_FLAGS n) VAT_FLAGS_EARLY + 1) (2 ^ VAT_FLAGS_EARLY.width - 1) ∧
      rd t (R_VAT_COUNT n) = rd s (R_VAT_COUNT n) ∧ rd t (R_VAT_CTL n) = rd s (R_VAT_CTL n) ∧ rd t (R_VAT_EVENTS n) = rd s (R_VAT_EVENTS n) := by
  obtain ⟨hcount, hctl, hevents⟩ := wrF_vatFlags_leaves hn (occur s EV_TALLY) VAT_FLAGS_EARLY
    (min (rdF (occur s EV_TALLY) (R_VAT_FLAGS n) VAT_FLAGS_EARLY + 1) (2 ^ VAT_FLAGS_EARLY.width - 1))
  rw [rd_occur] at hcount hctl hevents
  rw [tallyVat_of_done done]
  refine ⟨?_, hcount, hctl, hevents⟩
  rw [rdF_addSat _ _ _ (by decide), rdF, rd_occur, ← rdF]

/-- The step that brings TALLY to EXPECTED counts a completion, then re-arms the vat or sets DONE (R112). -/
theorem tallyVat_reached_completes {n : Nat} (hn : n < 1024) {s : State} (waiting : rdB s (R_VAT_CTL n) VAT_CTL_DONE = false)
    (reached : reachesExpected (tallyCounted s n) n = true) :
    let t := (tallyVat s n).1
    rdF t (R_VAT_EVENTS n) VAT_EVENTS_COMPLETIONS = (rdF s (R_VAT_EVENTS n) VAT_EVENTS_COMPLETIONS + 1) % 2 ^ VAT_EVENTS_COMPLETIONS.width ∧
      (rdB s (R_VAT_CTL n) VAT_CTL_AUTO_REARM = true → rdF t (R_VAT_COUNT n) VAT_COUNT_TALLY = 0 ∧ rd t (R_VAT_CTL n) = rd s (R_VAT_CTL n)) ∧
      (rdB s (R_VAT_CTL n) VAT_CTL_AUTO_REARM = false →
        rdF t (R_VAT_COUNT n) VAT_COUNT_TALLY = (rdF s (R_VAT_COUNT n) VAT_COUNT_TALLY + 1) % 2 ^ VAT_COUNT_TALLY.width ∧
          rdB t (R_VAT_CTL n) VAT_CTL_DONE = true) := by
  obtain ⟨hctl, hevents⟩ := tallyCounted_leaves hn s
  rw [tallyVat_of_reached waiting reached]
  refine ⟨?_, fun rearms => ?_, fun stays => ?_⟩
  · rw [completeVat_completions hn, rdF, hevents, ← rdF]
  · obtain ⟨htally, hkept⟩ := completeVat_of_autoRearm hn (s := tallyCounted s n) (by rwa [rdB, hctl])
    exact ⟨htally, hkept.trans hctl⟩
  · obtain ⟨hcount, hdone⟩ := completeVat_of_not_autoRearm hn (s := tallyCounted s n) (by rwa [rdB, hctl])
    exact ⟨by rw [rdF, hcount, ← rdF, rdF_tally_tallyCounted], hdone⟩

theorem execTallyStep_of_same_entry {s : State} {x : TallyWait} (hnext : nextTally s = some x) (hfree : pairBlocked s (storePort s) = false)
    (hgen : vatGenOf s x.vat = x.gen) (hvalid : vatValid s x.vat = true) :
    let r := tallyVat { s with tallies := s.tallies.erase x } x.vat
    execTallyStep s = .next (forwardVat r.1 x.vat ([.release x.who x.uid, .vatEvent x.vat (vatView r.1 x.vat)] ++ r.2)) := by
  have same : (vatGenOf s x.vat = x.gen && vatValid s x.vat) = true := by simp [hgen, hvalid]
  simp only [execTallyStep, hnext, hfree]
  exact if_pos same

/-- The generation tells an entry that was made invalid and valid again from the one that the ACC found (R111, R119). -/
theorem execTallyStep_of_other_entry {s : State} {x : TallyWait} (hnext : nextTally s = some x) (hfree : pairBlocked s (storePort s) = false)
    (hother : vatGenOf s x.vat ≠ x.gen ∨ vatValid s x.vat = false) :
    execTallyStep s = .next (releaseWait { s with tallies := s.tallies.erase x } x.who x.uid) := by
  have other : ¬(vatGenOf s x.vat = x.gen && vatValid s x.vat) = true := by
    obtain hgen | hvalid := hother
    · simp [hgen]
    · simp [hvalid]
  simp only [execTallyStep, hnext, hfree]
  exact if_neg other

end Sys2Proof.Machine
end

section
/-! PROOF. The statement of chapter 05 on the tally steps. -/

namespace Sys2Proof.Machine

/-- Settles O15: the entry that the lookup found decides whether the step counts; a counted step goes by DONE, then by whether TALLY
reaches EXPECTED, then by AUTO_REARM. -/
theorem tallyStepsCountAndComplete : Obligations.TallyStepsCountAndComplete := by
  refine ⟨⟨fun _ _ => execTallyStep_of_same_entry, fun _ _ => execTallyStep_of_other_entry⟩, fun s n hn => ⟨fun done => ?_, fun waiting => ?_⟩⟩
  · exact ⟨by rw [tallyVat_of_done done], tallyVat_done_counts_early hn done⟩
  · refine ⟨fun short => ?_, fun reached => ?_⟩
    · have notReached : reachesExpected (tallyCounted s n) n = false := by
        rw [Bool.eq_false_iff, ne_eq, reachesExpected_tallyCounted_iff]
        omega
      rw [tallyVat_of_not_reached waiting notReached]
      exact ⟨rdF_tally_tallyCounted s n, tallyCounted_leaves hn s⟩
    · exact tallyVat_reached_completes hn waiting ((reachesExpected_tallyCounted_iff s n).mpr reached)

end Sys2Proof.Machine
end

section
/-! SUPPORT. Stored codewords: a codeword that is written reads back, and one codeword's bytes are no other's (R217). -/

namespace Sys2Proof.Machine

theorem cellBytes_setCellBytes_other (s : State) (key k n : Nat) (bs : List Byte) (h : k + n ≤ key ∨ key + bs.length ≤ k) :
    cellBytes (setCellBytes s key bs) k n = cellBytes s k n := by
  induction n generalizing k with
  | zero => rfl
  | succ n ih => rw [cellBytes, cellBytes, cellByte_setCellBytes_other _ _ _ _ (by omega), ih _ (by omega)]

theorem setCellBytes_append (s : State) (key : Nat) (as bs : List Byte) :
    setCellBytes s key (as ++ bs) = setCellBytes (setCellBytes s key as) (key + as.length) bs := by
  induction as generalizing s key with
  | nil => rfl
  | cons a as ih =>
    rw [List.cons_append, setCellBytes, ih, setCellBytes, List.length_cons, Nat.add_comm as.length 1, Nat.add_assoc]

theorem cellBytes_setCellBytes_same (s : State) (key : Nat) (bs : List Byte) :
    cellBytes (setCellBytes s key bs) key bs.length = bs := by
  induction bs generalizing s key with
  | nil => rfl
  | cons b bs ih =>
    rw [List.length_cons, cellBytes, setCellBytes, ih, cellByte_setCellBytes_other _ _ _ _ (by omega), cellByte_setCellByte]

/-- Writing a codeword changes nothing but the cells. -/
theorem writeCw_eq (s : State) (unit line cw : Nat) (c : Cw) : ∃ m, writeCw s unit line cw c = { s with cells := m } := setCellBytes_eq _ _ _

@[simp] theorem unitUndefined_writeCw (s : State) (unit line cw : Nat) (c : Cw) (u : Nat) :
    unitUndefined (writeCw s unit line cw c) u = unitUndefined s u := by
  obtain ⟨m, h⟩ := writeCw_eq s unit line cw c
  rw [h]
  rfl

theorem ofNat_leNat_leBytes {w : Nat} (n : Nat) (v : BitVec w) (h : w ≤ 8 * n) : BitVec.ofNat w (leNat (leBytes n v.toNat)) = v := by
  have hpow : 2 ^ w ≤ 256 ^ n := by
    rw [show 256 = 2 ^ 8 from rfl, ← Nat.pow_mul]
    exact Nat.pow_le_pow_right (by decide) h
  rw [leNat_leBytes, Nat.mod_eq_of_lt (Nat.lt_of_lt_of_le v.isLt hpow), BitVec.ofNat_toNat, BitVec.setWidth_eq]

/-- The bits that are stored read back, in a unit whose cells are defined (R252). -/
theorem readCw_writeCw_same (s : State) (unit line cw : Nat) (c : Cw) (h : unitUndefined s unit = false) :
    readCw (writeCw s unit line cw c) unit line cw = c := by
  have hkey : cellKey unit line cw 32 = cellKey unit line cw 0 + (leBytes 32 c.data.toNat).length := by rw [length_leBytes]; rfl
  have hdata : cellBytes (writeCw s unit line cw c) (cellKey unit line cw 0) 32 = leBytes 32 c.data.toNat := by
    have key := cellBytes_setCellBytes_same s (cellKey unit line cw 0) (leBytes 32 c.data.toNat)
    rw [writeCw, setCellBytes_append, cellBytes_setCellBytes_other _ _ _ _ _ (by rw [length_leBytes]; omega)]
    rwa [length_leBytes] at key
  have hcheck : cellBytes (writeCw s unit line cw c) (cellKey unit line cw 32) 3 = leBytes 3 c.check.toNat := by
    have key := cellBytes_setCellBytes_same (setCellBytes s (cellKey unit line cw 0) (leBytes 32 c.data.toNat)) (cellKey unit line cw 32)
      (leBytes 3 c.check.toNat)
    rwa [length_leBytes, hkey, ← setCellBytes_append, ← hkey] at key
  rw [readCw, unitUndefined_writeCw, h, if_neg Bool.false_ne_true, rawBits, hdata, hcheck, ofNat_leNat_leBytes 32 _ (by decide),
    ofNat_leNat_leBytes 3 _ (by decide)]

theorem cellByte_writeCw_other (s : State) (unit line cw : Nat) (c : Cw) (k : Nat)
    (h : k < cellKey unit line cw 0 ∨ cellKey unit line cw 0 + 35 ≤ k) : cellByte (writeCw s unit line cw c) k = cellByte s k :=
  cellByte_setCellBytes_other _ _ _ _ (by simpa [length_leBytes] using h)

/-- Writing a codeword leaves the codewords of the unit's other lines as they read. -/
theorem readCw_writeCw_other (s : State) (unit : Nat) {line j : Nat} (c : Cw) (h : j ≠ line) :
    readCw (writeCw s unit line 0 c) unit j 0 = readCw s unit j 0 := by
  have hbytes : ∀ off n, off + n ≤ 64 →
      cellBytes (writeCw s unit line 0 c) (cellKey unit j 0 off) n = cellBytes s (cellKey unit j 0 off) n := fun off n hn =>
    cellBytes_setCellBytes_other _ _ _ _ _ (by
      simp only [cellKey, List.length_append, length_leBytes]
      omega)
  obtain ⟨m, hm⟩ := writeCw_eq s unit line 0 c
  have hfree : (writeCw s unit line 0 c).free = s.free := by rw [hm]
  rw [readCw, readCw, unitUndefined_writeCw, rawBits, rawBits, hbytes 0 32 (by decide), hbytes 32 3 (by decide), hfree]

/-- What a codeword reads as depends on the cells, on the units left undefined and, in those, on the free values. -/
theorem readCw_congr {s t : State} {unit : Nat} (hcells : t.cells = s.cells) (htest : t.test = s.test) (h : unitUndefined s unit = false)
    (line cw : Nat) : readCw t unit line cw = readCw s unit line cw := by
  have hbyte : ∀ k, cellByte t k = cellByte s k := fun k => by rw [cellByte, cellByte, hcells]
  have hbytes : ∀ n k, cellBytes t k n = cellBytes s k n := fun n => by
    induction n with
    | zero => exact fun _ => rfl
    | succ n ih => exact fun k => by rw [cellBytes, cellBytes, hbyte, ih]
  have hundef : unitUndefined t unit = false := by rw [unitUndefined, htest]; exact h
  rw [readCw, readCw, hundef, h, if_neg Bool.false_ne_true, if_neg Bool.false_ne_true, rawBits, rawBits, hbytes, hbytes]

end Sys2Proof.Machine
end

section
/-! SUPPORT. The codewords of a mailbox (R120, R129): those that an operation stores, each at most once, and what storing them leaves. -/

namespace Sys2Proof.Machine

/-! ### Storing codewords of a mailbox -/

theorem mbxPut_cons (s : State) (n : Nat) (c : Nat × List Byte) (cws : List (Nat × List Byte)) :
    mbxPut s n (c :: cws) = mbxPut (writeCw s 67 (7 * n + c.1) 0 (encodeCw (cwOfBytes c.2))) n cws := List.foldl_cons ..

/-- Storing codewords of a mailbox changes nothing but the cells. -/
theorem mbxPut_eq (s : State) (n : Nat) (cws : List (Nat × List Byte)) : ∃ m, mbxPut s n cws = { s with cells := m } := by
  induction cws generalizing s with
  | nil => exact ⟨s.cells, rfl⟩
  | cons c cws ih =>
    obtain ⟨m, hm⟩ := writeCw_eq s 67 (7 * n + c.1) 0 (encodeCw (cwOfBytes c.2))
    obtain ⟨m', hm'⟩ := ih { s with cells := m }
    exact ⟨m', by rw [mbxPut_cons, hm, hm']⟩

/-- Codewords 0 to 6 lie within the mailbox's own keys. -/
theorem cellByte_mbxPut_outside (s : State) (n : Nat) {cws : List (Nat × List Byte)} (hcws : ∀ c ∈ cws, c.1 < 7) :
    SameCellsOutside s (mbxPut s n cws) (cellKey 67 (7 * n) 0 0) (cellKey 67 (7 * n + 7) 0 0) := by
  intro k hk
  induction cws generalizing s with
  | nil => rfl
  | cons c cws ih =>
    have hc : c.1 < 7 := hcws c List.mem_cons_self
    rw [mbxPut_cons, ih _ fun x hx => hcws x (List.mem_cons_of_mem c hx), cellByte_writeCw_other]
    simp only [cellKey] at hk ⊢
    omega

theorem readCw_mbxPut_other (s : State) (n : Nat) {k : Nat} {cws : List (Nat × List Byte)} (h : ∀ c ∈ cws, c.1 ≠ k) :
    readCw (mbxPut s n cws) 67 (7 * n + k) 0 = readCw s 67 (7 * n + k) 0 := by
  induction cws generalizing s with
  | nil => rfl
  | cons c cws ih =>
    have hc : c.1 ≠ k := h c List.mem_cons_self
    rw [mbxPut_cons, ih _ fun x hx => h x (List.mem_cons_of_mem c hx), readCw_writeCw_other _ _ _ (by omega)]

/-- Each of the codewords stored, no two of them the same one, reads back encoded anew. -/
theorem readCw_mbxPut_mem {s : State} (hdef : unitUndefined s 67 = false) (n : Nat) {cws : List (Nat × List Byte)}
    (hdistinct : cws.Pairwise fun a b => a.1 ≠ b.1) {x : Nat × List Byte} (hx : x ∈ cws) :
    readCw (mbxPut s n cws) 67 (7 * n + x.1) 0 = encodeCw (cwOfBytes x.2) := by
  induction cws generalizing s with
  | nil => exact absurd hx List.not_mem_nil
  | cons c cws ih =>
    obtain ⟨hfirst, hrest⟩ := List.pairwise_cons.mp hdistinct
    rw [mbxPut_cons]
    obtain rfl | hx := List.mem_cons.mp hx
    · rw [readCw_mbxPut_other _ _ fun c hc => (hfirst c hc).symm, readCw_writeCw_same _ _ _ _ _ hdef]
    · exact ih (by rwa [unitUndefined_writeCw]) hrest hx

/-! ### The codewords that an operation stores (R120, R129) -/

theorem mbxCodewords_lt {o : StoreOp} {k : Nat} (h : k ∈ mbxCodewords o) : k < 7 := by
  unfold mbxCodewords at h
  split at h
  · have hk := List.mem_singleton.mp h
    omega
  · obtain ⟨hrange, -⟩ := List.mem_filter.mp h
    have hk := List.mem_range.mp hrange
    omega

theorem mbxCodewords_nodup (o : StoreOp) : (mbxCodewords o).Nodup := by
  unfold mbxCodewords
  split
  · exact List.pairwise_singleton _ 6
  · exact List.nodup_range.filter _

/-- The codewords stored are some of 0 to 6, each at most once. -/
def StoresApart (cws : List (Nat × List Byte)) : Prop := (∀ c ∈ cws, c.1 < 7) ∧ cws.Pairwise fun a b => a.1 ≠ b.1

theorem storesApart_nil : StoresApart [] := ⟨fun _ h => absurd h List.not_mem_nil, List.Pairwise.nil⟩

theorem storesApart_control (bs : List Byte) : StoresApart [(6, bs)] :=
  ⟨fun c hc => by rw [List.mem_singleton.mp hc]; exact (by decide : 6 < 7), List.pairwise_singleton _ _⟩

theorem storesApart_filterMap {ks : List Nat} (hlt : ∀ k ∈ ks, k < 7) (hks : ks.Nodup) {f : Nat → Option (Nat × List Byte)}
    (hf : ∀ k c, f k = some c → c.1 = k) : StoresApart (ks.filterMap f) := by
  refine ⟨fun c hc => ?_, List.Pairwise.filterMap f (fun k j hne c hc d hd => ?_) hks⟩
  · obtain ⟨k, hk, hkc⟩ := List.mem_filterMap.mp hc
    exact hf k c hkc ▸ hlt k hk
  · rwa [hf k c hc, hf j d hd]

/-- A payload WRITE stores codewords among those that it addresses; the other operations that store write the control codeword. -/
theorem mbxStores_apart (s : State) (o : StoreOp) : StoresApart (mbxStores s o) := by
  unfold mbxStores
  dsimp only
  split
  · split
    · refine storesApart_filterMap (fun k => mbxCodewords_lt) (mbxCodewords_nodup o) fun k c hc => ?_
      split at hc
      · exact nomatch hc
      · exact (Option.some.inj hc) ▸ rfl
    · exact storesApart_nil
  · exact storesApart_control _
  · exact storesApart_control _
  · exact storesApart_control _
  · exact storesApart_nil

theorem mbxStores_of_doorbell (s : State) {o : StoreOp} (h : o.kind = .mbxDoorbell) :
    let d := mbxDecode s o.n 6
    mbxStores s o = [(6, leBytes 8 o.value ++ leBytes 8 (doorbellStatus (mbxWord d 1) o.writer) ++ leBytes 8 (mbxWord d 2) ++
      leBytes 8 (mbxWord d 3 + 1))] := by
  simp only [mbxStores, h]

theorem mbxStores_of_claim (s : State) {o : StoreOp} (h : o.kind = .mbxClaim) :
    let d := mbxDecode s o.n 6
    mbxStores s o = [(6, leBytes 8 (mbxWord d 0) ++ leBytes 8 (claimedStatus (mbxWord d 1)) ++ leBytes 8 (mbxWord d 2) ++
      leBytes 8 (mbxWord d 3))] := by
  simp only [mbxStores, h]

theorem mbxData_of_status {o : StoreOp} (s : State) (h : o.off = 0xC8) : mbxData s o = leBytes 8 (mbxWord (mbxDecode s o.n 6) 1) := by
  simp [mbxData, h]

end Sys2Proof.Machine
end

section
/-! SUPPORT. The STATUS word of a mailbox (R123, R125): its fields after a doorbell and after a claim. -/

namespace Sys2Proof.Machine

/-- A STATUS word of its fields (R123). -/
def statusWord (events : Nat) (overrun : Bool) (id slot : Nat) : Nat := events + (b01 overrun) <<< 16 + id <<< 32 + slot <<< 37

theorem statusWord_fields {events id slot : Nat} (overrun : Bool) (hevents : events ≤ 0xFFFF) (hid : id < 32) (hslot : slot < 4) :
    let st := statusWord events overrun id slot
    stEvents st = events ∧ stOverrun st = overrun ∧ bitsOf st 36 32 = id ∧ bitsOf st 38 37 = slot := by
  have hb : b01 overrun ≤ 1 := by cases overrun <;> decide
  refine ⟨?_, ?_, ?_, ?_⟩
  · unfold stEvents statusWord
    omega
  · have hbit : statusWord events overrun id slot >>> 16 % 2 = b01 overrun := by
      unfold statusWord
      omega
    rw [stOverrun, bitOf, hbit]
    cases overrun <;> rfl
  · unfold bitsOf statusWord
    omega
  · unfold bitsOf statusWord
    omega

theorem doorbellStatus_eq (st : Nat) (w : Who) :
    doorbellStatus st w = statusWord (min 0xFFFF (stEvents st + 1)) (stOverrun st || stEvents st != 0) (whoId w) (whoSlot w) := rfl

theorem claimedStatus_eq (st : Nat) : claimedStatus st = statusWord 0 false (bitsOf st 36 32) (bitsOf st 38 37) := by
  have unset : b01 false = 0 := rfl
  unfold claimedStatus statusWord bitsOf
  omega

end Sys2Proof.Machine
end

section
/-! SUPPORT. What serving a mailbox operation touches beside the codewords it stores (R120–R129): queues, counters, logs, trace and the
answer leave both stores, the banks, the list of commits and the interrupt controller's events alone. -/

namespace Sys2Proof.Machine

/-- The memory, the banks, the semaphores' queue, the mailbox store's cycle and commits, and the events on their way to the interrupt
controller are as before. -/
structure LeavesStores (s t : State) : Prop where
  cells : t.cells = s.cells
  banks : t.banks = s.banks
  semq : t.semq = s.semq
  mbxServed : t.mbxServed = s.mbxServed
  commits : t.commits = s.commits
  intcEvents : t.intcEvents = s.intcEvents
  test : t.test = s.test

/-- Nor has anything been forwarded: device time, the next unit's number and the state of the pair are as before too. -/
structure LeavesPair (s t : State) : Prop extends LeavesStores s t where
  time : t.time = s.time
  nextUid : t.nextUid = s.nextUid
  pairStat : rd t R_PR_STAT = rd s R_PR_STAT

theorem LeavesStores.trans {s t u : State} (h : LeavesStores s t) (k : LeavesStores t u) : LeavesStores s u :=
  ⟨k.cells.trans h.cells, k.banks.trans h.banks, k.semq.trans h.semq, k.mbxServed.trans h.mbxServed, k.commits.trans h.commits,
    k.intcEvents.trans h.intcEvents, k.test.trans h.test⟩

theorem LeavesPair.trans {s t u : State} (h : LeavesPair s t) (k : LeavesPair t u) : LeavesPair s u :=
  ⟨h.toLeavesStores.trans k.toLeavesStores, k.time.trans h.time, k.nextUid.trans h.nextUid, k.pairStat.trans h.pairStat⟩

/-- An update of the other fields, no register among them. -/
theorem leavesPair_update (s : State) {free : Nat} {txns : List Txn} {mbxq mbxStage : List StoreOp} {queues : List (Nat × Queue)}
    {integ : Integ} {mgmt : Mgmt} {obs : Obs} :
    LeavesPair s { s with free := free, txns := txns, mbxq := mbxq, mbxStage := mbxStage, queues := queues, integ := integ, mgmt := mgmt,
                          obs := obs } :=
  ⟨⟨rfl, rfl, rfl, rfl, rfl, rfl, rfl⟩, rfl, rfl, rfl⟩

theorem LeavesPair.refl (s : State) : LeavesPair s s := leavesPair_update s

theorem leavesPair_foldl {α : Type} {f : State → α → State} (h : ∀ s x, LeavesPair s (f s x)) (l : List α) (s : State) :
    LeavesPair s (l.foldl f s) := by
  induction l generalizing s with
  | nil => exact .refl s
  | cons x l ih => exact (h s x).trans (ih _)

theorem LeavesPair.pairForwards_eq {s t : State} (h : LeavesPair s t) : pairForwards t = pairForwards s := by
  unfold pairForwards pairState rdF rdB
  rw [h.pairStat]

theorem LeavesStores.unitUndefined_eq {s t : State} (h : LeavesStores s t) (unit : Nat) : unitUndefined t unit = unitUndefined s unit := by
  rw [unitUndefined, h.test, ← unitUndefined]

/-- What is left as it is stays so beside a change of the cells. -/
theorem LeavesPair.withCells {s t : State} (h : LeavesPair s t) (m : List Host.Cell) : LeavesPair { s with cells := m } { t with cells := m } :=
  ⟨⟨rfl, h.banks, h.semq, h.mbxServed, h.commits, h.intcEvents, h.test⟩, h.time, h.nextUid, h.pairStat⟩

/-- Storing codewords of a mailbox changes the cells and nothing else. -/
theorem mbxPut_leavesPair (s : State) (n : Nat) (cws : List (Nat × List Byte)) :
    LeavesPair { s with cells := (mbxPut s n cws).cells } (mbxPut s n cws) := by
  obtain ⟨m, h⟩ := mbxPut_eq s n cws
  rw [h]
  exact .refl _

/-! ### Counters -/

theorem wr_leavesPair (s : State) {key : Nat} (w : Word64) (h : R_PR_STAT ≠ key) : LeavesPair s (wr s key w) := by
  have hstat : rd (wr s key w) R_PR_STAT = rd s R_PR_STAT := rd_wr_other s w h (.inl (by decide))
  obtain ⟨r, k, heq⟩ := wr_eq s key w
  rw [heq] at hstat ⊢
  exact ⟨⟨rfl, rfl, rfl, rfl, rfl, rfl, rfl⟩, rfl, rfl, hstat⟩

theorem addSat_leavesPair (s : State) {key : Nat} (f : Fld) (n : Nat) (h : R_PR_STAT ≠ key) : LeavesPair s (addSat s key f n) :=
  wr_leavesPair s _ h

theorem addWrap_leavesPair (s : State) {key : Nat} (f : Fld) (n : Nat) (h : R_PR_STAT ≠ key) : LeavesPair s (addWrap s key f n) :=
  wr_leavesPair s _ h

theorem countSat_leavesPair (s : State) (block : Nat) {key : Nat} (f : Fld) (n : Nat) (h : R_PR_STAT ≠ key) :
    LeavesPair s (countSat s block key f n) := by
  unfold countSat
  split
  · exact addSat_leavesPair s f n h
  · exact .refl s

theorem countWrap_leavesPair (s : State) (block : Nat) {key : Nat} (f : Fld) (n : Nat) (h : R_PR_STAT ≠ key) :
    LeavesPair s (countWrap s block key f n) := by
  unfold countWrap
  split
  · exact addWrap_leavesPair s f n h
  · exact .refl s

theorem occur_leavesPair (s : State) (ev : Nat) : LeavesPair s (occur s ev) := by
  unfold occur occurN
  split
  · exact .refl s
  · exact leavesPair_update s

/-- The counters of a doorbell (R123). -/
theorem doorbellCount_leavesPair (s : State) (found : Nat) : LeavesPair s (doorbellCount s found) := by
  have counted := (countWrap_leavesPair s 0x15 MBX_DOORBELLS_COUNT 1 (show R_PR_STAT ≠ R_MBX_DOORBELLS by decide)).trans
    (occur_leavesPair _ EV_DOORBELLS)
  unfold doorbellCount
  dsimp only
  split
  · exact counted
  · exact counted.trans (countSat_leavesPair _ _ _ _ (by decide))

/-! ### Findings -/

theorem countUnit_leavesPair (s : State) {unit : Nat} (f : Fld) (h : unit < 68) : LeavesPair s (countUnit s unit f) := by
  have hkey : R_PR_STAT ≠ R_INT_UNITERR unit := by
    unfold R_PR_STAT R_INT_UNITERR
    omega
  unfold countUnit
  split
  · exact ⟨⟨rfl, rfl, rfl, rfl, rfl, rfl, rfl⟩, rfl, rfl, sget_sset_ne _ _ _ _ hkey⟩
  · exact .refl s

theorem countFinding_leavesPair (s : State) {unit : Nat} (corrected : Bool) (h : unit < 68) :
    LeavesPair s (countFinding s unit corrected) := by
  have counted : ∀ f total ev, LeavesPair s (occur (countSat (countUnit s unit f) 0x11 R_INT_TOTALS total 1) ev) := fun f _ _ =>
    ((countUnit_leavesPair s f h).trans (countSat_leavesPair _ _ _ _ (by decide))).trans (occur_leavesPair _ _)
  unfold countFinding
  split
  · exact counted _ _ _
  · exact counted _ _ _

theorem logIntake_leavesPair (s : State) (e : LogEntry) : LeavesPair s (logIntake s e) := by
  unfold logIntake
  split
  · split
    · exact addSat_leavesPair s _ _ (by decide)
    · exact addSat_leavesPair s _ _ (by decide)
  · exact leavesPair_update s

theorem storeFinding_leavesPair (s : State) {unit : Nat} (line addr : Nat) (f : Finding) (h : unit < 68) :
    LeavesPair s (storeFinding s unit line addr f) :=
  (countFinding_leavesPair s _ h).trans (logIntake_leavesPair _ _)

theorem mbxFindings_leavesPair (s0 s : State) (o : StoreOp) (stored : List Nat) : LeavesPair s (mbxFindings s0 s o stored) := by
  refine leavesPair_foldl (fun s k => ?_) _ s
  dsimp only
  split
  · exact storeFinding_leavesPair s _ _ _ (by decide)
  · exact storeFinding_leavesPair s _ _ _ (by decide)
  · exact .refl s

/-! ### Queues, answers and the trace -/

theorem mbxEnter_leavesPair (s : State) (o : StoreOp) : LeavesPair s (mbxEnter s o) := by
  unfold mbxEnter
  split
  · exact leavesPair_update s
  · exact leavesPair_update s

theorem mbxRefill_leavesPair (s : State) : LeavesPair s (mbxRefill s) :=
  (leavesPair_update s).trans (leavesPair_foldl mbxEnter_leavesPair _ _)

theorem samplePoint_leavesPair (s : State) (who : Who) (uid dest bank gsize gpos : Nat) :
    LeavesPair s (samplePoint s who uid dest bank gsize gpos) := by
  cases who with
  | port p slot => exact leavesPair_update s
  | _ => exact .refl s

theorem answerPart_leavesPair (s : State) (who : Who) (uid half : Nat) (st : Status) (ce sup : Bool) (data : List Byte) (waits : Nat) :
    LeavesPair s (answerPart s who uid half st ce sup data waits) := by
  cases who with
  | port p slot => exact leavesPair_update s
  | engine e q => exact leavesPair_update s
  | sc => exact leavesPair_update s
  | _ => exact .refl s

theorem releaseWait_leavesPair (s : State) (who : Who) (uid : Nat) : LeavesPair s (releaseWait s who uid) := by
  cases who with
  | port p slot => exact leavesPair_update s
  | engine e q => exact leavesPair_update s
  | sc => exact leavesPair_update s
  | _ => exact .refl s

theorem trace_leavesPair (s : State) (x : TraceInfo) : LeavesPair s (trace s x) := by
  unfold trace
  split
  · exact leavesPair_update s
  · exact .refl s

/-! ### Forwarding (R328, R332, R334) -/

/-- A store's change goes to the partner as a unit; without a partner its requester's wait ends at once. -/
theorem pairForward_release_leavesStores (s : State) (p : Nat) (mk : Nat → List Byte) (who : Who) (uid : Nat) :
    LeavesStores s (pairForward s p mk none [.release who uid]) := by
  unfold pairForward
  split
  · dsimp only
    refine LeavesStores.trans ?_ (((addWrap_leavesPair _ _ _ (by decide)).trans (addWrap_leavesPair _ _ _ (by decide))).trans
      (occur_leavesPair _ _)).toLeavesStores
    exact ⟨rfl, rfl, rfl, rfl, rfl, rfl, rfl⟩
  · exact (releaseWait_leavesPair s who uid).toLeavesStores

end Sys2Proof.Machine
end

section
/-! SUPPORT. An operation that the mailbox store serves, stage by stage (R120–R129): it is taken, its codewords are stored, it is answered,
noted for its commit, and its change forwarded. -/

namespace Sys2Proof.Machine

/-- The operation has left its queue and has the store's cycle. -/
def mbxTaken (s : State) (o : StoreOp) : State :=
  samplePoint (occur (mbxRefill { bumpFree s 67 with mbxq := s.mbxq.erase o, mbxServed := some s.time }) EV_MBX_SERVED) o.who o.uid 2 0xFF 1 0

/-- The codewords that the operation stores: none when its status is not OK. -/
def mbxStored (s : State) (o : StoreOp) : List (Nat × List Byte) := if mbxStatus s o = .ok then mbxStores s o else []

/-- Whether the operation corrected an error in a codeword that it reads (R226). -/
def mbxCorrected (s : State) (o : StoreOp) : Bool :=
  mbxStatus s o != .ue && (mbxCodewords o).any (fun k => (mbxDecode s o.n k).outcome = .corrected && mbxMerges o k)

/-- Whether the operation has a commit (R128). -/
def mbxCommits (s : State) (o : StoreOp) : Bool := mbxStatus s o = .ok && (o.code != 1 || o.kind = .mbxClaim)

/-- The findings, counters, trace entry and answer of the operation, with `t` the state that has its codewords stored. -/
def mbxAnswered (s : State) (o : StoreOp) (t : State) : State :=
  let data := if o.code = 1 && mbxStatus s o = .ok then mbxData s o else []
  let t := mbxFindings s t o ((mbxStored s o).map (fun c => c.1))
  let t := if mbxStatus s o = .ok && o.kind = .mbxDoorbell then doorbellCount t (stEvents (mbxWord (mbxDecode s o.n 6) 1)) else t
  let t := traceStore t o (0xFE400000 + 256 * o.n + o.off) 65 2 (mbxStatus s o) (mbxCorrected s o) data
  answerPart t o.who o.uid 0 (mbxStatus s o) (mbxCorrected s o) false data (b01 (mbxCommits s o) + b01 (mbxChanges s o))

/-- The entry of the operation in the list of those served and not committed, with the state `t` in which it is noted. -/
def mbxCommitEntry (s : State) (o : StoreOp) (t : State) : MbxCommit :=
  { servedAt := t.time, who := o.who, write := o.code != 1, uid := o.uid,
    ringEvent := if o.kind = .mbxDoorbell then some (o.n, o.value, mbxWord (mbxDecode s o.n 6) 2) else none,
    unitNum := if mbxChanges s o && pairForwards t then some t.nextUid else none }

/-- An operation that has a commit is noted for it. -/
def mbxNoted (s : State) (o : StoreOp) (t : State) : State :=
  if mbxCommits s o then { t with commits := t.commits ++ [mbxCommitEntry s o t] } else t

/-- A change is handed to the pair's forwarding. -/
def mbxForwarded (s : State) (o : StoreOp) (t : State) : State :=
  if mbxChanges s o then
    pairForward t (storePort t) (mbxBytes o.n (((mbxStored s o).map (fun c => 2 ^ c.1)).foldl (· + ·) 0) (mbxOpen t o.n)
      ((mbxStored s o).flatMap (fun c => c.2))) none [.release o.who o.uid]
  else t

theorem mbxServeOp_eq (s : State) (o : StoreOp) :
    mbxServeOp s o = mbxForwarded s o (mbxNoted s o (mbxAnswered s o (mbxPut (mbxTaken s o) o.n (mbxStored s o)))) := rfl

/-- Taking an operation gives it the store's cycle; the memory and the rest stay. -/
theorem mbxTaken_leavesPair (s : State) (o : StoreOp) : LeavesPair { s with mbxServed := some s.time } (mbxTaken s o) := by
  have begun : LeavesPair { s with mbxServed := some s.time } { bumpFree s 67 with mbxq := s.mbxq.erase o, mbxServed := some s.time } := by
    unfold bumpFree
    split
    · exact leavesPair_update { s with mbxServed := some s.time }
    · exact leavesPair_update { s with mbxServed := some s.time }
  exact ((begun.trans (mbxRefill_leavesPair _)).trans (occur_leavesPair _ _)).trans (samplePoint_leavesPair _ _ _ _ _ _ _)

theorem mbxAnswered_leavesPair (s : State) (o : StoreOp) (t : State) : LeavesPair t (mbxAnswered s o t) := by
  have rung : ∀ u : State, LeavesPair u
      (if mbxStatus s o = .ok && o.kind = .mbxDoorbell then doorbellCount u (stEvents (mbxWord (mbxDecode s o.n 6) 1)) else u) := fun u => by
    split
    · exact doorbellCount_leavesPair u _
    · exact .refl u
  exact (((mbxFindings_leavesPair s t o _).trans (rung _)).trans (trace_leavesPair _ _)).trans
    (answerPart_leavesPair _ _ _ _ _ _ _ _ _)

theorem mbxForwarded_leavesStores (s : State) (o : StoreOp) (t : State) : LeavesStores t (mbxForwarded s o t) := by
  unfold mbxForwarded
  split
  · exact pairForward_release_leavesStores t _ _ _ _
  · exact (LeavesPair.refl t).toLeavesStores

/-- The entry names the state only by its time, its next unit and whether it forwards. -/
theorem mbxCommitEntry_congr (s : State) (o : StoreOp) {t u : State} (h : LeavesPair t u) : mbxCommitEntry s o u = mbxCommitEntry s o t := by
  rw [mbxCommitEntry, h.time, h.nextUid, h.pairForwards_eq, ← mbxCommitEntry]

theorem mbxNoted_leavesStores (s : State) (o : StoreOp) {t u : State} (h : LeavesPair t u) :
    LeavesStores { t with commits := t.commits ++ if mbxCommits s o then [mbxCommitEntry s o t] else [] } (mbxNoted s o u) := by
  unfold mbxNoted
  split
  · exact ⟨h.cells, h.banks, h.semq, h.mbxServed, by rw [mbxCommitEntry_congr s o h, h.commits], h.intcEvents, h.test⟩
  · exact ⟨h.cells, h.banks, h.semq, h.mbxServed, h.commits.trans (List.append_nil _).symm, h.intcEvents, h.test⟩

theorem mbxStored_apart (s : State) (o : StoreOp) : StoresApart (mbxStored s o) := by
  unfold mbxStored
  split
  · exact mbxStores_apart s o
  · exact storesApart_nil

/-- The cells after an operation is served (R120). -/
def mbxCells (s : State) (o : StoreOp) : List Host.Cell := (mbxPut (mbxTaken s o) o.n (mbxStored s o)).cells

/-- Of the stores, the banks and the rest, serving an operation changes the store's cycle, the cells and the list of commits. -/
theorem mbxServeOp_leavesStores (s : State) (o : StoreOp) :
    LeavesStores { s with
      mbxServed := some s.time, cells := mbxCells s o,
      commits := s.commits ++ if mbxCommits s o then [mbxCommitEntry s o s] else [] } (mbxServeOp s o) := by
  have answered : LeavesPair { s with mbxServed := some s.time, cells := mbxCells s o }
      (mbxAnswered s o (mbxPut (mbxTaken s o) o.n (mbxStored s o))) :=
    (((mbxTaken_leavesPair s o).withCells _).trans (mbxPut_leavesPair _ _ _)).trans (mbxAnswered_leavesPair s o _)
  rw [mbxServeOp_eq]
  exact (mbxNoted_leavesStores s o answered).trans (mbxForwarded_leavesStores s o _)

/-- No codeword is stored by an operation whose status is not OK. -/
theorem mbxCells_of_status_ne_ok {s : State} {o : StoreOp} (h : mbxStatus s o ≠ .ok) : mbxCells s o = s.cells := by
  rw [mbxCells, mbxStored, if_neg h]
  exact (mbxTaken_leavesPair s o).cells

/-- Serving an operation writes within its own mailbox. -/
theorem mbxServeOp_outside (s : State) (o : StoreOp) :
    SameCellsOutside s (mbxServeOp s o) (cellKey 67 (7 * o.n) 0 0) (cellKey 67 (7 * o.n + 7) 0 0) := by
  obtain ⟨inMailbox, -⟩ := mbxStored_apart s o
  intro k hk
  calc cellByte (mbxServeOp s o) k
    _ = cellByte (mbxPut (mbxTaken s o) o.n (mbxStored s o)) k := by
        rw [cellByte, (mbxServeOp_leavesStores s o).cells]
        rfl
    _ = cellByte (mbxTaken s o) k := cellByte_mbxPut_outside _ o.n inMailbox k hk
    _ = cellByte s k := by rw [cellByte, (mbxTaken_leavesPair s o).cells, cellByte]

/-- The codewords that an operation stores read back after it. -/
theorem readCw_mbxServeOp {s : State} {o : StoreOp} (hdef : unitUndefined s 67 = false) {x : Nat × List Byte} (hx : x ∈ mbxStored s o) :
    readCw (mbxServeOp s o) 67 (7 * o.n + x.1) 0 = encodeCw (cwOfBytes x.2) := by
  obtain ⟨-, distinct⟩ := mbxStored_apart s o
  have served := mbxServeOp_leavesStores s o
  have taken := mbxTaken_leavesPair s o
  have put := mbxPut_leavesPair (mbxTaken s o) o.n (mbxStored s o)
  have hdef' : unitUndefined (mbxTaken s o) 67 = false := (taken.unitUndefined_eq 67).trans hdef
  have hput : (mbxPut (mbxTaken s o) o.n (mbxStored s o)).test = s.test := put.test.trans taken.test
  have hserved : (mbxServeOp s o).test = s.test := served.test
  have hcells : (mbxServeOp s o).cells = (mbxPut (mbxTaken s o) o.n (mbxStored s o)).cells := served.cells
  calc readCw (mbxServeOp s o) 67 (7 * o.n + x.1) 0
    _ = readCw (mbxPut (mbxTaken s o) o.n (mbxStored s o)) 67 (7 * o.n + x.1) 0 :=
        readCw_congr hcells (hserved.trans hput.symm) ((put.unitUndefined_eq 67).trans hdef') _ _
    _ = encodeCw (cwOfBytes x.2) := readCw_mbxPut_mem hdef' o.n distinct hx

end Sys2Proof.Machine
end

section
/-! PROOF. The statements of chapter 06. -/

namespace Sys2Proof.Machine

/-- A row of the mailbox store serves the store's next operation, of its kind, in a free cycle (R128). -/
theorem exec_mbxRow {c : Instr} {k : StoreKind} (hrow : (c, k) ∈ mbxRows) {s : State} {o : StoreOp} (hcore : coreOn s = true)
    (hcycle : s.mbxServed ≠ some s.time) (hfront : mbxFront s = some o) (hkind : o.kind = k) : exec c s = .next (mbxServeOp s o) := by
  have served : mbxServeKind s k = mbxServeOp s o := by
    have free : (coreOn s && s.mbxServed != some s.time && o.kind = k) = true := by simp [hcore, hcycle, hkind]
    simp only [mbxServeKind, hfront]
    exact if_pos free
  have hexec : exec c s = .next (mbxServeKind s k) := by
    simp only [mbxRows, List.mem_cons, Prod.mk.injEq, List.not_mem_nil, or_false] at hrow
    obtain ⟨rfl, rfl⟩ | ⟨rfl, rfl⟩ | ⟨rfl, rfl⟩ | ⟨rfl, rfl⟩ | ⟨rfl, rfl⟩ := hrow <;> rfl
  rw [hexec, served]

/-- Settles O21: of all that serving an operation does, storing its codewords, each at most once, is what writes bytes. -/
theorem mailboxOperationsTakeEffect : Obligations.MailboxOperationsTakeEffect := by
  refine ⟨fun c k hrow s o hcore hcycle hfront hkind hdef => ?_, fun st w hid hslot => ?_, fun s o => mbxStores_of_doorbell s⟩
  · have served := mbxServeOp_leavesStores s o
    refine ⟨mbxServeOp s o, exec_mbxRow hrow hcore hcycle hfront hkind, served.mbxServed, served.banks, served.semq, mbxServeOp_outside s o,
      fun hbad => served.cells.trans (mbxCells_of_status_ne_ok hbad), fun hok x hx => ?_, ?_⟩
    · exact readCw_mbxServeOp hdef (by rwa [mbxStored, if_pos hok])
    · subst hkind
      exact served.commits
  · rw [doorbellStatus_eq]
    exact statusWord_fields _ (Nat.min_le_left _ _) hid hslot

/-- Settles O22: a claim stores the control codeword with a STATUS word of the same writer alone, and serving it raises no source. -/
theorem claimClearsEventsAndOverrun : Obligations.ClaimClearsEventsAndOverrun := by
  intro s o hcore hcycle hfront hkind hoff d st
  have hrow : (Instr.mailboxClaim, StoreKind.mbxClaim) ∈ mbxRows := by simp [mbxRows]
  refine ⟨⟨mbxServeOp s o, exec_mbxRow hrow hcore hcycle hfront hkind, (mbxServeOp_leavesStores s o).intcEvents⟩, mbxData_of_status s hoff,
    mbxStores_of_claim s hkind, ?_⟩
  rw [claimedStatus_eq]
  exact statusWord_fields false (Nat.zero_le _) (Nat.mod_lt _ (by decide)) (Nat.mod_lt _ (by decide))

end Sys2Proof.Machine
end
